-- ==== Sys2Proof/Word.lean ====
section
/-! DEFINITION. Words, bytes, addresses and the sparse map that every addressed store of the block is kept in.

A `PMap` lists (key, value) pairs; a key that is not listed reads as the store's default there.  Its canonical
form (`PMap.wf`) has strictly rising keys and no pair equal to the default, so that equal stores are equal data. -/

namespace Sys2Proof

abbrev Word := BitVec 32
abbrev Byte := BitVec 8
abbrev Half := BitVec 16
/-- A device address: 40 bits (R6). -/
abbrev Addr := BitVec 40

/-- Key and value pairs of a sparse store.  `PMap Byte` is a list of `Host.Cell`. -/
abbrev PMap (α : Type) := List (Nat × α)

/-- The value at a key: the first pair that has it, or the default. -/
def PMap.get {α : Type} (d : Nat → α) : PMap α → Nat → α
  | [], k => d k
  | (j, x) :: m, k => if j = k then x else PMap.get d m k

/-- Put a pair at its place by key, replacing the pair that has the key. -/
def PMap.insert {α : Type} (k : Nat) (v : α) : PMap α → PMap α
  | [] => [(k, v)]
  | (j, x) :: m =>
    if k < j then (k, v) :: (j, x) :: m
    else if k = j then (k, v) :: m
    else (j, x) :: PMap.insert k v m

/-- Write a key.  Writing the default there removes the pair. -/
def PMap.set {α : Type} [DecidableEq α] (d : Nat → α) (m : PMap α) (k : Nat) (v : α) : PMap α :=
  match m with
  | [] => if v = d k then [] else [(k, v)]
  | p :: m => if v = d k then (p :: m).filter (fun p => p.1 != k) else PMap.insert k v (p :: m)

/-- Return the keys from `lo` up to, not including, `hi` to the default. -/
def PMap.clear {α : Type} (m : PMap α) (lo hi : Nat) : PMap α :=
  m.filter (fun p => p.1 < lo || hi ≤ p.1)

/-- The canonical form. -/
def PMap.wf {α : Type} [DecidableEq α] (d : Nat → α) : PMap α → Bool
  | [] => true
  | [(j, x)] => decide (x ≠ d j)
  | (j, x) :: (k, y) :: m => decide (x ≠ d j) && decide (j < k) && PMap.wf d ((k, y) :: m)

end Sys2Proof
end

