-- ==== Sys2Proof/Syntax.lean ====
section
/-! DEFINITION. The commands of the block: one constructor of `Instr` per row of the opcode table, with the operands a
sender gives.  Operands that name a place (a world, a channel, a mesh position, an item of a queue) are drawn from the
range the spec gives that place; operands that stand for what happened outside the block (a bit flipped on a link, the
outcome of a training) carry that outcome. -/

namespace Sys2Proof

/-- The masters that reach the register space: the cores SB0 to SB7 (R271), the Interchange DMA of Table 13-5, the
transport, the UCIe sideband (R232), JTAG (R436), the board controller (R434), the Track Plan loader (R51) and the trunk
endpoints (R408). -/
inductive Master where
  | sb (n : Fin 8)
  | xdma
  | transport
  | sideband
  | jtag
  | smbus
  | loader
  | trunk
deriving DecidableEq, Repr

/-- The number under which a master's own registers, latches and completion record are kept. -/
def Master.idx : Master → Nat
  | .sb n => n.val
  | .xdma => 8
  | .transport => 9
  | .sideband => 10
  | .jtag => 11
  | .smbus => 12
  | .loader => 13
  | .trunk => 14

/-- The ports of a Junction (Table 1-1). -/
inductive Port where
  | n | e | s | w | l
deriving DecidableEq, Repr

/-- Number of a port, in the order N, E, S, W, local. -/
def Port.idx : Port → Nat
  | .n => 0 | .e => 1 | .s => 2 | .w => 3 | .l => 4

/-- The edges at which a copy can leave the grid without a destination (R160). -/
inductive Edge where
  | north | south | east
deriving DecidableEq, Repr

/-- Where a reset request comes from: SOURCE of SYS_RST_STATUS (Table 17-12). -/
inductive ResetSource where
  | powerUp | sideband | transport | sb0 | smbus | jtag
deriving DecidableEq, Repr

/-- What a mesh or trunk link did to a copy on its way: the bits of word and tag that it flipped (R152). -/
abbrev LinkError := BitVec 72

/-- What the Freight network did to a packet, and what its destination met (R205, R203): whether HCHK or CRC fails
there, and whether a read of GDDR6 or Depot meets an uncorrectable error. -/
structure PacketError where
  hchkBad : Bool
  crcBad : Bool
  uncorrectable : Bool
deriving DecidableEq, Repr

/-- A transport message as it stands on the link (Table 11-2), its CRC apart. -/
structure HostMsg where
  typ : BitVec 4
  flags : BitVec 4
  len : BitVec 13
  addrHi : Byte
  seq : Half
  ackseq : Half
  arg : Word
  payload : List Byte
deriving DecidableEq, Repr

/-- Outcome of a mainband training (R231): whether it trained at x64 or at x32, whether lanes were repaired, and the
highest rate code the host offers. -/
structure TrainOutcome where
  modulesX64 : BitVec 4
  modulesX32 : BitVec 4
  repaired : BitVec 4
  hostRate : BitVec 2
deriving DecidableEq, Repr

/-- One failing SRAM instance of a march run (R288, Table 13-11): the rank, bank or table, the memory, the word index of
its first failure, how many rows fail, and whether the rerun after repair passes. -/
structure MarchFail where
  unit : BitVec 12
  mem : BitVec 4
  word : Half
  rows : BitVec 8
  rerunPasses : Bool
deriving DecidableEq, Repr

/-- What the physical work of a bring-up stage came to (R354): the failure CODE of Table 17-1, 0 for none; the PLLs that locked in
stage 2 where one failed, the switches of DRAM, TRUNK and SBOX that hung where one did, and whether VDD_FAB was refused its
grant rather than not confirmed; the physical
stations stage 3 left unrepaired, and the instances that failed its run of ALG 0; the mainband training of stage 4; whether
stage 5 could write a migrated settings block (R389); the channels, densities and modes of stage 6; the
trunk links of stage 7 that have a partner and that trained; and the duration in units of 10 µs. -/
structure StageReport where
  code : BitVec 6
  locks : BitVec 4
  hung : BitVec 3
  denied : Bool
  unrepaired : List (BitVec 6 × BitVec 6)
  fails : List MarchFail
  migrated : Bool
  train : TrainOutcome
  chFitted : BitVec 24
  chTrained : BitVec 24
  density : BitVec 2
  mode : BitVec 2
  trkPartner : Byte
  trkTrained : Byte
  time : BitVec 24
deriving DecidableEq, Repr

/-- How an access of GDDR6 ends (R174, R372): whether no uncorrectable error remains, which of the streamer's two channels met one
that does, and the errors that each channel corrected by ECC or recovered by an EDC reread. -/
structure DramEnd where
  ok : Bool
  odd : Bool
  fixed0 : Half
  fixed1 : Half
deriving DecidableEq, Repr

/-- The SD card at the board connector (R383, R433): whether one answers and takes the switch to 1.8 V, whether its volume is
FAT32, the bytes of VELRIC.IMG if the root directory has that file, and whether reading it meets an error. -/
structure SdCard where
  answers : Bool
  fat32 : Bool
  file : Option (List Byte)
  readError : Bool
deriving DecidableEq, Repr

/-- A trunk link unit as received (R399): its 64 bytes, the last four a CRC-32C over the others, and whether the sync header of
every block was valid. -/
structure LinkUnit where
  bytes : List Byte
  blocksOk : Bool
deriving DecidableEq, Repr

/-- The packet error code byte of an SMBus transfer, where the board controller sends one (R434). -/
abbrev Pec := Option Byte

/-- The timer registers wider than a word that are written through a staged HI word (R318). -/
inductive TmrReg where
  | count | period | phase | cmp
deriving DecidableEq, Repr

/-- The message classes the device sends under credits or without (R240). -/
inductive TxClass where
  | r | p
deriving DecidableEq, Repr

/-- The commands: one constructor per row of the opcode table. -/
inductive Instr where
  /-- REG_WRITE (R7): A write to a register that has no row of its own stores or ignores the value according to its access code, reserved-field rule and any refusal check. -/
  | regWrite (m : Master) (a : Addr) (v : Word) (parityFails : Nat)
  /-- BROADCAST_WINDOW_WRITE (R20): A write through the broadcast window reaches every station of the selected group, or is refused when bits [23:20] are not zero. -/
  | broadcastWindowWrite (m : Master) (a : Addr) (v : Word)
  /-- SECTION_WINDOW_ACCESS (R19): An access to a section window is translated through the section tree to the member stations, or ends as unmapped. -/
  | sectionWindowAccess (m : Master) (a : Addr) (wr : Option Word)
  /-- TPL_LOAD (R46): LOAD is accepted in NO_PLAN; the loader checks the staged image and requests a Track Plan load grant. -/
  | tplLoad
  /-- TPL_PATCH (R50): PATCH is accepted in DRAINED; the patch image is checked under R46 and the hold conditions of R50. -/
  | tplPatch
  /-- TPL_GO (R48): GO activates rank and edge tables, resets Valiant indices, initialises barriers and counters, broadcasts the live map and starts the step timers. -/
  | tplGo
  /-- TPL_HOLD (R49): HOLD marks the selected live worlds as held and enters DRAINING. -/
  | tplHold
  /-- TPL_RELEASE (R52): RELEASE clears the hold of the selected worlds and returns to LIVE when no held world remains. -/
  | tplRelease
  /-- TPL_STOP (R48): STOP holds every live world and waits for them to drain. -/
  | tplStop
  /-- TPL_CANCEL (R45): CANCEL ends a load, drain or stop in progress with REASON 0x0F. -/
  | tplCancel
  /-- LOAD_ROUND_END (R46): An acknowledge reduction fills TPL_ACK_MAP; the loader starts a resend round, ends in LOADED or goes on as on GO, or fails with REASON 0x09. -/
  | loadRoundEnd (bad : List Nat)
  /-- HOLD_DRAINED (R49): A credit reduction confirms zero credits and ended consists for every held world, and the state becomes DRAINED. -/
  | holdDrained
  /-- STOP_COMPLETE (R48): Once every world is held, STOP clears the live map and PLAN_LIVE, and the state becomes NO_PLAN. -/
  | stopComplete
  /-- DRAIN_LIMIT_EXPIRY (R49): TPL_DRAIN_LIMIT passes during a drain or stop, and the command ends with REASON 0x0D while the worlds stay held. -/
  | drainLimitExpiry
  /-- RANK_TABLE_SWITCH (R209): Once Freight is idle and every interface has acknowledged the shadow, one broadcast makes the new rank table live everywhere, or none does. -/
  | rankTableSwitch (acked : Bool)
  /-- JUNCTION_ENTRY_STAGE (R157): A write to word 0x0 or 0x4 of a Junction entry goes into the writing master's staging register. -/
  | junctionEntryStage (m : Master) (rank : Fin 2304) (idx : Fin 1024) (hi : Bool) (v : Word)
  /-- JUNCTION_ENTRY_COMMIT (R157): A write to word 0x8 commits the entry with the master's staged words, subject to the checks of R51 and R134, and zeroes HITS. -/
  | junctionEntryCommit (m : Master) (rank : Fin 2304) (idx : Fin 1024) (v : Word)
  /-- DESCRIPTOR_WRITE (R59): A window write of a population descriptor is checked under R59 and R90, and the station rewrites POP in the affected slots. -/
  | descriptorWrite (m : Master) (rank : Fin 2304) (idx : Fin 256) (word : Fin 8) (v : Word)
  /-- MOD_CFG_WRITE (R113): A write to STN_MOD_CFG is refused if it would change VALID or WORLD of a live world that is not held, or would duplicate a WORLD. -/
  | modCfgWrite (m : Master) (rank : Fin 2304) (slot : Fin 16) (v : Word)
  /-- MOD_VALUE_WRITE (R113): A write to STN_MOD_VALUE also sets MOD_T to the world's present step. -/
  | modValueWrite (m : Master) (rank : Fin 2304) (slot : Fin 16) (v : Word)
  /-- STEP_BOUNDARY (R141): A world's timer count reaches its next boundary; a late step is counted and its overrun policy is applied. -/
  | stepBoundary (w : Fin 4096)
  /-- STRETCH_LIMIT_EXPIRY (R142): A step still incomplete at boundary b(t + 1) + STRETCH_MAX × PERIOD faults the world with cause 2. -/
  | stretchLimitExpiry (w : Fin 4096)
  /-- STEP_RELEASE (R131): The step sequencer releases a world's next step once every condition holds and broadcasts the release to the world's stations. -/
  | stepRelease (w : Fin 4096)
  /-- OPENING_PASS (R68): On a step release a station removes stale emissions, clears a bank, folds the modulator, finishes a late sweep, emits pending events and applies matured accumulators. -/
  | openingPass (pos : Fin 2304) (slot : Fin 16)
  /-- SWEEP_VISIT (R75): The sweeper updates one non-idle slot of a world with kind sweep during its turn. -/
  | sweepVisit (pos : Fin 2304) (slot : Fin 16)
  /-- PLASTIC_ROW_SWEEP (R123): The sweeper visits one plastic row and clears PRE_VALID when T_PRE is 32,768 or more steps old. -/
  | plasticRowSweep (pos : Fin 2304) (slot : Fin 16)
  /-- EMISSION_SEND (R158): The emission store sends its oldest entry of a virtual channel to the Junction once that channel has a credit. -/
  | emissionSend (pos : Fin 2304) (vc : Fin 4)
  /-- JUNCTION_ARRIVAL (R155): A copy arrives at a Junction, is checked and tested for its step tag, and is routed by one entry or by the fall-back. -/
  | junctionArrival (pos : Fin 2304) (port : Port) (vc : Fin 4) (err : LinkError)
  /-- EVENT_DELIVER (R91): The synapse pipeline takes an event from the row arbiter queue, walks its rows, dequantises weights and applies each contribution. -/
  | eventDeliver (pos : Fin 2304)
  /-- MODULATOR_ARRIVAL (R115): A modulator broadcast reaches a station that holds the world, and is pended or applied to the world's modulator. -/
  | modulatorArrival (pos : Fin 2304)
  /-- CONSUMPTION_NOTICE (R134): A transit station's consumption notice reaches the Interchange, which adds one to CONSUMED of the copy's world. -/
  | consumptionNotice
  /-- LOSS_NOTICE (R134): A loss notice reaches the Interchange, which adds one to LOST of both banks of every live world. -/
  | lossNotice
  /-- INJECT_TURN (R146): At a world's turn, the Interchange injects its latched modulator or its next queued event after an edge lookup. -/
  | injectTurn (w : Fin 4096)
  /-- INPUT_CLOSE (R136): Input of a step closes once the queue and encoders are empty after the opening passes, or once its END_STEP mark has been injected. -/
  | inputClose (w : Fin 4096)
  /-- CREDIT_REDUCTION (R137): A credit reduction returns its sums; two equal readings within the loss allowance confirm quiescence or an empty bank. -/
  | creditReduction (w : Fin 4096) (bank : Fin 2)
  /-- WEST_EDGE_ARRIVAL (R163): A copy reaches the west edge router, and the edge-table lookup re-injects it, delivers it to a decoder, sends it to a trunk or consumes it. -/
  | westEdgeArrival (row : Fin 48) (vc : Fin 4) (err : LinkError)
  /-- OFF_GRID_ARRIVAL (R160): A copy that leaves the grid N, S or E without THRU is consumed by the edge router and counted. -/
  | offGridArrival (edge : Edge) (p : Fin 48) (vc : Fin 4) (err : LinkError)
  /-- EAST_EDGE_THRU (R164): The east edge router hands a THRU copy to its trunk link, or consumes it when the link is absent or down. -/
  | eastEdgeThru (row : Fin 48) (vc : Fin 4) (err : LinkError)
  /-- EDGE_IDX_WRITE (R171): A write to XCH_EDGE_IDX loads the selected edge entry into XCH_EDGE_DATA. -/
  | edgeIdxWrite (m : Master) (v : Word)
  /-- EDGE_ENTRY_COMMIT (R171): A write to XCH_EDGE_DATA[3] commits all four words to the selected edge entry, subject to R51. -/
  | edgeEntryCommit (m : Master) (v : Word)
  /-- STEP_QUIET_ARRIVAL (R178): A station receives STEP_QUIET, sends its activity summaries, clears its spike blocks and samples membranes when due. -/
  | stepQuietArrival (pos : Fin 2304) (slot : Fin 16)
  /-- SUMMARY_ARRIVAL (R180): A streamer stores an arriving activity summary, or discards and counts it. -/
  | summaryArrival (s : Fin 12)
  /-- WALK_BEGIN (R181): A streamer begins the consist walk for a world once it holds STEP_QUIET and the expected summaries. -/
  | walkBegin (s : Fin 12) (w : Fin 4096)
  /-- SUM_WAIT_EXPIRY (R181): SUM_WAIT passes with summaries missing; the missing ones are counted and the walk begins anyway. -/
  | sumWaitExpiry (s : Fin 12) (w : Fin 4096)
  /-- WALK_ENTRY (R181): The streamer examines one consist entry and skips it as foreign or gated, or passes a request to the merge table. -/
  | walkEntry (s : Fin 12) (w : Fin 4096)
  /-- READ_CLOSE (R182): An open merge-table read closes on age, request count or idle, and goes to DRAM. -/
  | readClose (s : Fin 12)
  /-- PAGE_READ_COMPLETE (R184): A DRAM page read returns; its CRC is checked, it is reread or failed, and its deliveries are prepared. -/
  | pageReadComplete (s : Fin 12) (e : DramEnd)
  /-- DELIVERY_SEND (R184): A streamer sends one page delivery as a Freight transaction once an outstanding slot is free. -/
  | deliverySend (s : Fin 12)
  /-- STREAM_TOKEN_IDLE (R183): TOKEN_IDLE passes with no walk or open read, and the streamer returns its streaming-burst grant. -/
  | streamTokenIdle (s : Fin 12)
  /-- WALK_END (R186): Every entry has been examined and every delivery has ended; the streamer sends CONSIST_END and clears the block maps. -/
  | walkEnd (s : Fin 12) (w : Fin 4096)
  /-- STEP_ABANDON_ARRIVAL (R187): STEP_ABANDON stops a streamer's walk and drops the world's unissued requests, which are counted. -/
  | stepAbandonArrival (s : Fin 12) (w : Fin 4096)
  /-- CONSIST_END_ARRIVAL (R186): The Interchange receives CONSIST_END, and the barrier completes once quiescence holds and every involved streamer has reported. -/
  | consistEndArrival (s : Fin 12) (w : Fin 4096)
  /-- PAGE_LAND (R185): A delivery held in a page-buffer slot runs through the row arbiter, and its page is applied into the delay rings. -/
  | pageLand (pos : Fin 2304)
  /-- FREIGHT_HOP (R199): A router takes a packet's head, steps it toward its intermediate or exit, hands it over or consumes a misroute. -/
  | freightHop (i : Nat)
  /-- FREIGHT_PACKET_ARRIVAL (R205): A destination checks HCHK and CRC and acts on a request, posted packet or response, or NACKs or drops it. -/
  | freightPacketArrival (i : Nat) (err : PacketError)
  /-- STATION_FREIGHT_WRITE (R203): A station applies a Freight WRITE as one row-arbiter request and sends ACK when it completes. -/
  | stationFreightWrite (pos : Fin 2304)
  /-- FREIGHT_RESPONSE (R206): A source accepts a response and ends the transaction, resends it, or ends it with a fatal freight error. -/
  | freightResponse (i : Nat) (err : PacketError)
  /-- FREIGHT_TIMEOUT (R206): TIMEOUT passes without a valid response; the source resends a READ or ends the transaction fatally. -/
  | freightTimeout (ep : Nat) (txn : Nat)
  /-- QNT_START (R222): START in IDLE checks a quantiser job and requests a projection-batch grant. -/
  | qntStart
  /-- QNT_CANCEL (R223): CANCEL stops the job at once, or after the page being written is acknowledged, with REASON 0x09. -/
  | qntCancel
  /-- QNT_JOB_END (R222): Once every write of the job has been acknowledged, sums are written, DONE is set and the quantiser returns to IDLE. -/
  | qntJobEnd
  /-- PRJ_LOAD (R224): LOAD starts reading a matrix, its group words and its column sums into a projection unit. -/
  | prjLoad (u : Fin 4)
  /-- PRJ_UNLOAD (R224): UNLOAD clears LOADED once the batch in progress has ended. -/
  | prjUnload (u : Fin 4)
  /-- PRJ_LOAD_END (R224): The matrix read completes, and the unit checks the sums and sets LOADED or LOAD_ERR. -/
  | prjLoadEnd (u : Fin 4)
  /-- PRJ_BATCH_RUN (R227): With its grant held, a unit runs the batch at the head of its queue and computes the output currents. -/
  | prjBatchRun (u : Fin 4)
  /-- PRJ_BATCH_END (R228): A batch ends and its currents return to the encoder, which emits CURRENT events. -/
  | prjBatchEnd (u : Fin 4)
  /-- PRJ_TOKEN_IDLE (R225): TOKEN_IDLE passes without a batch, and the projection unit returns its grant. -/
  | prjTokenIdle (u : Fin 4)
  /-- TOKEN_GRANT (R344): At a grant chance, the Token Office grants the fitting request of lowest priority number, and the requester proceeds. -/
  | tokenGrant
  /-- TOKEN_WAIT_EXPIRY (R345): A request still queued after PWR_TOK_WAIT is refused and counted, and its requester acts on the refusal. -/
  | tokenWaitExpiry (req : Fin 22)
  /-- SIDEBAND_MEM_READ (R232): A sideband Memory Read of the vendor register space is answered from SYS or the window registers. -/
  | sidebandMemRead (off : Word) (wide : Bool)
  /-- SIDEBAND_MEM_WRITE (R232): A sideband Memory Write of the vendor register space writes SYS or the window registers. -/
  | sidebandMemWrite (off : Word) (wide : Bool) (lo : Word) (hi : Word)
  /-- SBW_DATA_ACCESS (R232): An access to XCH_SBW_DATA performs a 32-bit device access at the window address and may advance it. -/
  | sbwDataAccess (wr : Option Word)
  /-- LINK (R239): A received LINK message updates credit limits and ACKSEQ, and triggers a replay if REPLAY_REQ is set. -/
  | link (crcOk : Bool) (ackseq : Half) (replayReq : Bool) (limR : Word) (limP : Word)
  /-- REG_RD (R241): The host reads one 32-bit register, answered with ACK and data, or NACK. -/
  | regRd (msg : HostMsg)
  /-- REG_WR (R241): The host writes one 32-bit register, answered with ACK or NACK. -/
  | regWr (msg : HostMsg)
  /-- BLK_WR (R241): The host writes a block, split into Freight transactions or Depot writes, answered when all have completed. -/
  | blkWr (msg : HostMsg)
  /-- BLK_RD (R241): The host reads a block, answered with the bytes when every read has completed. -/
  | blkRd (msg : HostMsg)
  /-- EVT_IN (R146): An input event message is accepted whole into the world's injection queue, or refused whole. -/
  | evtIn (msg : HostMsg)
  /-- VAL_IN (R253): A value message is checked against its encoder channel and generates events into the queue under the channel's code. -/
  | valIn (msg : HostMsg)
  /-- MOD_IN (R140): A modulator message enters the world's modulator latch, or is refused. -/
  | modIn (msg : HostMsg)
  /-- RING_SET (R245): RING_SET defines or ends an output ring after checking its fields. -/
  | ringSet (msg : HostMsg)
  /-- RING_FREE (R247): RING_FREE advances the ring's read offset, and records waiting for space are placed. -/
  | ringFree (msg : HostMsg)
  /-- MSG_TO_DEVICE (R297): A host MSG pushes all of its entries into a request channel, or is refused. -/
  | msgToDevice (msg : HostMsg)
  /-- MESSAGE_SEND (R240): The device sends a waiting message of a class once that class has credit and the replay store has room. -/
  | messageSend (cls : TxClass)
  /-- REPLAY_TIMEOUT (R238): REPLAY_TIMEOUT passes without an ACKSEQ advance; the sender replays, or retrains after four replays. -/
  | replayTimeout (tr : TrainOutcome)
  /-- LINK_RETRAIN (R238): A RETRAIN command retrains the mainband, keeping the sequence and the held messages. -/
  | linkRetrain (m : Master) (tr : TrainOutcome)
  /-- CREDIT_REPORT (R240): A receiver reports risen credit limits in a LINK, every 2 µs while they rise and every 20 µs in any case. -/
  | creditReport
  /-- ACK_LINK_SEND (R239): The device advances ACKSEQ to the host within 1 µs, sending a LINK if it has nothing else to send. -/
  | ackLinkSend
  /-- RECORD_PLACE (R246): A record is placed in its ring, with a pad if needed, or waits or is discarded, and the index is written. -/
  | recordPlace (ring : Fin 256)
  /-- ENC_CFG_WRITE (R252): A write to XCH_ENC_CFG resets the channel's state words. -/
  | encCfgWrite (m : Master) (e : Fin 256) (v : Word)
  /-- DEC_CFG_WRITE (R265): A write to XCH_DEC_CFG discards the window in progress and resets the decoder's state. -/
  | decCfgWrite (m : Master) (d : Fin 256) (v : Word)
  /-- MEMBRANE_WAIT_EXPIRY (R266): SMP_WAIT passes after the decoder run, and the MEMBRANE record is written with missing outputs as 0x7FC0. -/
  | membraneWaitExpiry (d : Fin 256)
  /-- SB_RUN (R272): A write of RUN to SYS_SB_CTRL starts a core at its reset vector, or holds it in reset and abandons its blocked channel access. -/
  | sbRun (m : Master) (n : Fin 8) (run : Bool)
  /-- CORE_WINDOW_ACCESS (R275): A core access through the sliding window or register space reaches its device address, or faults. -/
  | coreWindowAccess (n : Fin 8) (user : Bool) (ca : Word) (width : Nat) (wr : Option Word)
  /-- DEPOT_SET_ALIAS_WRITE (R278): A write to the bit-set alias ORs the data into the Depot word. -/
  | depotSetAliasWrite (m : Master) (off : BitVec 24) (be : BitVec 4) (v : Word)
  /-- DEPOT_CLEAR_ALIAS_WRITE (R278): A write to the bit-clear alias clears the written bits of the Depot word. -/
  | depotClearAliasWrite (m : Master) (off : BitVec 24) (be : BitVec 4) (v : Word)
  /-- SDMA_SUBMIT (R282): A write to XCH_SDMA_D[3] checks the staged descriptor and queues it or reports BAD or BUSY. -/
  | sdmaSubmit (m : Master) (v : Word)
  /-- SDMA_START (R283): The Signal DMA starts the next queued descriptor and splits it into Freight transactions. -/
  | sdmaStart
  /-- SDMA_COMPLETE (R283): A descriptor's transactions have all ended; its completion enters the master's FIFO and any Block increment is applied. -/
  | sdmaComplete (i : Nat)
  /-- SDMA_CPL_READ (R284): A read of XCH_SDMA_CPL returns the head completion and removes it. -/
  | sdmaCplRead (m : Master)
  /-- MBT_START (R289): START in IDLE checks a march run and requests a march test grant. -/
  | mbtStart
  /-- MBT_CANCEL (R289): CANCEL stops a march run after the current operation, or at the next restoring element. -/
  | mbtCancel
  /-- MBT_RUN_END (R289): A march run ends, repairs are applied where possible, DONE is set and the engine interrupts. -/
  | mbtRunEnd (fails : List MarchFail)
  /-- CHN_STAGE_WRITE (R292): A write to word 0 of a channel data register stores the low half in the core's staging register. -/
  | chnStageWrite (n : Fin 8) (reply : Bool) (c : Fin 32) (v : Word)
  /-- CHN_PUSH (R293): A write to word 1 pushes an entry into a channel, blocks, or faults while a park is held. -/
  | chnPush (n : Fin 8) (reply : Bool) (c : Fin 32) (v : Word)
  /-- CHN_POP (R293): A read of word 0 pops the head entry and latches its high half, or blocks while the channel is empty. -/
  | chnPop (n : Fin 8) (reply : Bool) (c : Fin 32)
  /-- CHN_STALL_EXPIRY (R295): A push blocked for CHN_STALL_LIMIT cycles is parked in the core's park register and raises its park source. -/
  | chnStallExpiry (n : Fin 8)
  /-- CHN_PARK_RETRY (R296): RETRY pushes the parked entry into its channel and clears the park register. -/
  | chnParkRetry (m : Master) (n : Fin 8)
  /-- CHN_PARK_DISCARD (R296): DISCARD clears the park register without pushing. -/
  | chnParkDiscard (m : Master) (n : Fin 8)
  /-- RPY_HOST_DRAIN (R297): The Interchange pops a host reply channel and sends its entries in one MSG when credits allow. -/
  | rpyHostDrain (c : Fin 32)
  /-- BLK_OP_WRITE (R302): A write to BLK_OP performs the Block type's write operation and may raise its line. -/
  | blkOpWrite (m : Master) (i : Fin 65536) (d : Word)
  /-- BLK_OP_READ (R302): A read of BLK_OP returns the old VALUE and performs the type's take operation. -/
  | blkOpRead (m : Master) (i : Fin 65536)
  /-- BLK_CFG_WRITE (R301): A write to BLK_CFG that changes TYPE zeroes VALUE and OVF; writes to device Blocks are refused except for NOTE_EN and LINE. -/
  | blkCfgWrite (m : Master) (i : Fin 65536) (v : Word)
  /-- IRQ_PEND_SET_WRITE (R308): A write of 1 to IRQ_PEND_SET sets pending bits of software sources 160 to 191. -/
  | irqPendSetWrite (m : Master) (i : Fin 8) (v : Word)
  /-- IRQ_PEND_CLR_WRITE (R308): A write of 1 to IRQ_PEND_CLR clears pending bits, which level sources set again if still asserted. -/
  | irqPendClrWrite (m : Master) (i : Fin 8) (v : Word)
  /-- IRQ_EN_SET_WRITE (R311): A write to IRQ_EN_SET enables sources for a target. -/
  | irqEnSetWrite (m : Master) (i : Fin 72) (v : Word)
  /-- IRQ_EN_CLR_WRITE (R311): A write to IRQ_EN_CLR disables sources for a target. -/
  | irqEnClrWrite (m : Master) (i : Fin 72) (v : Word)
  /-- IRQ_LINE_RISE (R312): A target's line rises under moderation; a core takes the interrupt or leaves WFI, or INT messages are sent to the host. -/
  | irqLineRise (t : Fin 9)
  /-- IRQ_MOD_TIME_EXPIRY (R312): TIME µs pass since the first source entered D_t, and the line rises. -/
  | irqModTimeExpiry (t : Fin 9)
  /-- STN_IRQ_REPORT (R309): A station's latch change reaches the aggregator, which updates the kind's map and source. -/
  | stnIrqReport (pos : Fin 2304)
  /-- PIN_EDGE (R310): A GPIO pin's filtered output changes level and raises its source, a timer capture or a wake. -/
  | pinEdge (p : Fin 16) (level : Bool)
  /-- IRQ_PIN_CFG_WRITE (R310): A write to IRQ_PIN_CFG restarts the pin's filter from its present level. -/
  | irqPinCfgWrite (m : Master) (p : Fin 16) (v : Word)
  /-- TIMER_PERIOD_EVENT (R316): A tick reaches PERIOD; the count reloads, a shadow period comes into force and a one-shot channel stops. -/
  | timerPeriodEvent (c : Fin 32)
  /-- TIMER_COMPARE (R320): COUNT becomes equal to CMP, a compare event occurs, and the output responds. -/
  | timerCompare (c : Fin 32)
  /-- TIMER_WRAP (R316): A FREE channel's count passes its top and sets WRAP. -/
  | timerWrap (c : Fin 32)
  /-- TIMER_CAPTURE_EDGE (R321): A filtered pin edge captures COUNT into CAP or into the shadow. -/
  | timerCaptureEdge (c : Fin 32) (rising : Bool)
  /-- TMR_CAPTURE (R321): The CAPTURE command copies COUNT as a capture. -/
  | tmrCapture (c : Fin 32)
  /-- TMR_START (R322): START sets COUNT to PHASE, clears the prescaler and runs the channel. -/
  | tmrStart (c : Fin 32)
  /-- TMR_STOP (R322): STOP halts the channel with COUNT kept, unless a step timer refuses it. -/
  | tmrStop (c : Fin 32)
  /-- TMR_RELOAD (R322): RELOAD sets COUNT to PHASE without changing whether the channel runs. -/
  | tmrReload (c : Fin 32)
  /-- TMR_GSTART (R322): A write to TMR_GSTART starts every channel of its mask in one cycle. -/
  | tmrGstart (v : Word)
  /-- TMR_GSTOP (R322): A write to TMR_GSTOP stops every channel of its mask in one cycle. -/
  | tmrGstop (v : Word)
  /-- TMR_GSTAGGER (R322): A write to TMR_GSTAGGER gives evenly spaced phases to the channels of its mask. -/
  | tmrGstagger (v : Word)
  /-- TMR_HI_STAGE (R318): A write to the HI word of COUNT, PERIOD, PHASE or CMP goes into the master's staging register. -/
  | tmrHiStage (m : Master) (r : TmrReg) (c : Fin 32) (v : Word)
  /-- TMR_COUNT_COMMIT (R318): A LO write commits a new COUNT, unless a step timer refuses it. -/
  | tmrCountCommit (m : Master) (c : Fin 32) (v : Word)
  /-- TMR_PERIOD_COMMIT (R319): A LO write commits PERIOD at once, into the shadow, or with an immediate reload, as R319 gives. -/
  | tmrPeriodCommit (m : Master) (c : Fin 32) (v : Word)
  /-- TMR_PHASE_COMMIT (R318): A LO write commits a new PHASE. -/
  | tmrPhaseCommit (m : Master) (c : Fin 32) (v : Word)
  /-- TMR_CMP_COMMIT (R320): A LO write commits a new CMP, with a compare event if it equals COUNT. -/
  | tmrCmpCommit (m : Master) (c : Fin 32) (v : Word)
  /-- TMR_CAP_READ (R321): A read of TMR_CAP_LO returns CAP, moves a pending shadow and clears CAP_NEW. -/
  | tmrCapRead (m : Master) (c : Fin 32) (capture : Bool)
  /-- CLK_SWITCH (R332): A write of SEL to CLK_SEL starts a glitch-free source switch of an island. -/
  | clkSwitch (i : Fin 4) (v : Word)
  /-- CLK_SWITCH_COMPLETE (R332): The new clock drives the island and PENDING clears. -/
  | clkSwitchComplete (i : Fin 4)
  /-- CLK_SWITCH_HANG (R332): A switch not complete within 10 µs sets HANG and HANG_EVT. -/
  | clkSwitchHang (i : Fin 4)
  /-- ISLAND_RESET (R367): A write to CLK_ISL_RST resets the LINK, DRAM or TRUNK island with its stated effects. -/
  | islandReset (v : Word)
  /-- XCH_FLOOR_WRITE (R334): A write that raises FLOOR requests an XCH-ramp grant; a lower FLOOR lets the ratio ramp down. -/
  | xchFloorWrite (v : Word)
  /-- XCH_RATIO_STEP (R334): Every 250 ns the XCH ratio moves one unit toward its target, and a ramp grant is returned at the end. -/
  | xchRatioStep
  /-- SBCLK_STOP (R337): SBCLK stops for longer than 100 ns, every clock stops and the detector notes the gap. -/
  | sbclkStop
  /-- SBCLK_RETURN (R337): SBCLK returns; TIME_LOST and UNLOCK_EVT are set, PLLs relock and islands resume. -/
  | sbclkReturn
  /-- CLK_MON_UPDATE (R338): Every 1 µs CLK_MON is updated, and a source that stopped under an island sets MON_EVT. -/
  | clkMonUpdate (running : BitVec 7)
  /-- CLK_FREQ_UPDATE (R339): Every 1 ms each CLK_FREQ takes the edge count of the last 1,000 ANCLK cycles. -/
  | clkFreqUpdate (counts : List Word)
  /-- HSM_UPDATE (R342): The handshake monitors update CLK_HSM and CLK_KF_MEAS, and KF_EVT is set above the limit. -/
  | hsmUpdate (counts : List Half)
  /-- VFAB_TARGET_WRITE (R347): A write to PWR_VFAB_TARGET starts movement toward the clamped target in steps. -/
  | vfabTargetWrite (v : Word)
  /-- VFAB_STEP_READY (R347): The regulator reports ready; the Vout is read back, CONFIRMED is set, any grant is returned and the next step begins. -/
  | vfabStepReady (mv : BitVec 10)
  /-- VFAB_READY_TIMEOUT (R347): A frame is unanswered or the 50 µs wait passes; the frame is retried or ERR stops the movement. -/
  | vfabReadyTimeout (frame : Bool)
  /-- AVS_ALERT (R347): An AVSBus status alert sets ALERT and raises the voltage regulator source. -/
  | avsAlert
  /-- VFAB_TELEMETRY (R347): Every 100 µs while no step runs, Vout and Iout are read into PWR_VFAB_MEAS. -/
  | vfabTelemetry (vout : BitVec 10) (iout : BitVec 10)
  /-- PWR_SLEEP_REQ (R349): A SLEEP request is refused with its reason, or sets ENTERING. -/
  | pwrSleepReq
  /-- PWR_DEEP_REQ (R349): A DEEP request is refused with its reason, or sets ENTERING. -/
  | pwrDeepReq
  /-- PWR_WAKE_REQ (R350): A WAKE written through the sideband returns the device to RUN. -/
  | pwrWakeReq
  /-- PWR_STATE_ENTRY (R349): Every running core is in WFI, and the device enters SLEEP or DEEP. -/
  | pwrStateEntry
  /-- PWR_ENTRY_TIMEOUT (R349): The cores are not all in WFI within 1 ms, and the request is refused. -/
  | pwrEntryTimeout
  /-- WAKE_CAUSE_EVENT (R350): An enabled wake cause such as a pin, L1 exit, trunk or SMBus returns the device to RUN and records WAKE_CAUSE. -/
  | wakeCauseEvent (cause : Fin 7)
  /-- PWR_WAKE_TIME_EXPIRY (R350): PWR_WAKE_TIME passes since entry, and the device wakes with cause 2. -/
  | pwrWakeTimeExpiry
  /-- TEMP_SAMPLE (R351): Every 10 µs the sensors update PWR_TEMP, setting or clearing WARN and THROTTLE. -/
  | tempSample (temps : List (BitVec 12))
  /-- VDD_AON_RISE (R364): A rise of VDD_AON causes a COLD reset, and stage 0 runs once SBCLK is present. -/
  | vddAonRise
  /-- BRING_NEXT (R355): NEXT runs the next bring-up stage. -/
  | bringNext
  /-- BRING_ALL (R355): ALL runs every remaining stage without waiting. -/
  | bringAll
  /-- BRING_RETRY (R356): RETRY runs a failed stage 4 to 9 again. -/
  | bringRetry
  /-- BRING_RERUN (R356): RERUN runs stage 4, 6 or 7 again after READY. -/
  | bringRerun (stage : BitVec 4)
  /-- AUTO_WRITE (R355): AUTO written as 1 while the device waits acts as ALL. -/
  | autoWrite (v : Bool)
  /-- STAGE_END (R354): A bring-up stage passes or fails, its report is written, and the next stage starts or the device waits. -/
  | stageEnd (rep : StageReport)
  /-- RESET_COLD (R364): A COLD reset request returns the device to stage 0. -/
  | resetCold (src : ResetSource)
  /-- RESET_WARM (R364): A WARM reset request returns the device to stage 1, unless TRIPPED refuses it. -/
  | resetWarm (src : ResetSource)
  /-- RESET_COMPUTE (R365): A COMPUTE reset answers unfinished requests, puts GDDR6 in self-refresh, resets the fabric and reseeds the generators. -/
  | resetCompute (src : ResetSource)
  /-- RESET_SECTION (R366): A SECTION reset resets the stations of a window, or is refused with its reason. -/
  | resetSection (src : ResetSource) (window : Fin 4096)
  /-- RESET_DONE (R366): A COMPUTE or SECTION reset ends, restored state is loaded into the stations and DONE is set. -/
  | resetDone
  /-- FWU_BEGIN (R381): BEGIN starts a host image write session into the inactive slot. -/
  | fwuBegin
  /-- FWU_START_SD (R383): START_SD starts a session that reads VELRIC.IMG from the SD card. -/
  | fwuStartSd (sd : SdCard)
  /-- FWU_CANCEL (R384): CANCEL ends a write session with REASON 0x08. -/
  | fwuCancel
  /-- FWU_SELECT (R390): SELECT marks a GOOD slot PENDING for the next start, or is refused. -/
  | fwuSelect (slot : Fin 16)
  /-- FWU_SET_WRITE (R389): SET_WRITE writes a settings block from Depot into the running slot's region. -/
  | fwuSetWrite
  /-- FWU_CUSTKEY (R391): CUSTKEY programs the customer key hash once. -/
  | fwuCustkey
  /-- FWU_SESSION_END (R381): A session finishes verifying and committing the image and marks the slot PENDING, or fails. -/
  | fwuSessionEnd (qspiOk : Bool)
  /-- FWU_HEALTH_OK (R385): The confirmation write makes a PENDING running slot GOOD and ACTIVE. -/
  | fwuHealthOk (v : Word)
  /-- HEALTH_TIMER_EXPIRY (R386): The health timer of a PENDING boot expires; the slot becomes REJECTED and a WARM reset follows. -/
  | healthTimerExpiry
  /-- SEC_ATTEST (R394): ATTEST starts an attestation report over the nonce and measurements. -/
  | secAttest
  /-- ATTEST_DONE (R394): The signed report appears in SEC_REPORT and DONE is set. -/
  | attestDone
  /-- LU_RX (R402): A trunk link unit is received and accepted, discarded with NAK, or counted as a duplicate, and its lane contents are handled. -/
  | luRx (k : Fin 8) (lu : LinkUnit)
  /-- TRUNK_RTO_EXPIRY (R402): RTO passes without an advance; the link replays, retrains or goes DOWN. -/
  | trunkRtoExpiry (k : Fin 8) (trained : Bool)
  /-- TRK_RETRAIN (R402): RETRAIN in TRK_CTRL retrains a trunk link. -/
  | trkRetrain (k : Fin 8) (trained : Bool)
  /-- TRK_WAKE (R421): WAKE in TRK_CTRL sends a WAKE token, or drives the lanes out of idle for 20 µs. -/
  | trkWake (k : Fin 8)
  /-- REMOTE_PACKET_RX (R406): A remote Freight packet is delivered into the local mesh, forwarded on another link, or consumed with no route. -/
  | remotePacketRx (k : Fin 8)
  /-- TRK_RA_DATA_ACCESS (R408): An access to TRK_RA_DATA sends a remote RD or WR message and completes with its RSP status. -/
  | trkRaDataAccess (m : Master) (wr : Option Word)
  /-- RA_TIMEOUT (R408): No RSP arrives within 200 µs, and the remote access ends with Completer Abort. -/
  | raTimeout (m : Master)
  /-- S_MSG_RD (R408): A remote RD message is served at its destination device and answered with RSP. -/
  | sMsgRd (k : Fin 8)
  /-- S_MSG_WR (R408): A remote WR message is applied at its destination device and answered with RSP. -/
  | sMsgWr (k : Fin 8)
  /-- S_MSG_RSP (R408): A RSP message reaches the originating master and completes its remote access. -/
  | sMsgRsp (k : Fin 8)
  /-- S_MSG_RECORD (R411): A RECORD message is forwarded upward and sets the route to its device. -/
  | sMsgRecord (k : Fin 8)
  /-- TOKEN_IDENT (R409): An IDENT token fills TRK_PEER with the partner's identity. -/
  | tokenIdent (k : Fin 8)
  /-- TOKEN_TOPO (R411): A TOPO token sets the up link and depth and is sent onward, and the device sends its record upward. -/
  | tokenTopo (k : Fin 8)
  /-- TOKEN_SYSOK (R411): SYSOK passes down the tree and every device sets FORMED. -/
  | tokenSysok (k : Fin 8)
  /-- TOKEN_SYSFAIL (R411): SYSFAIL passes down the tree with the stage 9 failure code. -/
  | tokenSysfail (k : Fin 8)
  /-- TOKEN_LINKDOWN (R412): LINKDOWN reaches the manager, which runs the forming wave again. -/
  | tokenLinkdown (k : Fin 8)
  /-- TOKEN_RELEASE (R413): A member releases a step of a system world on RELEASE, or keeps it pending while held. -/
  | tokenRelease (k : Fin 8)
  /-- TOKEN_PROBE (R414): A member runs one reduction of the named bank and answers with REPORT. -/
  | tokenProbe (k : Fin 8)
  /-- TOKEN_REPORT (R414): The manager adds member reports, and two equal complete rounds confirm system quiescence. -/
  | tokenReport (k : Fin 8)
  /-- TOKEN_QUIET (R415): A member proceeds as on local quiescence and sends DONE at its barrier. -/
  | tokenQuiet (k : Fin 8)
  /-- TOKEN_DONE (R415): The manager completes the system barrier once DONE has arrived from every member. -/
  | tokenDone (k : Fin 8)
  /-- TOKEN_ABANDON (R416): A member makes the SKIP advance for the step. -/
  | tokenAbandon (k : Fin 8)
  /-- TOKEN_FAULT (R416): A member faults the system world with the given cause. -/
  | tokenFault (k : Fin 8)
  /-- TOKEN_MOD (R418): A member injects the modulator as a VC0 broadcast tagged with the step. -/
  | tokenMod (k : Fin 8)
  /-- TOKEN_WAKE (R421): A WAKE token records wake cause 4 at a sleeping partner. -/
  | tokenWake (k : Fin 8)
  /-- FORM_TIMEOUT (R411): 500 µs after TOPO, or once all records arrive, the manager applies the system checks. -/
  | formTimeout
  /-- TRK_REFORM (R412): REFORM makes the manager run the forming wave again. -/
  | trkReform
  /-- DIST_PLAN (R420): PLAN copies each worker's image, starts its LOAD and waits for its acknowledgement. -/
  | distPlan
  /-- DIST_FIRMWARE (R420): FIRMWARE sends the image to each worker's image window as chunks. -/
  | distFirmware
  /-- DIST_GO (R420): GO starts every selected LOADED worker, then the manager. -/
  | distGo
  /-- DIST_CANCEL (R420): CANCEL stops the distribution engine after the access in flight. -/
  | distCancel
  /-- DIST_WORKER_ACK (R420): A worker reports DONE, is marked acknowledged, and rounds are repeated or the command ends. -/
  | distWorkerAck (d : Fin 64) (ok : Bool)
  /-- SMB_READ32 (R434): READ32 returns a status and a register value of SYS, CLK, PWR or PIN. -/
  | smbRead32 (a : Addr) (more : Bool)
  /-- SMB_WRITE32 (R434): WRITE32 writes a register of SYS, CLK, PWR or PIN and records the outcome. -/
  | smbWrite32 (a : Addr) (v : Word) (pec : Pec)
  /-- SMB_WSTAT (R434): WSTAT returns the status of the last WRITE32. -/
  | smbWstat
  /-- SMB_WAKE (R434): WAKE raises wake cause 5. -/
  | smbWake
  /-- SMB_TELEMETRY (R434): TELEMETRY returns temperature, voltage, power state and boot stage. -/
  | smbTelemetry
  /-- SMB_NOTIFY (R434): NOTIFY stores a byte in PIN_BC_MSG and raises source 106. -/
  | smbNotify (b : Byte) (pec : Pec)
  /-- SMB_RESET (R434): RESET requests a COLD, WARM or COMPUTE reset. -/
  | smbReset (kind : BitVec 8) (pec : Pec)
  /-- SMB_ARA (R435): The device answers the Alert Response Address and releases SMB_ALERT_N. -/
  | smbAra
  /-- JTAG_REG_ACCESS (R436): Update-DR of REG_ACCESS starts one 32-bit register access. -/
  | jtagRegAccess (wr : Bool) (a : Addr) (v : Word)
  /-- JTAG_CAPTURE_DR (R436): Capture-DR loads the result and status of the last REG_ACCESS. -/
  | jtagCaptureDr
  /-- JTAG_IDCODE (R436): IDCODE captures SYS_ID. -/
  | jtagIdcode
  /-- JTAG_EXTEST (R436): EXTEST drives boundary-scan values on the VDDIO pins. -/
  | jtagExtest (pins : BitVec 64)
  /-- JTAG_SAMPLE_PRELOAD (R436): SAMPLE/PRELOAD samples or preloads the boundary-scan register. -/
  | jtagSamplePreload (pins : BitVec 64)
  /-- JTAG_BYPASS (R436): BYPASS selects the one-bit bypass register. -/
  | jtagBypass
  /-- TIMER_TICK (R316): An input event of a running timer channel adds to its prescaler accumulator, and each resulting tick advances COUNT by one. -/
  | timerTick (c : Fin 32)
  /-- MESSAGE_DISCARDED (R237): A host message that fails CRC, lies out of sequence or repeats a SEQ is discarded; for the first two a REPLAY_REQ is sent and the receiver discards until the expected SEQ arrives. -/
  | messageDiscarded (msg : HostMsg) (crcOk : Bool)
  /-- REPLAY_REQ_REPEAT (R237): While the receiver still awaits the expected SEQ, it repeats its LINK with REPLAY_REQ each time REPLAY_TIMEOUT passes. -/
  | replayReqRepeat
  /-- DISALLOWED_MESSAGE_TYPE (R234): A host message of a type not allowed toward the device, or of TYPE 0xF, is discarded, counted in XCH_TP_DISCARD and answered with NACK BAD_FIELD. -/
  | disallowedMessageType (msg : HostMsg)
  /-- NAK_REPEAT (R402): A trunk receiver that awaits its expected LU repeats NAK each time RTO passes. -/
  | nakRepeat (k : Fin 8)
  /-- GDDR6_ACCESS_COMPLETE (R203): A streamer finishes a GDDR6 write or read that a Freight WRITE or READ requested, and sends the ACK or READ_DATA. -/
  | gddr6AccessComplete (s : Fin 12) (e : DramEnd)
  /-- FORWARDED_CLOCK_LOSS (R333): The host stops the mainband forwarded clock while LINK runs from it, so the LINK island stops and the mainband is lost while the sideband continues. -/
  | forwardedClockLoss
  /-- SBCLK_START (R354): The host die first starts SBCLK after power-up, and stage 0 ANCHOR begins. -/
  | sbclkStart
  /-- POWER_REMOVED (R427): The rails are removed in the power-down order and all device state is lost until VDD_AON next rises. -/
  | powerRemoved
deriving DecidableEq, Repr

end Sys2Proof
end

