-- ==== Sys2Proof/Machine/Operands.lean ====
section
/-! DEFINITION. Operand forms: the fields of a word, the little-endian bytes of records and memories (R6), and the address
forms of the device map. -/

namespace Sys2Proof.Machine

/-- The field of `len` bits from bit `lo`, as a number. -/
def fld (w : Word) (lo len : Nat) : Nat := (w.toNat >>> lo) % 2 ^ len

/-- `w` with the field of `len` bits from bit `lo` replaced by `v`. -/
def setFld (w : Word) (lo len v : Nat) : Word :=
  (w &&& ~~~(BitVec.ofNat 32 ((2 ^ len - 1) <<< lo))) ||| BitVec.ofNat 32 ((v % 2 ^ len) <<< lo)

/-- Bit `i` of a word. -/
def bit (w : Word) (i : Nat) : Bool := w.getLsbD i

/-- `w` with bit `i` put to `b`. -/
def setBit (w : Word) (i : Nat) (b : Bool) : Word := setFld w i 1 (if b then 1 else 0)

/-- A number as a word, wrapping. -/
abbrev w32 (n : Nat) : Word := BitVec.ofNat 32 n

/-- A number as a word, limited to the largest word. -/
def satWord (n : Nat) : Word := w32 (min n 0xFFFFFFFF)

/-- The bits of a number that a list of them names. -/
def maskOf (l : List Nat) : Nat := l.foldl (fun m i => m ||| 2 ^ i) 0

/-- The positions of the ones below `n`, ascending. -/
def onesBelow (n m : Nat) : List Nat := (List.range n).filter (fun i => m.testBit i)

/-- The low half and the high half of a double word. -/
def loWord (x : BitVec 64) : Word := x.setWidth 32
def hiWord (x : BitVec 64) : Word := (x >>> 32).setWidth 32
/-- A double word from its high and low halves. -/
def word64 (hi lo : Word) : BitVec 64 := (hi.setWidth 64 <<< 32) ||| lo.setWidth 64

/-- The number that little-endian bytes spell (R6). -/
def leNat : List Byte → Nat
  | [] => 0
  | b :: bs => b.toNat + 256 * leNat bs

/-- A number as `n` little-endian bytes. -/
def leBytes : Nat → Nat → List Byte
  | 0, _ => []
  | n + 1, v => BitVec.ofNat 8 v :: leBytes n (v / 256)

/-- The bytes of a word and of a half-word. -/
def wordBytes (w : Word) : List Byte := leBytes 4 w.toNat

/-- `n` bytes of a record at an offset; bytes past its end read as zero. -/
def recBytes (r : List Byte) (off n : Nat) : List Byte :=
  ((r.drop off).take n) ++ List.replicate (n - ((r.drop off).take n).length) 0

/-- The little-endian number of `n` bytes of a record at an offset. -/
def recNat (r : List Byte) (off n : Nat) : Nat := leNat (recBytes r off n)

/-- A 32-bit word of a record. -/
def recWord (r : List Byte) (off : Nat) : Word := w32 (recNat r off 4)

/-- The words a list of bytes spells. -/
def wordsOf : List Byte → List Word
  | a :: b :: c :: d :: bs => w32 (leNat [a, b, c, d]) :: wordsOf bs
  | _ => []

/-- Words in fours. -/
def quads : List Word → List (List Word)
  | a :: b :: c :: d :: ws => [a, b, c, d] :: quads ws
  | _ => []

/-- Consecutive bytes of a byte memory. -/
def readBytes (d : Nat → Byte) (m : PMap Byte) (a : Nat) : Nat → List Byte
  | 0 => []
  | n + 1 => m.get d a :: readBytes d m (a + 1) n

/-- Write consecutive bytes into a byte memory. -/
def writeBytes (d : Nat → Byte) (m : PMap Byte) (a : Nat) : List Byte → PMap Byte
  | [] => m
  | b :: bs => writeBytes d (m.set d a b) (a + 1) bs

/-- What a byte that nothing has written reads as (R280, R285). -/
def zeroByte (_ : Nat) : Byte := 0

/-- A 32-bit word of a byte memory. -/
def readWord (m : PMap Byte) (a : Nat) : Word := w32 (leNat (readBytes zeroByte m a 4))

/-- Write a 32-bit word into a byte memory. -/
def writeWord (m : PMap Byte) (a : Nat) (v : Word) : PMap Byte := writeBytes zeroByte m a (wordBytes v)

/-- Write the bytes of a word that the byte enables select. -/
def writeEnabled (m : PMap Byte) (a : Nat) (be : BitVec 4) (v : Word) : PMap Byte :=
  (List.range 4).foldl
    (fun m i => if be.getLsbD i then m.set zeroByte (a + i) (BitVec.ofNat 8 (v.toNat >>> (8 * i))) else m) m

/-- Fill consecutive words with a pattern. -/
def fillWords (m : PMap Byte) (a : Nat) (v : Word) : Nat → PMap Byte
  | 0 => m
  | n + 1 => fillWords (writeWord m a v) (a + 4) v n

/-- The two's complement reading of the low `n` bits. -/
def sext (n v : Nat) : Int :=
  let x := v % 2 ^ n
  if x < 2 ^ (n - 1) then (x : Int) else (x : Int) - (2 ^ n : Nat)

end Sys2Proof.Machine
end

