-- ==== Sys2Proof/Machine/Float.lean ====
section
/-! DEFINITION. The sixteen number formats (R100, R101), conversion between them (R102, R103) and FP32 arithmetic with one
rounding (R63).  A value is held exactly, as a sign, a magnitude and a power of two; every rounding is one call. -/

namespace Sys2Proof.Machine

/-- An exact value: (−1)^neg × m × 2^e, an infinity, or a NaN. -/
inductive FVal where
  | fin (neg : Bool) (m : Nat) (e : Int)
  | inf (neg : Bool)
  | nan (neg : Bool)
deriving DecidableEq, Repr

/-- A floating-point format of Table 4-8: exponent and mantissa bits, bias, whether an all-ones exponent is reserved, whether
the code of largest magnitude is NaN (E4M3), and whether subnormals read as zero. -/
structure FpFmt where
  x : Nat
  y : Nat
  bias : Nat
  special : Bool
  topNan : Bool
  flush : Bool
deriving DecidableEq, Repr

def fp32 : FpFmt := ⟨8, 23, 127, true, false, true⟩
def bf16 : FpFmt := ⟨8, 7, 127, true, false, true⟩
def fp16 : FpFmt := ⟨5, 10, 15, true, false, false⟩

/-- A number format by its code (Tables 4-7 and 4-8). -/
inductive Fmt where
  | int (bits : Nat)
  | uint (bits : Nat)
  | fp (f : FpFmt)
deriving DecidableEq, Repr

def fmtOf : Nat → Fmt
  | 0 => .int 2 | 1 => .int 3 | 2 => .int 4 | 3 => .int 6 | 4 => .int 8
  | 5 => .uint 4 | 6 => .uint 8
  | 7 => .fp ⟨2, 1, 1, false, false, false⟩
  | 8 => .fp ⟨3, 2, 3, false, false, false⟩
  | 9 => .fp ⟨2, 3, 1, false, false, false⟩
  | 10 => .fp ⟨4, 3, 7, false, true, false⟩
  | 11 => .fp ⟨5, 2, 15, true, false, false⟩
  | 12 => .fp bf16
  | 13 => .fp fp16
  | 14 => .fp fp32
  | _ => .int 16

/-- The width of a format in bits. -/
def Fmt.bits : Fmt → Nat
  | .int n => n
  | .uint n => n
  | .fp f => 1 + f.x + f.y

namespace FVal

def isNan : FVal → Bool
  | nan _ => true
  | _ => false
def isZero : FVal → Bool
  | fin _ m _ => m == 0
  | _ => false
def neg : FVal → Bool
  | fin n _ _ => n
  | inf n => n
  | nan n => n
def ofInt (i : Int) : FVal := fin (i < 0) i.natAbs 0
def zero : FVal := fin false 0 0
def one : FVal := fin false 1 0

/-- `m × 2^e` brought to exponent `lo ≤ e`. -/
def scaled (m : Nat) (e lo : Int) : Int := (m * 2 ^ (e - lo).toNat : Nat)

def signed (n : Bool) (x : Int) : Int := if n then -x else x

/-- The exact sum; opposite infinities give a NaN, and a cancelled sum is +0. -/
def add : FVal → FVal → FVal
  | nan n, _ => nan n
  | _, nan n => nan n
  | inf a, inf b => if a = b then inf a else nan false
  | inf a, _ => inf a
  | _, inf b => inf b
  | fin a m e, fin b k f =>
    let lo := min e f
    let s := signed a (scaled m e lo) + signed b (scaled k f lo)
    if s = 0 then fin (a && b) 0 0 else fin (s < 0) s.natAbs lo

/-- The opposite value. -/
def opp : FVal → FVal
  | fin n m e => fin (!n) m e
  | inf n => inf (!n)
  | nan n => nan n

def sub (a b : FVal) : FVal := add a b.opp

/-- The exact product; zero times infinity is a NaN. -/
def mul : FVal → FVal → FVal
  | nan n, _ => nan n
  | _, nan n => nan n
  | inf a, fin b m _ => if m = 0 then nan false else inf (a != b)
  | fin a m _, inf b => if m = 0 then nan false else inf (a != b)
  | inf a, inf b => inf (a != b)
  | fin a m e, fin b k f => fin (a != b) (m * k) (e + f)

/-- The quotient, exact but for a last bit that records any remainder: enough for one rounding to any format of the
device. -/
def div : FVal → FVal → FVal
  | nan n, _ => nan n
  | _, nan n => nan n
  | inf a, inf b => nan (a != b)
  | inf a, fin b _ _ => inf (a != b)
  | fin a _ _, inf b => fin (a != b) 0 0
  | fin a m e, fin b k f =>
    if k = 0 then (if m = 0 then nan false else inf (a != b))
    else
      let t := m * 2 ^ (64 + k.log2)
      let q := t / k
      let r := t % k
      fin (a != b) (2 * q + (if r = 0 then 0 else 1)) (e - f - (64 + k.log2 : Nat) - 1)

/-- Ordered comparison a ≤ b; false when either is a NaN. -/
def le : FVal → FVal → Bool
  | nan _, _ => false
  | _, nan _ => false
  | inf a, inf b => a || !b
  | inf a, _ => a
  | _, inf b => !b
  | fin a m e, fin b k f =>
    let lo := min e f
    decide (signed a (scaled m e lo) ≤ signed b (scaled k f lo))

/-- Whether two values compare equal. -/
def eq (a b : FVal) : Bool := a.le b && b.le a

end FVal

/-- Round a magnitude `m × 2^e` to a multiple of 2^qe: to nearest, ties to even, or by the 16 random bits of R103. -/
def roundMag (m : Nat) (e qe : Int) (r : Option Nat) : Nat :=
  if qe ≤ e then m * 2 ^ (e - qe).toNat
  else
    let s := (qe - e).toNat
    let k := m / 2 ^ s
    let rem := m % 2 ^ s
    match r with
    | some r => if 65536 ≤ rem * 65536 / 2 ^ s + r then k + 1 else k
    | none =>
      if 2 * rem < 2 ^ s then k
      else if 2 ^ s < 2 * rem then k + 1
      else k + k % 2

/-- A conversion: the code, whether it saturated, and whether Table 4-10 counts a NaN. -/
structure Conv where
  code : Nat
  sat : Bool
  nan : Bool
deriving DecidableEq, Repr

namespace FpFmt

/-- The exponent of the grid spacing at `m × 2^e`. -/
def spacing (f : FpFmt) (m : Nat) (e : Int) : Int :=
  max (m.log2 + e) (1 - (f.bias : Int)) - (f.y : Int)

def maxE (f : FpFmt) : Nat := if f.special then 2 ^ f.x - 2 else 2 ^ f.x - 1
def maxM (f : FpFmt) : Nat := if f.topNan then 2 ^ f.y - 2 else 2 ^ f.y - 1
/-- The code of the largest finite magnitude. -/
def maxCode (f : FpFmt) : Nat := f.maxE * 2 ^ f.y + f.maxM
def signBit (f : FpFmt) (n : Bool) : Nat := if n then 2 ^ (f.x + f.y) else 0

/-- The code of a NaN of a sign (Table 4-10), +0 where the format has none. -/
def nanCode (f : FpFmt) (n : Bool) : Nat :=
  if f.special then f.signBit n + (2 ^ f.x - 1) * 2 ^ f.y + 2 ^ (f.y - 1)
  else if f.topNan then f.signBit n + 2 ^ (f.x + f.y) - 1
  else 0

/-- Decode a code exactly (R101). -/
def decode (f : FpFmt) (c : Nat) : FVal :=
  let n := c.testBit (f.x + f.y)
  let ex := c / 2 ^ f.y % 2 ^ f.x
  let m := c % 2 ^ f.y
  if f.special && ex == 2 ^ f.x - 1 then (if m = 0 then .inf n else .nan n)
  else if f.topNan && ex == 2 ^ f.x - 1 && m == 2 ^ f.y - 1 then .nan n
  else if ex = 0 then
    (if f.flush then .fin n 0 0 else .fin n m (1 - (f.bias : Int) - f.y))
  else .fin n (2 ^ f.y + m) ((ex : Int) - f.bias - f.y)

/-- The code of a rounded magnitude `k × 2^qe` on the format's grid, with whether it lies beyond the largest finite. -/
def encodeMag (f : FpFmt) (k : Nat) (qe : Int) : Nat × Bool :=
  let (k, qe) := if k = 2 ^ (f.y + 1) then (2 ^ f.y, qe + 1) else (k, qe)
  if k < 2 ^ f.y then (if f.flush then (0, false) else (k, false))
  else
    let ex := (qe + f.y + f.bias).toNat
    let code := ex * 2 ^ f.y + (k - 2 ^ f.y)
    (code, decide (f.maxCode < code))

/-- Conversion to a floating-point format (R102, R103, Table 4-10). -/
def conv (f : FpFmt) (v : FVal) (r : Option Nat) : Conv :=
  match v with
  | .nan n => ⟨f.nanCode n, false, !(f.special || f.topNan)⟩
  | .inf n => ⟨f.signBit n + f.maxCode, true, false⟩
  | .fin n m e =>
    if m = 0 then ⟨f.signBit n, false, false⟩
    else
      let qe := f.spacing m e
      let (c, ovf) := f.encodeMag (roundMag m e qe r) qe
      if ovf then ⟨f.signBit n + f.maxCode, true, false⟩ else ⟨f.signBit n + c, false, false⟩

/-- Round a value to the format and keep it as a value, with infinity beyond the largest finite. -/
def round (f : FpFmt) (v : FVal) : FVal :=
  match v with
  | .fin n m e =>
    if m = 0 then v
    else
      let qe := f.spacing m e
      let (c, ovf) := f.encodeMag (roundMag m e qe none) qe
      if ovf then .inf n else f.decode (f.signBit n + c)
  | v => v

end FpFmt

/-- Conversion to an integer range, stochastic or to nearest (Table 4-10). -/
def convInt (lo hi : Int) (v : FVal) (r : Option Nat) : Int × Bool × Bool :=
  match v with
  | .nan _ => (0, false, true)
  | .inf n => (if n then lo else hi, true, false)
  | .fin n m e =>
    let k := FVal.signed n (roundMag m e 0 r)
    if k < lo then (lo, true, false) else if hi < k then (hi, true, false) else (k, false, false)

def Fmt.lo : Fmt → Int
  | .int n => -(2 ^ (n - 1) : Nat)
  | _ => 0
def Fmt.hi : Fmt → Int
  | .int n => (2 ^ (n - 1) : Nat) - 1
  | .uint n => (2 ^ n : Nat) - 1
  | .fp _ => 0

/-- Whether a format is one of Table 4-7. -/
def Fmt.isInt : Fmt → Bool
  | .fp _ => false
  | _ => true

/-- The exact value of a code (R100, R101); bits above the format's width are ignored. -/
def Fmt.value (f : Fmt) (c : Nat) : FVal :=
  match f with
  | .int n => .ofInt (sext n c)
  | .uint n => .fin false (c % 2 ^ n) 0
  | .fp g => g.decode (c % 2 ^ (1 + g.x + g.y))

/-- Conversion of a value to a format (R102, R103). -/
def Fmt.conv (f : Fmt) (v : FVal) (r : Option Nat) : Conv :=
  match f with
  | .fp g => g.conv v r
  | f =>
    let (k, s, n) := convInt f.lo f.hi v r
    ⟨(k % (2 ^ f.bits : Nat)).toNat, s, n⟩

/-- FP32 bits as a value, and a value as FP32 bits (saturating, with the flag of Table 4-10). -/
def f32 (w : Word) : FVal := fp32.decode w.toNat
def toF32 (v : FVal) : Word := w32 (fp32.conv v none).code
/-- BF16 bits as a value. -/
def fb16 (c : Nat) : FVal := bf16.decode (c % 65536)

/-- Sum, difference, product and quotient in FP32 (R63), an overflow giving an infinity. -/
def fadd (a b : FVal) : FVal := fp32.round (a.add b)
def fsub (a b : FVal) : FVal := fp32.round (a.sub b)
def fmul (a b : FVal) : FVal := fp32.round (a.mul b)
def fdiv (a b : FVal) : FVal := fp32.round (a.div b)

/-- The largest finite FP32 value of a sign. -/
def fmax (n : Bool) : FVal := fp32.decode (fp32.signBit n + fp32.maxCode)

/-- An infinity becomes the largest finite value of its sign, and counts one saturation. -/
def satF (v : FVal) : FVal × Nat :=
  match v with
  | .inf n => (fmax n, 1)
  | v => (v, 0)

/-- A generator's next state (R65, R119, R217): three shift-and-XOR steps. -/
def xorshift (x : Word) : Word :=
  let x := x ^^^ (x <<< 13)
  let x := x ^^^ (x >>> 17)
  x ^^^ (x <<< 5)

end Sys2Proof.Machine
end

