-- ==== Sys2Proof/Machine/Crc.lean ====
section
/-! DEFINITION. The checks and digests the spec names: CRC-32C (R33), the 8-bit and 16-bit CRCs of event copies and packet
headers (R152, R205) and SHA3-256 (R46, R373). -/

namespace Sys2Proof.Machine

/-- One bit of a reflected CRC-32C: polynomial 0x1EDC_6F41 reflected. -/
def crc32cBit (c : BitVec 32) : BitVec 32 :=
  if c.getLsbD 0 then (c >>> 1) ^^^ 0x82F63B78#32 else c >>> 1

/-- One byte of CRC-32C. -/
def crc32cByte (c : BitVec 32) (b : Byte) : BitVec 32 :=
  (List.range 8).foldl (fun c _ => crc32cBit c) (c ^^^ b.setWidth 32)

/-- CRC-32C of R33: initial value and final XOR 0xFFFF_FFFF. -/
def crc32c (bs : List Byte) : Word := ~~~(bs.foldl crc32cByte 0xFFFFFFFF#32)

/-- A CRC of `n` bits over a list of bits, first bit first, with no reflection. -/
def crcBits (n : Nat) (poly init : BitVec n) (bits : List Bool) : BitVec n :=
  bits.foldl (fun c b => if c.getMsbD 0 != b then (c <<< 1) ^^^ poly else c <<< 1) init

/-- The bits of a number of `n` bits, most significant first. -/
def msbBits (n v : Nat) : List Bool := (List.range n).map (fun i => v.testBit (n - 1 - i))

/-! SHA3-256 works on five planes of 320 bits, plane y holding the lanes (x, y) side by side, so that the steps that treat
every lane of a plane alike are one operation on the plane. -/

/-- A plane of the Keccak state. -/
abbrev Plane := BitVec 320

/-- The lowest bit of every lane of a plane. -/
def laneLsb : Plane := (List.range 5).foldl (fun m x => m ||| (1#320 <<< (64 * x))) 0

/-- Every lane of a plane rotated left by one. -/
def turnLanes (p : Plane) : Plane := ((p <<< 1) &&& ~~~laneLsb) ||| ((p >>> 63) &&& laneLsb)

/-- θ: every lane takes the parities of two neighbouring columns. -/
def keccakTheta (a : List Plane) : List Plane :=
  let par := a.foldl (· ^^^ ·) 0
  let d := par.rotateLeft 64 ^^^ turnLanes (par.rotateRight 64)
  a.map (· ^^^ d)

/-- The walk of ρ and π from a lane: the lane visited at step `t` turns by the sum of the numbers up to `t` and moves to the
lane visited next. -/
def keccakWalk : Nat → Nat → Nat → Nat → List (Nat × Nat × Nat)
  | 0, _, _, _ => []
  | n + 1, t, x, y => (x, y, t * (t + 1) / 2 % 64) :: keccakWalk n (t + 1) y ((2 * x + 3 * y) % 5)

/-- ρ and π: every lane turned and put at its new place. -/
def keccakRhoPi (a : List Plane) : List Plane :=
  ((0, 0, 0) :: keccakWalk 24 1 1 0).foldl
    (fun out q =>
      let v := ((a.getD q.2.1 0).extractLsb' (64 * q.1) 64).rotateLeft q.2.2
      out.modify ((2 * q.1 + 3 * q.2.1) % 5) (· ||| (v.setWidth 320 <<< (64 * q.2.1))))
    (List.replicate 5 0)

/-- χ on one plane. -/
def keccakChi (p : Plane) : Plane := p ^^^ (~~~(p.rotateRight 64) &&& p.rotateRight 128)

/-- One step of the register that gives the bits of ι: x^8 + x^6 + x^5 + x^4 + 1. -/
def iotaStep (r : BitVec 8) : BitVec 8 := (r <<< 1) ^^^ (if r.getLsbD 7 then 0x71#8 else 0)

/-- The constant of a round and the register after it: bit 2^j - 1 is the j-th of seven bits drawn. -/
def iotaDraw (r : BitVec 8) : Plane × BitVec 8 :=
  (List.range 7).foldl
    (fun q j => (if q.2.getLsbD 0 then q.1 ||| (1#320 <<< (2 ^ j - 1)) else q.1, iotaStep q.2)) (0, r)

/-- `n` rounds of Keccak from a state of the register of ι. -/
def keccakRounds : Nat → BitVec 8 → List Plane → List Plane
  | 0, _, a => a
  | n + 1, r, a =>
    let k := iotaDraw r
    let b := (keccakRhoPi (keccakTheta a)).map keccakChi
    keccakRounds n k.2 (b.modify 0 (· ^^^ k.1))

/-- Absorb one block of 136 bytes: 40 bytes a plane, 16 in the last. -/
def sha3Absorb (a : List Plane) (blk : List Byte) : List Plane :=
  keccakRounds 24 1 (a.mapIdx fun y p => p ^^^ BitVec.ofNat 320 (recNat blk (40 * y) (min 40 (136 - 40 * y))))

/-- Absorb every block of a padded message; `n` bounds the number of blocks. -/
def sha3Blocks : Nat → List Plane → List Byte → List Plane
  | 0, a, _ => a
  | n + 1, a, bs => if bs.isEmpty then a else sha3Blocks n (sha3Absorb a (bs.take 136)) (bs.drop 136)

/-- SHA3-256, as 32 bytes. -/
def sha3 (bs : List Byte) : List Byte :=
  let k := 135 - bs.length % 136
  let tail : List Byte := if k = 0 then [0x86] else 0x06 :: (List.replicate (k - 1) 0 ++ [0x80])
  let p := bs ++ tail
  leBytes 32 ((sha3Blocks (p.length / 136) (List.replicate 5 0) p).headD 0).toNat

end Sys2Proof.Machine
end

