-- ==== Sys2Proof/Machine/Flags.lean ====
section
/-! DEFINITION. Counters and flags: a counter that would pass its largest value stays there and sets the flag that its
chapter names (R32); W1C, W1S and RC fields (R7) and the rule that an event outlasts a clear (R8). -/

namespace Sys2Proof.Machine

/-- A counter of `n` bits after `k` more counts. -/
def satAdd (n c k : Nat) : Nat := min (c + k) (2 ^ n - 1)

/-- Whether counting `k` more passes the largest value of `n` bits. -/
def satHits (n c k : Nat) : Bool := decide (2 ^ n - 1 < c + k)

/-- What a write of `v` leaves of `old`, by the access codes of the register's bits (R7, R9). -/
def accWrite (rw w1c w1s : Nat) (old v : Word) : Word :=
  ((old &&& ~~~(w32 rw)) ||| (v &&& w32 rw)) &&& ~~~(v &&& w32 w1c) ||| (v &&& w32 w1s)

/-- What a read leaves of a register with RC bits (R7). -/
def accRead (rc : Nat) (old : Word) : Word := old &&& ~~~(w32 rc)

end Sys2Proof.Machine
end

