-- ==== Sys2Proof/Config.lean ====
section
/-! DEFINITION. What the spec leaves open, as constants without a body: nothing in the model or in a proof can see their
values.  A free value that may differ each time is drawn at `Dev.freeCtr`, a counter of State that the drawing advances
(log entry 2). -/

namespace Sys2Proof.Config

/-- A word of contents the spec calls undefined: draw number, then place (R50, R285, R289, R363, R367). -/
opaque freeWord : Nat → Nat → Word
/-- A byte of contents the spec calls undefined. -/
opaque freeByte : Nat → Nat → Byte
/-- One open choice of two. -/
opaque freeBit : Nat → Nat → Bool
/-- An arithmetic result the spec does not state. -/
opaque freeResult : Nat → Word

/-- Whether the QSPI device, or the SD card, has done with its present piece of work at a moment (R381, R383). -/
opaque storeReady : Nat → Bool

/-- ML-DSA key generation of the device from its fuse seed: the bytes of the public key (R392). -/
opaque devicePublicKey : BitVec 256 → List Byte
/-- ML-DSA signature by the device key of a message: seed, message, the bytes of the signature (R394). -/
opaque deviceSign : BitVec 256 → List Byte → List Byte
/-- Whether a signature of a message verifies under a public key (R375, R376). -/
opaque verify : List Byte → List Byte → List Byte → Bool

/-- The boot ROM of SB0 (R271, R393). -/
opaque bootRom : List Byte

end Sys2Proof.Config
end

