-- ==== Sys2Proof/Machine/RegMap.lean ====
section
/-! DEFINITION. The register map: the address of every register the spec names, its reset value and, bit by bit, which
access codes of R7 it has.  Each row follows the register table of the chapter named beside the block.  Where a register
is fused, computed or acts on being accessed, the access paths (Machine/Access.lean) say so; the row then holds what is
stored.  Station registers and tables stand at their offset in the station window (R18). -/

namespace Sys2Proof.Machine

/-- One line of a register table: `count` registers from `base`, `stride` bytes apart.  `rw`, `w1c`, `w1s`, `rc` are the
bits that have the access code RW or RWL, W1C, W1S, RC (R7); every other bit is RO, WO or reserved (R9). -/
structure RegRow where
  base : Nat
  count : Nat
  stride : Nat
  reset : Nat
  rw : Nat
  w1c : Nat
  w1s : Nat
  rc : Nat
deriving DecidableEq, Repr

namespace R

/-- TPL_CTRL (R44). -/
abbrev TPL_CTRL : Nat := 0x1000E0000

/-- TPL_STATUS (R44). -/
abbrev TPL_STATUS : Nat := 0x1000E0004

/-- TPL_SRC_LO (R44). -/
abbrev TPL_SRC_LO : Nat := 0x1000E0008

/-- TPL_SRC_HI (R44). -/
abbrev TPL_SRC_HI : Nat := 0x1000E000C

/-- TPL_DRAIN_LIMIT (R44). -/
abbrev TPL_DRAIN_LIMIT : Nat := 0x1000E0010

/-- TPL_PLAN_ID (R44). -/
abbrev TPL_PLAN_ID : Nat := 0x1000E0014

/-- TPL_FAIL_COUNT (R44). -/
abbrev TPL_FAIL_COUNT : Nat := 0x1000E0018

/-- TPL_COLLIDE_CNT (R44). -/
abbrev TPL_COLLIDE_CNT : Nat := 0x1000E001C

/-- TPL_ACK_MAP (R44). -/
abbrev TPL_ACK_MAP : Nat := 0x1000E0100

/-- TPL_FAIL_MAP (R44). -/
abbrev TPL_FAIL_MAP : Nat := 0x1000E0300

/-- TPL_HOLD_SEL (R44). -/
abbrev TPL_HOLD_SEL : Nat := 0x1000E0500

/-- TPL_DIGEST (R44). -/
abbrev TPL_DIGEST : Nat := 0x1000E0800

/-- STN_FIRE_CLIPPED (R80). -/
abbrev STN_FIRE_CLIPPED : Nat := 0x70100

/-- STN_REF_HELD (R80). -/
abbrev STN_REF_HELD : Nat := 0x70140

/-- STN_DELAY_CLAMP (R80). -/
abbrev STN_DELAY_CLAMP : Nat := 0x70180

/-- STN_NAN_DROP (R80). -/
abbrev STN_NAN_DROP : Nat := 0x701C0

/-- STN_SAT (R80). -/
abbrev STN_SAT : Nat := 0x70200

/-- STN_SWEEP_LATE (R80). -/
abbrev STN_SWEEP_LATE : Nat := 0x70240

/-- STN_SWEEP_EPOCH (R80). -/
abbrev STN_SWEEP_EPOCH : Nat := 0x70280

/-- STN_NE_UPDATES (R80). -/
abbrev STN_NE_UPDATES : Nat := 0x702C0

/-- STN_NE_OVF (R80). -/
abbrev STN_NE_OVF : Nat := 0x70300

/-- STN_RING_RNG (R80). -/
abbrev STN_RING_RNG : Nat := 0x70340

/-- STN_NE_STATE (R80). -/
abbrev STN_NE_STATE : Nat := 0x70344

/-- STN_IDLE_DROP (R80). -/
abbrev STN_IDLE_DROP : Nat := 0x70348

/-- STN_SYN_ROWS (R105). -/
abbrev STN_SYN_ROWS : Nat := 0x70400

/-- STN_SYN_OPS_LO (R105). -/
abbrev STN_SYN_OPS_LO : Nat := 0x70440

/-- STN_SYN_OPS_HI (R105). -/
abbrev STN_SYN_OPS_HI : Nat := 0x70480

/-- STN_ROW_MISS (R105). -/
abbrev STN_ROW_MISS : Nat := 0x704C0

/-- STN_ROW_BAD (R105). -/
abbrev STN_ROW_BAD : Nat := 0x704C4

/-- STN_ROW_RANGE (R105). -/
abbrev STN_ROW_RANGE : Nat := 0x704C8

/-- STN_ROW_WORLD (R105). -/
abbrev STN_ROW_WORLD : Nat := 0x704CC

/-- STN_SYN_OVF (R105). -/
abbrev STN_SYN_OVF : Nat := 0x704D0

/-- STN_ARB_STATE (R105). -/
abbrev STN_ARB_STATE : Nat := 0x704D4

/-- STN_STORE_CFG (R105). -/
abbrev STN_STORE_CFG : Nat := 0x704D8

/-- STN_MOD_CFG (R112). -/
abbrev STN_MOD_CFG : Nat := 0x6C000

/-- STN_MOD_VALUE (R112). -/
abbrev STN_MOD_VALUE : Nat := 0x6C004

/-- STN_MOD_T (R112). -/
abbrev STN_MOD_T : Nat := 0x6C008

/-- STN_MOD_PEND (R112). -/
abbrev STN_MOD_PEND : Nat := 0x6C00C

/-- STN_LRN_UPDATES (R127). -/
abbrev STN_LRN_UPDATES : Nat := 0x70500

/-- STN_LRN_SKIP (R127). -/
abbrev STN_LRN_SKIP : Nat := 0x70540

/-- STN_LRN_SAT (R127). -/
abbrev STN_LRN_SAT : Nat := 0x70580

/-- STN_LRN_STALE (R127). -/
abbrev STN_LRN_STALE : Nat := 0x705C0

/-- STN_MOD_DROP (R127). -/
abbrev STN_MOD_DROP : Nat := 0x70600

/-- STN_LRN_OVF (R127). -/
abbrev STN_LRN_OVF : Nat := 0x70604

/-- STN_LRN_RNG (R127). -/
abbrev STN_LRN_RNG : Nat := 0x70608

/-- XCH_WLD_SEL (R149). -/
abbrev XCH_WLD_SEL : Nat := 0x100094000

/-- XCH_WLD_CFG (R149). -/
abbrev XCH_WLD_CFG : Nat := 0x100094004

/-- XCH_WLD_STATE (R149). -/
abbrev XCH_WLD_STATE : Nat := 0x100094008

/-- XCH_WLD_STEP (R149). -/
abbrev XCH_WLD_STEP : Nat := 0x10009400C

/-- XCH_WLD_OVERRUN (R149). -/
abbrev XCH_WLD_OVERRUN : Nat := 0x100094010

/-- XCH_WLD_MISSED (R149). -/
abbrev XCH_WLD_MISSED : Nat := 0x100094014

/-- XCH_WLD_SKIPS (R149). -/
abbrev XCH_WLD_SKIPS : Nat := 0x100094018

/-- XCH_WLD_LAG (R149). -/
abbrev XCH_WLD_LAG : Nat := 0x10009401C

/-- XCH_WLD_NACKS (R149). -/
abbrev XCH_WLD_NACKS : Nat := 0x100094020

/-- XCH_WLD_QUEUE (R149). -/
abbrev XCH_WLD_QUEUE : Nat := 0x100094024

/-- XCH_WLD_LAT_LAST (R149). -/
abbrev XCH_WLD_LAT_LAST : Nat := 0x100094028

/-- XCH_WLD_LAT_MAX (R149). -/
abbrev XCH_WLD_LAT_MAX : Nat := 0x10009402C

/-- XCH_WLD_FAULT_MAP (R149). -/
abbrev XCH_WLD_FAULT_MAP : Nat := 0x100094100

/-- XCH_WLD_OVR_MAP (R149). -/
abbrev XCH_WLD_OVR_MAP : Nat := 0x100094300

/-- STN_CR_CREATED (R150). -/
abbrev STN_CR_CREATED : Nat := 0x70700

/-- STN_CR_CONSUMED (R150). -/
abbrev STN_CR_CONSUMED : Nat := 0x70780

/-- STN_LATE_DROP (R150). -/
abbrev STN_LATE_DROP : Nat := 0x70800

/-- STN_SKIP_SPK (R150). -/
abbrev STN_SKIP_SPK : Nat := 0x70840

/-- STN_WORLD_STEP (R150). -/
abbrev STN_WORLD_STEP : Nat := 0x70880

/-- STN_STEP_OVF (R150). -/
abbrev STN_STEP_OVF : Nat := 0x708C0

/-- STN_XP_CHK_FAIL (R170). -/
abbrev STN_XP_CHK_FAIL : Nat := 0x70900

/-- STN_XP_UNROUTED (R170). -/
abbrev STN_XP_UNROUTED : Nat := 0x70904

/-- STN_XP_DEF (R170). -/
abbrev STN_XP_DEF : Nat := 0x70908

/-- STN_XP_FALLBACK (R170). -/
abbrev STN_XP_FALLBACK : Nat := 0x7090C

/-- STN_XP_OUT (R170). -/
abbrev STN_XP_OUT : Nat := 0x70910

/-- STN_XP_BUF (R170). -/
abbrev STN_XP_BUF : Nat := 0x70924

/-- STN_XP_EMIT (R170). -/
abbrev STN_XP_EMIT : Nat := 0x70928

/-- STN_XP_OVF (R170). -/
abbrev STN_XP_OVF : Nat := 0x7092C

/-- STN_SEC_KEY_BASE (R170). -/
abbrev STN_SEC_KEY_BASE : Nat := 0x70930

/-- STN_SEC_KEY_MASK (R170). -/
abbrev STN_SEC_KEY_MASK : Nat := 0x70934

/-- STN_SEC_DEF (R170). -/
abbrev STN_SEC_DEF : Nat := 0x70938

/-- XCH_EDGE_SEL (R171). -/
abbrev XCH_EDGE_SEL : Nat := 0x100095000

/-- XCH_EDGE_FLITS (R171). -/
abbrev XCH_EDGE_FLITS : Nat := 0x100095004

/-- XCH_EDGE_FULL (R171). -/
abbrev XCH_EDGE_FULL : Nat := 0x100095008

/-- XCH_EDGE_OCC (R171). -/
abbrev XCH_EDGE_OCC : Nat := 0x10009500C

/-- XCH_EDGE_MISS (R171). -/
abbrev XCH_EDGE_MISS : Nat := 0x100095010

/-- XCH_EDGE_CHK_FAIL (R171). -/
abbrev XCH_EDGE_CHK_FAIL : Nat := 0x100095014

/-- XCH_EDGE_UNROUTED (R171). -/
abbrev XCH_EDGE_UNROUTED : Nat := 0x100095018

/-- XCH_EDGE_DEF (R171). -/
abbrev XCH_EDGE_DEF : Nat := 0x10009501C

/-- XCH_EDGE_OVF (R171). -/
abbrev XCH_EDGE_OVF : Nat := 0x100095020

/-- XCH_EDGE_IDX (R171). -/
abbrev XCH_EDGE_IDX : Nat := 0x100095030

/-- XCH_EDGE_DATA (R171). -/
abbrev XCH_EDGE_DATA : Nat := 0x100095034

/-- STM_ENABLED (R192). -/
abbrev STM_ENABLED : Nat := 0x1000B0000

/-- STM_CONSIST_BASE (R192). -/
abbrev STM_CONSIST_BASE : Nat := 0x1000B1000

/-- STM_CFG (R192). -/
abbrev STM_CFG : Nat := 0x1000B1004

/-- STM_STATUS (R192). -/
abbrev STM_STATUS : Nat := 0x1000B1008

/-- STM_PG_FETCHED (R192). -/
abbrev STM_PG_FETCHED : Nat := 0x1000B100C

/-- STM_PG_GATED (R192). -/
abbrev STM_PG_GATED : Nat := 0x1000B1010

/-- STM_PG_MERGED (R192). -/
abbrev STM_PG_MERGED : Nat := 0x1000B1014

/-- STM_DLV_SENT (R192). -/
abbrev STM_DLV_SENT : Nat := 0x1000B1018

/-- STM_DLV_FAIL (R192). -/
abbrev STM_DLV_FAIL : Nat := 0x1000B101C

/-- STM_PG_RDERR (R192). -/
abbrev STM_PG_RDERR : Nat := 0x1000B1020

/-- STM_PG_DENIED (R192). -/
abbrev STM_PG_DENIED : Nat := 0x1000B1024

/-- STM_PG_ABANDONED (R192). -/
abbrev STM_PG_ABANDONED : Nat := 0x1000B1028

/-- STM_PG_FOREIGN (R192). -/
abbrev STM_PG_FOREIGN : Nat := 0x1000B102C

/-- STM_SUM_MISSING (R192). -/
abbrev STM_SUM_MISSING : Nat := 0x1000B1030

/-- STM_ACT_OVF (R192). -/
abbrev STM_ACT_OVF : Nat := 0x1000B1034

/-- STM_OVF (R192). -/
abbrev STM_OVF : Nat := 0x1000B1038

/-- STM_WALK_MAX (R192). -/
abbrev STM_WALK_MAX : Nat := 0x1000B103C

/-- STN_STR_COLL (R193). -/
abbrev STN_STR_COLL : Nat := 0x70A00

/-- STN_STR_DEST (R193). -/
abbrev STN_STR_DEST : Nat := 0x70A40

/-- STN_STR_PAGES (R193). -/
abbrev STN_STR_PAGES : Nat := 0x70A80

/-- STN_STR_BAD (R193). -/
abbrev STN_STR_BAD : Nat := 0x70A84

/-- STN_STR_LATE (R193). -/
abbrev STN_STR_LATE : Nat := 0x70A88

/-- STN_STR_NOBUF (R193). -/
abbrev STN_STR_NOBUF : Nat := 0x70A8C

/-- STN_STR_UNREC (R193). -/
abbrev STN_STR_UNREC : Nat := 0x70A90

/-- STN_STR_OVF (R193). -/
abbrev STN_STR_OVF : Nat := 0x70A94

/-- STN_STR_SPK (R193). -/
abbrev STN_STR_SPK : Nat := 0x70B00

/-- STN_FRT_RX (R210). -/
abbrev STN_FRT_RX : Nat := 0x70D00

/-- STN_FRT_CRC_FAIL (R210). -/
abbrev STN_FRT_CRC_FAIL : Nat := 0x70D04

/-- STN_FRT_HDR_FAIL (R210). -/
abbrev STN_FRT_HDR_FAIL : Nat := 0x70D08

/-- STN_FRT_NACK (R210). -/
abbrev STN_FRT_NACK : Nat := 0x70D0C

/-- STN_FRT_MISROUTE (R210). -/
abbrev STN_FRT_MISROUTE : Nat := 0x70D10

/-- STN_FRT_VIDX (R210). -/
abbrev STN_FRT_VIDX : Nat := 0x70D14

/-- STN_FRT_OVF (R210). -/
abbrev STN_FRT_OVF : Nat := 0x70D18

/-- XCH_FRT_CFG (R211). -/
abbrev XCH_FRT_CFG : Nat := 0x100096000

/-- XCH_FRT_POOL (R211). -/
abbrev XCH_FRT_POOL : Nat := 0x100096004

/-- XCH_FRT_OUT (R211). -/
abbrev XCH_FRT_OUT : Nat := 0x100096008

/-- XCH_FRT_RESEND (R211). -/
abbrev XCH_FRT_RESEND : Nat := 0x10009600C

/-- XCH_FRT_FATAL (R211). -/
abbrev XCH_FRT_FATAL : Nat := 0x100096010

/-- XCH_FRT_STALE (R211). -/
abbrev XCH_FRT_STALE : Nat := 0x100096014

/-- STM_FRT_CFG (R211). -/
abbrev STM_FRT_CFG : Nat := 0x1000B1040

/-- STM_FRT_RESEND (R211). -/
abbrev STM_FRT_RESEND : Nat := 0x1000B1044

/-- STM_FRT_FATAL (R211). -/
abbrev STM_FRT_FATAL : Nat := 0x1000B1048

/-- STM_FRT_STALE (R211). -/
abbrev STM_FRT_STALE : Nat := 0x1000B104C

/-- QNT_CTRL (R229). -/
abbrev QNT_CTRL : Nat := 0x1000A0000

/-- QNT_STATUS (R229). -/
abbrev QNT_STATUS : Nat := 0x1000A0004

/-- QNT_SRC_LO (R229). -/
abbrev QNT_SRC_LO : Nat := 0x1000A0008

/-- QNT_SRC_HI (R229). -/
abbrev QNT_SRC_HI : Nat := 0x1000A000C

/-- QNT_SHAPE (R229). -/
abbrev QNT_SHAPE : Nat := 0x1000A0010

/-- QNT_STRIDE (R229). -/
abbrev QNT_STRIDE : Nat := 0x1000A0014

/-- QNT_FMT (R229). -/
abbrev QNT_FMT : Nat := 0x1000A0018

/-- QNT_DST_LO (R229). -/
abbrev QNT_DST_LO : Nat := 0x1000A001C

/-- QNT_DST_HI (R229). -/
abbrev QNT_DST_HI : Nat := 0x1000A0020

/-- QNT_GRP_LO (R229). -/
abbrev QNT_GRP_LO : Nat := 0x1000A0024

/-- QNT_GRP_HI (R229). -/
abbrev QNT_GRP_HI : Nat := 0x1000A0028

/-- QNT_SUM_LO (R229). -/
abbrev QNT_SUM_LO : Nat := 0x1000A002C

/-- QNT_SUM_HI (R229). -/
abbrev QNT_SUM_HI : Nat := 0x1000A0030

/-- QNT_PAGE0 (R229). -/
abbrev QNT_PAGE0 : Nat := 0x1000A0034

/-- QNT_PSTRIDE (R229). -/
abbrev QNT_PSTRIDE : Nat := 0x1000A0038

/-- QNT_PAGE_CFG (R229). -/
abbrev QNT_PAGE_CFG : Nat := 0x1000A003C

/-- QNT_TAG (R229). -/
abbrev QNT_TAG : Nat := 0x1000A0040

/-- QNT_RNG (R229). -/
abbrev QNT_RNG : Nat := 0x1000A0044

/-- QNT_PROGRESS (R229). -/
abbrev QNT_PROGRESS : Nat := 0x1000A0048

/-- QNT_SAT (R229). -/
abbrev QNT_SAT : Nat := 0x1000A004C

/-- QNT_NAN (R229). -/
abbrev QNT_NAN : Nat := 0x1000A0050

/-- QNT_PRJ_CTRL (R229). -/
abbrev QNT_PRJ_CTRL : Nat := 0x1000A1000

/-- QNT_PRJ_STATUS (R229). -/
abbrev QNT_PRJ_STATUS : Nat := 0x1000A1004

/-- QNT_PRJ_WSRC_LO (R229). -/
abbrev QNT_PRJ_WSRC_LO : Nat := 0x1000A1008

/-- QNT_PRJ_WSRC_HI (R229). -/
abbrev QNT_PRJ_WSRC_HI : Nat := 0x1000A100C

/-- QNT_PRJ_PSRC_LO (R229). -/
abbrev QNT_PRJ_PSRC_LO : Nat := 0x1000A1010

/-- QNT_PRJ_PSRC_HI (R229). -/
abbrev QNT_PRJ_PSRC_HI : Nat := 0x1000A1014

/-- QNT_PRJ_SSRC_LO (R229). -/
abbrev QNT_PRJ_SSRC_LO : Nat := 0x1000A1018

/-- QNT_PRJ_SSRC_HI (R229). -/
abbrev QNT_PRJ_SSRC_HI : Nat := 0x1000A101C

/-- QNT_PRJ_SHAPE (R229). -/
abbrev QNT_PRJ_SHAPE : Nat := 0x1000A1020

/-- QNT_PRJ_FMT (R229). -/
abbrev QNT_PRJ_FMT : Nat := 0x1000A1024

/-- QNT_PRJ_GAIN (R229). -/
abbrev QNT_PRJ_GAIN : Nat := 0x1000A1028

/-- QNT_PRJ_VECS (R229). -/
abbrev QNT_PRJ_VECS : Nat := 0x1000A102C

/-- QNT_PRJ_SAT (R229). -/
abbrev QNT_PRJ_SAT : Nat := 0x1000A1030

/-- QNT_PRJ_NOMAT (R229). -/
abbrev QNT_PRJ_NOMAT : Nat := 0x1000A1034

/-- QNT_PRJ_DENIED (R229). -/
abbrev QNT_PRJ_DENIED : Nat := 0x1000A1038

/-- QNT_PRJ_LAT_MAX (R229). -/
abbrev QNT_PRJ_LAT_MAX : Nat := 0x1000A103C

/-- XCH_LINK_STATUS (R251). -/
abbrev XCH_LINK_STATUS : Nat := 0x100090000

/-- XCH_LINK_CFG (R251). -/
abbrev XCH_LINK_CFG : Nat := 0x100090004

/-- XCH_LINK_CTRL (R251). -/
abbrev XCH_LINK_CTRL : Nat := 0x100090008

/-- XCH_LINK_RETRAINS (R251). -/
abbrev XCH_LINK_RETRAINS : Nat := 0x10009000C

/-- XCH_TP_RX_BAD (R251). -/
abbrev XCH_TP_RX_BAD : Nat := 0x100090010

/-- XCH_TP_REPLAYS (R251). -/
abbrev XCH_TP_REPLAYS : Nat := 0x100090014

/-- XCH_TP_NACKS (R251). -/
abbrev XCH_TP_NACKS : Nat := 0x100090018

/-- XCH_TP_DISCARD (R251). -/
abbrev XCH_TP_DISCARD : Nat := 0x10009001C

/-- XCH_TP_ERR (R251). -/
abbrev XCH_TP_ERR : Nat := 0x100090020

/-- XCH_RING_STATE (R251). -/
abbrev XCH_RING_STATE : Nat := 0x100092000

/-- XCH_RING_RIDX (R251). -/
abbrev XCH_RING_RIDX : Nat := 0x100092004

/-- XCH_RING_SIZE (R251). -/
abbrev XCH_RING_SIZE : Nat := 0x100092008

/-- XCH_RING_DROP (R251). -/
abbrev XCH_RING_DROP : Nat := 0x10009200C

/-- XCH_RING_PEND (R251). -/
abbrev XCH_RING_PEND : Nat := 0x100093000

/-- XCH_ENC_CFG (R269). -/
abbrev XCH_ENC_CFG : Nat := 0x100098000

/-- XCH_ENC_MAP (R269). -/
abbrev XCH_ENC_MAP : Nat := 0x100098004

/-- XCH_ENC_GAIN (R269). -/
abbrev XCH_ENC_GAIN : Nat := 0x100098008

/-- XCH_ENC_BIAS (R269). -/
abbrev XCH_ENC_BIAS : Nat := 0x10009800C

/-- XCH_ENC_PA (R269). -/
abbrev XCH_ENC_PA : Nat := 0x100098010

/-- XCH_ENC_PB (R269). -/
abbrev XCH_ENC_PB : Nat := 0x100098014

/-- XCH_ENC_LIM (R269). -/
abbrev XCH_ENC_LIM : Nat := 0x100098018

/-- XCH_ENC_CLIP (R269). -/
abbrev XCH_ENC_CLIP : Nat := 0x10009801C

/-- XCH_DEC_CFG (R269). -/
abbrev XCH_DEC_CFG : Nat := 0x10009A000

/-- XCH_DEC_MAP (R269). -/
abbrev XCH_DEC_MAP : Nat := 0x10009A004

/-- XCH_DEC_ALPHA (R269). -/
abbrev XCH_DEC_ALPHA : Nat := 0x10009A008

/-- XCH_DEC_WAIT (R269). -/
abbrev XCH_DEC_WAIT : Nat := 0x10009A00C

/-- XCH_DEC_RECS (R269). -/
abbrev XCH_DEC_RECS : Nat := 0x10009A010

/-- XCH_DEC_DROP (R269). -/
abbrev XCH_DEC_DROP : Nat := 0x10009A014

/-- XCH_DEC_MISS (R269). -/
abbrev XCH_DEC_MISS : Nat := 0x10009A018

/-- XCH_ENC_GTBL (R269). -/
abbrev XCH_ENC_GTBL : Nat := 0x10009C000

/-- XCH_ENC_NAN (R269). -/
abbrev XCH_ENC_NAN : Nat := 0x10009C200

/-- XCH_ENC_SAT (R269). -/
abbrev XCH_ENC_SAT : Nat := 0x10009C204

/-- XCH_ED_OVF (R269). -/
abbrev XCH_ED_OVF : Nat := 0x10009C208

/-- STN_SMP_CFG (R270). -/
abbrev STN_SMP_CFG : Nat := 0x70E00

/-- STN_SMP_SENT (R270). -/
abbrev STN_SMP_SENT : Nat := 0x70E20

/-- SYS_SB_CTRL (R276). -/
abbrev SYS_SB_CTRL : Nat := 0x100000400

/-- SYS_SB_STATE (R276). -/
abbrev SYS_SB_STATE : Nat := 0x100000420

/-- SYS_SB_PC (R276). -/
abbrev SYS_SB_PC : Nat := 0x100000440

/-- SYS_DPT_CONFLICT (R281). -/
abbrev SYS_DPT_CONFLICT : Nat := 0x100000460

/-- SYS_DPT_CE (R281). -/
abbrev SYS_DPT_CE : Nat := 0x100000490

/-- SYS_DPT_UE (R281). -/
abbrev SYS_DPT_UE : Nat := 0x100000494

/-- SYS_DPT_UE_ADDR (R281). -/
abbrev SYS_DPT_UE_ADDR : Nat := 0x100000498

/-- SYS_DPT_OVF (R281). -/
abbrev SYS_DPT_OVF : Nat := 0x10000049C

/-- XCH_SDMA_D (R284). -/
abbrev XCH_SDMA_D : Nat := 0x100096100

/-- XCH_SDMA_LAST (R284). -/
abbrev XCH_SDMA_LAST : Nat := 0x100096110

/-- XCH_SDMA_CPL (R284). -/
abbrev XCH_SDMA_CPL : Nat := 0x100096114

/-- XCH_SDMA_QUEUED (R284). -/
abbrev XCH_SDMA_QUEUED : Nat := 0x100096118

/-- MBT_CTRL (R290). -/
abbrev MBT_CTRL : Nat := 0x100060000

/-- MBT_CFG (R290). -/
abbrev MBT_CFG : Nat := 0x100060004

/-- MBT_SEL (R290). -/
abbrev MBT_SEL : Nat := 0x100060008

/-- MBT_STATUS (R290). -/
abbrev MBT_STATUS : Nat := 0x10006000C

/-- MBT_FAIL_CNT (R290). -/
abbrev MBT_FAIL_CNT : Nat := 0x100060010

/-- MBT_REP_CNT (R290). -/
abbrev MBT_REP_CNT : Nat := 0x100060014

/-- MBT_UNREP_CNT (R290). -/
abbrev MBT_UNREP_CNT : Nat := 0x100060018

/-- MBT_FIRST (R290). -/
abbrev MBT_FIRST : Nat := 0x10006001C

/-- MBT_TIME (R290). -/
abbrev MBT_TIME : Nat := 0x100060020

/-- MBT_FAIL_MAP (R290). -/
abbrev MBT_FAIL_MAP : Nat := 0x100060100

/-- MBT_DPT_FAIL (R290). -/
abbrev MBT_DPT_FAIL : Nat := 0x100060300

/-- CHN_REQ_DATA (R300). -/
abbrev CHN_REQ_DATA : Nat := 0x100050000

/-- CHN_RPY_DATA (R300). -/
abbrev CHN_RPY_DATA : Nat := 0x100050100

/-- CHN_REQ_STATUS (R300). -/
abbrev CHN_REQ_STATUS : Nat := 0x100050200

/-- CHN_RPY_STATUS (R300). -/
abbrev CHN_RPY_STATUS : Nat := 0x100050280

/-- CHN_RPY_CFG (R300). -/
abbrev CHN_RPY_CFG : Nat := 0x100050300

/-- CHN_STALL_LIMIT (R300). -/
abbrev CHN_STALL_LIMIT : Nat := 0x100050400

/-- CHN_ERR (R300). -/
abbrev CHN_ERR : Nat := 0x100050404

/-- CHN_PARK_LO (R300). -/
abbrev CHN_PARK_LO : Nat := 0x100050500

/-- CHN_PARK_HI (R300). -/
abbrev CHN_PARK_HI : Nat := 0x100050504

/-- CHN_PARK_STATE (R300). -/
abbrev CHN_PARK_STATE : Nat := 0x100050508

/-- CHN_PARK_CTRL (R300). -/
abbrev CHN_PARK_CTRL : Nat := 0x10005050C

/-- CHN_BLK_REFUSED (R300). -/
abbrev CHN_BLK_REFUSED : Nat := 0x100050600

/-- CHN_BLK_LAST (R300). -/
abbrev CHN_BLK_LAST : Nat := 0x100050604

/-- BLK_CFG (R301). -/
abbrev BLK_CFG : Nat := 0x101000000

/-- BLK_VALUE (R301). -/
abbrev BLK_VALUE : Nat := 0x101000004

/-- BLK_LIMIT (R301). -/
abbrev BLK_LIMIT : Nat := 0x101000008

/-- BLK_OP (R301). -/
abbrev BLK_OP : Nat := 0x10100000C

/-- IRQ_PEND (R315). -/
abbrev IRQ_PEND : Nat := 0x100030000

/-- IRQ_PEND_SET (R315). -/
abbrev IRQ_PEND_SET : Nat := 0x100030020

/-- IRQ_PEND_CLR (R315). -/
abbrev IRQ_PEND_CLR : Nat := 0x100030040

/-- IRQ_EN (R315). -/
abbrev IRQ_EN : Nat := 0x100030100

/-- IRQ_EN_SET (R315). -/
abbrev IRQ_EN_SET : Nat := 0x100030300

/-- IRQ_EN_CLR (R315). -/
abbrev IRQ_EN_CLR : Nat := 0x100030500

/-- IRQ_MOD (R315). -/
abbrev IRQ_MOD : Nat := 0x100030700

/-- IRQ_CLAIM (R315). -/
abbrev IRQ_CLAIM : Nat := 0x100030740

/-- IRQ_HOST_IDLE (R315). -/
abbrev IRQ_HOST_IDLE : Nat := 0x100030780

/-- IRQ_LINE (R315). -/
abbrev IRQ_LINE : Nat := 0x100030784

/-- IRQ_PIN_CFG (R315). -/
abbrev IRQ_PIN_CFG : Nat := 0x100030800

/-- IRQ_STN_SEL (R315). -/
abbrev IRQ_STN_SEL : Nat := 0x100030900

/-- IRQ_STN_MAP (R315). -/
abbrev IRQ_STN_MAP : Nat := 0x100030A00

/-- TMR_CFG (R327). -/
abbrev TMR_CFG : Nat := 0x100040000

/-- TMR_STATUS (R327). -/
abbrev TMR_STATUS : Nat := 0x100040004

/-- TMR_COUNT_LO (R327). -/
abbrev TMR_COUNT_LO : Nat := 0x100040008

/-- TMR_COUNT_HI (R327). -/
abbrev TMR_COUNT_HI : Nat := 0x10004000C

/-- TMR_PERIOD_LO (R327). -/
abbrev TMR_PERIOD_LO : Nat := 0x100040010

/-- TMR_PERIOD_HI (R327). -/
abbrev TMR_PERIOD_HI : Nat := 0x100040014

/-- TMR_PHASE_LO (R327). -/
abbrev TMR_PHASE_LO : Nat := 0x100040018

/-- TMR_PHASE_HI (R327). -/
abbrev TMR_PHASE_HI : Nat := 0x10004001C

/-- TMR_CMP_LO (R327). -/
abbrev TMR_CMP_LO : Nat := 0x100040020

/-- TMR_CMP_HI (R327). -/
abbrev TMR_CMP_HI : Nat := 0x100040024

/-- TMR_CAP_LO (R327). -/
abbrev TMR_CAP_LO : Nat := 0x100040028

/-- TMR_CAP_HI (R327). -/
abbrev TMR_CAP_HI : Nat := 0x10004002C

/-- TMR_PRESC (R327). -/
abbrev TMR_PRESC : Nat := 0x100040030

/-- TMR_CTRL (R327). -/
abbrev TMR_CTRL : Nat := 0x100040034

/-- TMR_GSTART (R327). -/
abbrev TMR_GSTART : Nat := 0x100040800

/-- TMR_GSTOP (R327). -/
abbrev TMR_GSTOP : Nat := 0x100040804

/-- TMR_GSTAGGER (R327). -/
abbrev TMR_GSTAGGER : Nat := 0x100040808

/-- TMR_DBG (R327). -/
abbrev TMR_DBG : Nat := 0x10004080C

/-- CLK_STATUS (R353). -/
abbrev CLK_STATUS : Nat := 0x100010000

/-- CLK_MON (R353). -/
abbrev CLK_MON : Nat := 0x100010004

/-- CLK_SEL (R353). -/
abbrev CLK_SEL : Nat := 0x100010010

/-- CLK_ISL_RST (R353). -/
abbrev CLK_ISL_RST : Nat := 0x100010020

/-- CLK_XCH (R353). -/
abbrev CLK_XCH : Nat := 0x100010030

/-- CLK_EN_RUN (R353). -/
abbrev CLK_EN_RUN : Nat := 0x100010040

/-- CLK_EN_SLEEP (R353). -/
abbrev CLK_EN_SLEEP : Nat := 0x100010060

/-- CLK_EN_DEEP (R353). -/
abbrev CLK_EN_DEEP : Nat := 0x100010080

/-- CLK_AUTO_GATE (R353). -/
abbrev CLK_AUTO_GATE : Nat := 0x1000100A0

/-- CLK_OBS (R353). -/
abbrev CLK_OBS : Nat := 0x1000100B0

/-- CLK_FREQ (R353). -/
abbrev CLK_FREQ : Nat := 0x100010100

/-- CLK_HSM (R353). -/
abbrev CLK_HSM : Nat := 0x100010200

/-- CLK_KF_MEAS (R353). -/
abbrev CLK_KF_MEAS : Nat := 0x100010300

/-- CLK_KF_LIM (R353). -/
abbrev CLK_KF_LIM : Nat := 0x100010304

/-- PWR_STATE (R353). -/
abbrev PWR_STATE : Nat := 0x100020000

/-- PWR_STATE_CTRL (R353). -/
abbrev PWR_STATE_CTRL : Nat := 0x100020004

/-- PWR_WAKE_EN (R353). -/
abbrev PWR_WAKE_EN : Nat := 0x100020008

/-- PWR_WAKE_PINS (R353). -/
abbrev PWR_WAKE_PINS : Nat := 0x10002000C

/-- PWR_WAKE_TIME (R353). -/
abbrev PWR_WAKE_TIME : Nat := 0x100020010

/-- PWR_TOK_BUDGET (R353). -/
abbrev PWR_TOK_BUDGET : Nat := 0x100020100

/-- PWR_TOK_RESV (R353). -/
abbrev PWR_TOK_RESV : Nat := 0x100020110

/-- PWR_TOK_USE (R353). -/
abbrev PWR_TOK_USE : Nat := 0x100020120

/-- PWR_TOK_COST (R353). -/
abbrev PWR_TOK_COST : Nat := 0x100020140

/-- PWR_TOK_WAIT (R353). -/
abbrev PWR_TOK_WAIT : Nat := 0x100020160

/-- PWR_TOK_REFUSED (R353). -/
abbrev PWR_TOK_REFUSED : Nat := 0x100020180

/-- PWR_TOK_WMAX (R353). -/
abbrev PWR_TOK_WMAX : Nat := 0x1000201A0

/-- PWR_VFAB_TARGET (R353). -/
abbrev PWR_VFAB_TARGET : Nat := 0x100020200

/-- PWR_VFAB_CFG (R353). -/
abbrev PWR_VFAB_CFG : Nat := 0x100020204

/-- PWR_VFAB_STATE (R353). -/
abbrev PWR_VFAB_STATE : Nat := 0x100020208

/-- PWR_VFAB_MEAS (R353). -/
abbrev PWR_VFAB_MEAS : Nat := 0x10002020C

/-- PWR_TEMP (R353). -/
abbrev PWR_TEMP : Nat := 0x100020300

/-- PWR_TEMP_MAX (R353). -/
abbrev PWR_TEMP_MAX : Nat := 0x100020400

/-- PWR_THERM_CFG (R353). -/
abbrev PWR_THERM_CFG : Nat := 0x100020404

/-- PWR_THERM_STATE (R353). -/
abbrev PWR_THERM_STATE : Nat := 0x100020408

/-- SYS_ID (R371). -/
abbrev SYS_ID : Nat := 0x100000000

/-- SYS_REV (R371). -/
abbrev SYS_REV : Nat := 0x100000004

/-- SYS_ORDER (R371). -/
abbrev SYS_ORDER : Nat := 0x100000008

/-- SYS_GRID (R371). -/
abbrev SYS_GRID : Nat := 0x10000000C

/-- SYS_CHAN_EN (R371). -/
abbrev SYS_CHAN_EN : Nat := 0x100000010

/-- SYS_TRK_EN (R371). -/
abbrev SYS_TRK_EN : Nat := 0x100000014

/-- SYS_SERIAL_LO (R371). -/
abbrev SYS_SERIAL_LO : Nat := 0x100000018

/-- SYS_SERIAL_HI (R371). -/
abbrev SYS_SERIAL_HI : Nat := 0x10000001C

/-- SYS_BOOT_STAGE (R371). -/
abbrev SYS_BOOT_STAGE : Nat := 0x100000100

/-- SYS_BRING_CMD (R371). -/
abbrev SYS_BRING_CMD : Nat := 0x100000104

/-- SYS_BRING_STATUS (R371). -/
abbrev SYS_BRING_STATUS : Nat := 0x100000108

/-- SYS_TOPO_SRC (R371). -/
abbrev SYS_TOPO_SRC : Nat := 0x100000110

/-- SYS_TOPO_DETAIL (R371). -/
abbrev SYS_TOPO_DETAIL : Nat := 0x100000114

/-- SYS_BOOT_REPORT (R371). -/
abbrev SYS_BOOT_REPORT : Nat := 0x100000200

/-- SYS_CENSUS (R371). -/
abbrev SYS_CENSUS : Nat := 0x100000280

/-- SYS_CENSUS_ROW (R371). -/
abbrev SYS_CENSUS_ROW : Nat := 0x100000300

/-- SYS_CENSUS_BAD (R371). -/
abbrev SYS_CENSUS_BAD : Nat := 0x100000500

/-- SYS_RST_CTRL (R371). -/
abbrev SYS_RST_CTRL : Nat := 0x100000600

/-- SYS_RST_STATUS (R371). -/
abbrev SYS_RST_STATUS : Nat := 0x100000604

/-- SYS_RST_OPS (R371). -/
abbrev SYS_RST_OPS : Nat := 0x100000608

/-- SYS_RST_QNT (R371). -/
abbrev SYS_RST_QNT : Nat := 0x10000060C

/-- DRM_CFG (R372). -/
abbrev DRM_CFG : Nat := 0x1000C0000

/-- DRM_STATUS (R372). -/
abbrev DRM_STATUS : Nat := 0x1000C0004

/-- DRM_TRAINED (R372). -/
abbrev DRM_TRAINED : Nat := 0x1000C0008

/-- DRM_FAILED (R372). -/
abbrev DRM_FAILED : Nat := 0x1000C000C

/-- DRM_ERR_LIM (R372). -/
abbrev DRM_ERR_LIM : Nat := 0x1000C0010

/-- DRM_CH_ERR (R372). -/
abbrev DRM_CH_ERR : Nat := 0x1000C0100

/-- FWU_CTRL (R395). -/
abbrev FWU_CTRL : Nat := 0x100070000

/-- FWU_STATUS (R395). -/
abbrev FWU_STATUS : Nat := 0x100070004

/-- FWU_SOURCE (R395). -/
abbrev FWU_SOURCE : Nat := 0x100070008

/-- FWU_PROGRESS (R395). -/
abbrev FWU_PROGRESS : Nat := 0x10007000C

/-- FWU_HEALTH_OK (R395). -/
abbrev FWU_HEALTH_OK : Nat := 0x100070010

/-- FWU_BOOT (R395). -/
abbrev FWU_BOOT : Nat := 0x100070014

/-- FWU_SLOT (R395). -/
abbrev FWU_SLOT : Nat := 0x100070018

/-- FWU_SET_SRC (R395). -/
abbrev FWU_SET_SRC : Nat := 0x100070020

/-- FWU_CHUNK_ERR (R395). -/
abbrev FWU_CHUNK_ERR : Nat := 0x100070024

/-- FWU_CUSTKEY (R395). -/
abbrev FWU_CUSTKEY : Nat := 0x100070040

/-- SEC_DEVPK (R395). -/
abbrev SEC_DEVPK : Nat := 0x100080000

/-- SEC_DEVPK_HASH (R395). -/
abbrev SEC_DEVPK_HASH : Nat := 0x100080600

/-- SEC_M_ROM (R395). -/
abbrev SEC_M_ROM : Nat := 0x100080620

/-- SEC_M_FW (R395). -/
abbrev SEC_M_FW : Nat := 0x100080640

/-- SEC_M_CUST (R395). -/
abbrev SEC_M_CUST : Nat := 0x100080660

/-- SEC_M_PLAN (R395). -/
abbrev SEC_M_PLAN : Nat := 0x100080680

/-- SEC_NONCE (R395). -/
abbrev SEC_NONCE : Nat := 0x100080700

/-- SEC_CTRL (R395). -/
abbrev SEC_CTRL : Nat := 0x100080720

/-- SEC_STATUS (R395). -/
abbrev SEC_STATUS : Nat := 0x100080724

/-- SEC_REPORT (R395). -/
abbrev SEC_REPORT : Nat := 0x100081000

/-- TRK_STATUS (R422). -/
abbrev TRK_STATUS : Nat := 0x1000D0000

/-- TRK_CTRL (R422). -/
abbrev TRK_CTRL : Nat := 0x1000D0004

/-- TRK_PEER_LO (R422). -/
abbrev TRK_PEER_LO : Nat := 0x1000D0008

/-- TRK_PEER_HI (R422). -/
abbrev TRK_PEER_HI : Nat := 0x1000D000C

/-- TRK_PEER_ID (R422). -/
abbrev TRK_PEER_ID : Nat := 0x1000D0010

/-- TRK_PEER_LINK (R422). -/
abbrev TRK_PEER_LINK : Nat := 0x1000D0014

/-- TRK_RETRAINS (R422). -/
abbrev TRK_RETRAINS : Nat := 0x1000D0018

/-- TRK_REPLAYS (R422). -/
abbrev TRK_REPLAYS : Nat := 0x1000D001C

/-- TRK_RX_BAD (R422). -/
abbrev TRK_RX_BAD : Nat := 0x1000D0020

/-- TRK_CHK_FAIL (R422). -/
abbrev TRK_CHK_FAIL : Nat := 0x1000D0024

/-- TRK_LOST (R422). -/
abbrev TRK_LOST : Nat := 0x1000D0028

/-- TRK_NOROUTE (R422). -/
abbrev TRK_NOROUTE : Nat := 0x1000D002C

/-- TRK_X_TX (R422). -/
abbrev TRK_X_TX : Nat := 0x1000D0030

/-- TRK_X_RX (R422). -/
abbrev TRK_X_RX : Nat := 0x1000D0034

/-- TRK_CFG (R422). -/
abbrev TRK_CFG : Nat := 0x1000D0400

/-- TRK_SYS (R422). -/
abbrev TRK_SYS : Nat := 0x1000D0404

/-- TRK_SYS_CTRL (R422). -/
abbrev TRK_SYS_CTRL : Nat := 0x1000D0408

/-- TRK_ROUTE (R422). -/
abbrev TRK_ROUTE : Nat := 0x1000D0500

/-- TRK_RA_DEV (R422). -/
abbrev TRK_RA_DEV : Nat := 0x1000D0600

/-- TRK_RA_ADDR_LO (R422). -/
abbrev TRK_RA_ADDR_LO : Nat := 0x1000D0604

/-- TRK_RA_ADDR_HI (R422). -/
abbrev TRK_RA_ADDR_HI : Nat := 0x1000D0608

/-- TRK_RA_DATA (R422). -/
abbrev TRK_RA_DATA : Nat := 0x1000D060C

/-- TRK_SDMA_DEV (R422). -/
abbrev TRK_SDMA_DEV : Nat := 0x1000D0610

/-- TRK_DIST_CTRL (R422). -/
abbrev TRK_DIST_CTRL : Nat := 0x1000D0700

/-- TRK_DIST_STATUS (R422). -/
abbrev TRK_DIST_STATUS : Nat := 0x1000D0704

/-- TRK_DIST_SEL_LO (R422). -/
abbrev TRK_DIST_SEL_LO : Nat := 0x1000D0708

/-- TRK_DIST_SEL_HI (R422). -/
abbrev TRK_DIST_SEL_HI : Nat := 0x1000D070C

/-- TRK_DIST_ACK_LO (R422). -/
abbrev TRK_DIST_ACK_LO : Nat := 0x1000D0710

/-- TRK_DIST_ACK_HI (R422). -/
abbrev TRK_DIST_ACK_HI : Nat := 0x1000D0714

/-- TRK_DIST_FAIL_LO (R422). -/
abbrev TRK_DIST_FAIL_LO : Nat := 0x1000D0718

/-- TRK_DIST_FAIL_HI (R422). -/
abbrev TRK_DIST_FAIL_HI : Nat := 0x1000D071C

/-- TRK_DIST_FW_LO (R422). -/
abbrev TRK_DIST_FW_LO : Nat := 0x1000D0720

/-- TRK_DIST_FW_HI (R422). -/
abbrev TRK_DIST_FW_HI : Nat := 0x1000D0724

/-- TRK_DIST_FW_LEN (R422). -/
abbrev TRK_DIST_FW_LEN : Nat := 0x1000D0728

/-- TRK_DIST_ENT (R422). -/
abbrev TRK_DIST_ENT : Nat := 0x1000D0800

/-- TRK_SW (R422). -/
abbrev TRK_SW : Nat := 0x1000D8000

/-- PIN_CFG (R439). -/
abbrev PIN_CFG : Nat := 0x1000F0000

/-- PIN_OUT (R439). -/
abbrev PIN_OUT : Nat := 0x1000F0040

/-- PIN_OUT_SET (R439). -/
abbrev PIN_OUT_SET : Nat := 0x1000F0044

/-- PIN_OUT_CLR (R439). -/
abbrev PIN_OUT_CLR : Nat := 0x1000F0048

/-- PIN_IN (R439). -/
abbrev PIN_IN : Nat := 0x1000F004C

/-- PIN_SMB_CFG (R439). -/
abbrev PIN_SMB_CFG : Nat := 0x1000F0100

/-- PIN_SMB_ERR (R439). -/
abbrev PIN_SMB_ERR : Nat := 0x1000F0104

/-- PIN_SMB_WSTAT (R439). -/
abbrev PIN_SMB_WSTAT : Nat := 0x1000F0108

/-- PIN_BC_MSG (R439). -/
abbrev PIN_BC_MSG : Nat := 0x1000F010C

/-- PIN_BC_ALERT (R439). -/
abbrev PIN_BC_ALERT : Nat := 0x1000F0110

end R

def rows_6 : List RegRow := [
  ⟨0x6C000, 16, 16, 0x0, 0xEF000FFF, 0x0, 0x0, 0x0⟩,
  ⟨0x6C004, 16, 16, 0x0, 0xFFFFFFFF, 0x0, 0x0, 0x0⟩,
  ⟨0x6C008, 16, 16, 0x0, 0xFFFF, 0x0, 0x0, 0x0⟩,
  ⟨0x6C00C, 16, 16, 0x0, 0x0, 0x0, 0x0, 0x0⟩
]

def rows_7 : List RegRow := [
  ⟨0x70100, 16, 4, 0x0, 0x0, 0x0, 0x0, 0xFFFFFFFF⟩,
  ⟨0x70140, 16, 4, 0x0, 0x0, 0x0, 0x0, 0xFFFFFFFF⟩,
  ⟨0x70180, 16, 4, 0x0, 0x0, 0x0, 0x0, 0xFFFFFFFF⟩,
  ⟨0x701C0, 16, 4, 0x0, 0x0, 0x0, 0x0, 0xFFFFFFFF⟩,
  ⟨0x70200, 16, 4, 0x0, 0x0, 0x0, 0x0, 0xFFFFFFFF⟩,
  ⟨0x70240, 16, 4, 0x0, 0x0, 0x0, 0x0, 0xFFFFFFFF⟩,
  ⟨0x70280, 16, 4, 0x0, 0x0, 0x0, 0x0, 0x0⟩,
  ⟨0x702C0, 16, 4, 0x0, 0x0, 0x0, 0x0, 0xFFFFFFFF⟩,
  ⟨0x70300, 16, 4, 0x0, 0x0, 0x7F, 0x0, 0x0⟩,
  ⟨0x70340, 1, 4, 0x0, 0x0, 0x0, 0x0, 0x0⟩,
  ⟨0x70344, 1, 4, 0x0, 0x0, 0x0, 0x0, 0x0⟩,
  ⟨0x70348, 1, 4, 0x0, 0x0, 0x0, 0x0, 0xFFFFFFFF⟩,
  ⟨0x70400, 16, 4, 0x0, 0x0, 0x0, 0x0, 0xFFFFFFFF⟩,
  ⟨0x70440, 16, 4, 0x0, 0x0, 0x0, 0x0, 0x0⟩,
  ⟨0x70480, 16, 4, 0x0, 0x0, 0x0, 0x0, 0x0⟩,
  ⟨0x704C0, 1, 4, 0x0, 0x0, 0x0, 0x0, 0xFFFFFFFF⟩,
  ⟨0x704C4, 1, 4, 0x0, 0x0, 0x0, 0x0, 0xFFFFFFFF⟩,
  ⟨0x704C8, 1, 4, 0x0, 0x0, 0x0, 0x0, 0xFFFFFFFF⟩,
  ⟨0x704CC, 1, 4, 0x0, 0x0, 0x0, 0x0, 0xFFFFFFFF⟩,
  ⟨0x704D0, 1, 4, 0x0, 0x0, 0xFFFFF, 0x0, 0x0⟩,
  ⟨0x704D4, 1, 4, 0x0, 0x0, 0x0, 0x0, 0x0⟩,
  ⟨0x704D8, 1, 4, 0x0, 0x0, 0x0, 0x0, 0x0⟩,
  ⟨0x70500, 16, 4, 0x0, 0x0, 0x0, 0x0, 0xFFFFFFFF⟩,
  ⟨0x70540, 16, 4, 0x0, 0x0, 0x0, 0x0, 0xFFFFFFFF⟩,
  ⟨0x70580, 16, 4, 0x0, 0x0, 0x0, 0x0, 0xFFFFFFFF⟩,
  ⟨0x705C0, 16, 4, 0x0, 0x0, 0x0, 0x0, 0xFFFFFFFF⟩,
  ⟨0x70600, 1, 4, 0x0, 0x0, 0x0, 0x0, 0xFFFFFFFF⟩,
  ⟨0x70604, 1, 4, 0x0, 0x0, 0x1F, 0x0, 0x0⟩,
  ⟨0x70608, 1, 4, 0x0, 0x0, 0x0, 0x0, 0x0⟩,
  ⟨0x70700, 32, 4, 0x0, 0x0, 0x0, 0x0, 0x0⟩,
  ⟨0x70780, 32, 4, 0x0, 0x0, 0x0, 0x0, 0x0⟩,
  ⟨0x70800, 16, 4, 0x0, 0x0, 0x0, 0x0, 0xFFFFFFFF⟩,
  ⟨0x70840, 16, 4, 0x0, 0x0, 0x0, 0x0, 0xFFFFFFFF⟩,
  ⟨0x70880, 16, 4, 0x0, 0x0, 0x0, 0x0, 0x0⟩,
  ⟨0x708C0, 1, 4, 0x0, 0x0, 0xFFFFFFFF, 0x0, 0x0⟩,
  ⟨0x70900, 1, 4, 0x0, 0x0, 0x0, 0x0, 0xFFFFFFFF⟩,
  ⟨0x70904, 1, 4, 0x0, 0x0, 0x0, 0x0, 0xFFFFFFFF⟩,
  ⟨0x70908, 1, 4, 0x0, 0x0, 0x0, 0x0, 0xFFFFFFFF⟩,
  ⟨0x7090C, 1, 4, 0x0, 0x0, 0x0, 0x0, 0xFFFFFFFF⟩,
  ⟨0x70910, 5, 4, 0x0, 0x0, 0x0, 0x0, 0xFFFFFFFF⟩,
  ⟨0x70924, 1, 4, 0x0, 0x0, 0x0, 0x0, 0x0⟩,
  ⟨0x70928, 1, 4, 0x0, 0x0, 0x0, 0x0, 0x0⟩,
  ⟨0x7092C, 1, 4, 0x0, 0x0, 0x1F, 0x0, 0x0⟩,
  ⟨0x70930, 1, 4, 0x0, 0x0, 0x0, 0x0, 0x0⟩,
  ⟨0x70934, 1, 4, 0x0, 0x0, 0x0, 0x0, 0x0⟩,
  ⟨0x70938, 1, 4, 0x0, 0x0, 0x0, 0x0, 0x0⟩,
  ⟨0x70A00, 16, 4, 0x0, 0xFFFFFFFF, 0x0, 0x0, 0x0⟩,
  ⟨0x70A40, 16, 4, 0x0, 0x8FFF0FFF, 0x0, 0x0, 0x0⟩,
  ⟨0x70A80, 1, 4, 0x0, 0x0, 0x0, 0x0, 0xFFFFFFFF⟩,
  ⟨0x70A84, 1, 4, 0x0, 0x0, 0x0, 0x0, 0xFFFFFFFF⟩,
  ⟨0x70A88, 1, 4, 0x0, 0x0, 0x0, 0x0, 0xFFFFFFFF⟩,
  ⟨0x70A8C, 1, 4, 0x0, 0x0, 0x0, 0x0, 0xFFFFFFFF⟩,
  ⟨0x70A90, 1, 4, 0x0, 0x0, 0x0, 0x0, 0xFFFFFFFF⟩,
  ⟨0x70A94, 1, 4, 0x0, 0x0, 0x1F, 0x0, 0x0⟩,
  ⟨0x70B00, 128, 4, 0x0, 0x0, 0x0, 0x0, 0x0⟩,
  ⟨0x70D00, 1, 4, 0x0, 0x0, 0x0, 0x0, 0xFFFFFFFF⟩,
  ⟨0x70D04, 1, 4, 0x0, 0x0, 0x0, 0x0, 0xFFFFFFFF⟩,
  ⟨0x70D08, 1, 4, 0x0, 0x0, 0x0, 0x0, 0xFFFFFFFF⟩,
  ⟨0x70D0C, 1, 4, 0x0, 0x0, 0x0, 0x0, 0xFFFFFFFF⟩,
  ⟨0x70D10, 1, 4, 0x0, 0x0, 0x0, 0x0, 0xFFFFFFFF⟩,
  ⟨0x70D14, 1, 4, 0x0, 0x0, 0x0, 0x0, 0x0⟩,
  ⟨0x70D18, 1, 4, 0x0, 0x0, 0x1F, 0x0, 0x0⟩,
  ⟨0x70E00, 8, 4, 0x0, 0xFFFFFF80, 0x0, 0x0, 0x0⟩,
  ⟨0x70E20, 1, 4, 0x0, 0x0, 0x0, 0x0, 0xFFFFFFFF⟩
]

def rows_10000 : List RegRow := [
  ⟨0x100000400, 1, 4, 0x80000000, 0x0, 0x0, 0x0, 0x0⟩,
  ⟨0x100000404, 7, 4, 0x0, 0x80000000, 0x0, 0x0, 0x0⟩,
  ⟨0x100000420, 8, 4, 0x0, 0x0, 0x4000000, 0x0, 0xFFFF⟩,
  ⟨0x100000440, 8, 4, 0x0, 0x0, 0x0, 0x0, 0x0⟩,
  ⟨0x100000460, 12, 4, 0x0, 0x0, 0x0, 0x0, 0xFFFFFFFF⟩,
  ⟨0x100000490, 1, 4, 0x0, 0x0, 0x0, 0x0, 0xFFFFFFFF⟩,
  ⟨0x100000494, 1, 4, 0x0, 0x0, 0x0, 0x0, 0xFFFFFFFF⟩,
  ⟨0x100000498, 1, 4, 0x0, 0x0, 0x80000000, 0x0, 0x0⟩,
  ⟨0x10000049C, 1, 4, 0x0, 0x0, 0x3FFF, 0x0, 0x0⟩,
  ⟨0x100000000, 1, 4, 0x56580001, 0x0, 0x0, 0x0, 0x0⟩,
  ⟨0x100000004, 1, 4, 0xB0, 0x0, 0x0, 0x0, 0x0⟩,
  ⟨0x100000008, 1, 4, 0x0, 0x0, 0x0, 0x0, 0x0⟩,
  ⟨0x10000000C, 1, 4, 0x0, 0x0, 0x0, 0x0, 0x0⟩,
  ⟨0x100000010, 1, 4, 0x0, 0x0, 0x0, 0x0, 0x0⟩,
  ⟨0x100000014, 1, 4, 0x0, 0x0, 0x0, 0x0, 0x0⟩,
  ⟨0x100000018, 1, 4, 0x0, 0x0, 0x0, 0x0, 0x0⟩,
  ⟨0x10000001C, 1, 4, 0x0, 0x0, 0x0, 0x0, 0x0⟩,
  ⟨0x100000100, 1, 4, 0x10000000, 0x0, 0x0, 0x0, 0x0⟩,
  ⟨0x100000104, 1, 4, 0x0, 0x0, 0x0, 0x0, 0x0⟩,
  ⟨0x100000108, 1, 4, 0x0, 0x40000000, 0x30000000, 0x0, 0x0⟩,
  ⟨0x100000110, 1, 4, 0x0, 0x80FFFFC0, 0x0, 0x0, 0x0⟩,
  ⟨0x100000114, 1, 4, 0x0, 0x0, 0x0, 0x0, 0x0⟩,
  ⟨0x100000200, 10, 4, 0x0, 0x0, 0x0, 0x0, 0x0⟩,
  ⟨0x100000280, 1, 4, 0x0, 0x0, 0x0, 0x0, 0x0⟩,
  ⟨0x100000300, 48, 4, 0x0, 0x0, 0x0, 0x0, 0x0⟩,
  ⟨0x100000500, 64, 4, 0x0, 0x0, 0x0, 0x0, 0x0⟩,
  ⟨0x100000600, 1, 4, 0x0, 0x0, 0x0, 0x0, 0x0⟩,
  ⟨0x100000604, 1, 4, 0x1000000, 0x0, 0x60000000, 0x0, 0x0⟩,
  ⟨0x100000608, 1, 4, 0x0, 0x0, 0x0, 0x0, 0x0⟩,
  ⟨0x10000060C, 1, 4, 0x0, 0x0, 0x0, 0x0, 0x0⟩
]

def rows_10001 : List RegRow := [
  ⟨0x100010000, 1, 4, 0x0, 0x0, 0xF8000000, 0x0, 0x0⟩,
  ⟨0x100010004, 1, 4, 0x1, 0x0, 0x0, 0x0, 0x0⟩,
  ⟨0x100010010, 4, 4, 0x0, 0x1, 0x0, 0x0, 0x0⟩,
  ⟨0x100010020, 1, 4, 0x0, 0x0, 0x0, 0x0, 0x0⟩,
  ⟨0x100010030, 1, 4, 0x80008, 0xF, 0x80000000, 0x0, 0x0⟩,
  ⟨0x100010040, 1, 4, 0x1, 0x1, 0x0, 0x0, 0x0⟩,
  ⟨0x100010044, 1, 4, 0x1FFF, 0x1FFF, 0x0, 0x0, 0x0⟩,
  ⟨0x100010048, 1, 4, 0xFF, 0xFF, 0x0, 0x0, 0x0⟩,
  ⟨0x10001004C, 1, 4, 0xFFF, 0xAFE, 0x0, 0x0, 0x0⟩,
  ⟨0x100010050, 1, 4, 0x3F, 0x3F, 0x0, 0x0, 0x0⟩,
  ⟨0x100010060, 1, 4, 0x0, 0x1, 0x0, 0x0, 0x0⟩,
  ⟨0x100010064, 1, 4, 0x0, 0x0, 0x0, 0x0, 0x0⟩,
  ⟨0x100010068, 1, 4, 0x0, 0xFF, 0x0, 0x0, 0x0⟩,
  ⟨0x10001006C, 1, 4, 0xFFF, 0xAFE, 0x0, 0x0, 0x0⟩,
  ⟨0x100010070, 1, 4, 0x0, 0x0, 0x0, 0x0, 0x0⟩,
  ⟨0x100010080, 1, 4, 0x0, 0x0, 0x0, 0x0, 0x0⟩,
  ⟨0x100010084, 1, 4, 0x0, 0x0, 0x0, 0x0, 0x0⟩,
  ⟨0x100010088, 1, 4, 0x0, 0xFF, 0x0, 0x0, 0x0⟩,
  ⟨0x10001008C, 1, 4, 0x0, 0x0, 0x0, 0x0, 0x0⟩,
  ⟨0x100010090, 1, 4, 0x0, 0x0, 0x0, 0x0, 0x0⟩,
  ⟨0x1000100A0, 1, 4, 0x0, 0x1, 0x0, 0x0, 0x0⟩,
  ⟨0x1000100B0, 1, 4, 0x0, 0xFFFF807F, 0x0, 0x0, 0x0⟩,
  ⟨0x100010100, 12, 4, 0x0, 0x0, 0x0, 0x0, 0x0⟩,
  ⟨0x100010200, 64, 4, 0x0, 0x0, 0x0, 0x0, 0x0⟩,
  ⟨0x100010300, 1, 4, 0x0, 0x0, 0x0, 0x0, 0x0⟩,
  ⟨0x100010304, 1, 4, 0x1800, 0xFFFF, 0x0, 0x0, 0x0⟩
]

def rows_10002 : List RegRow := [
  ⟨0x100020000, 1, 4, 0x0, 0x0, 0x0, 0x0, 0x0⟩,
  ⟨0x100020004, 1, 4, 0x0, 0x0, 0x0, 0x0, 0x0⟩,
  ⟨0x100020008, 1, 4, 0x1, 0x7E, 0x0, 0x0, 0x0⟩,
  ⟨0x10002000C, 1, 4, 0x0, 0xFFFF, 0x0, 0x0, 0x0⟩,
  ⟨0x100020010, 1, 4, 0x0, 0xFFFFFFFF, 0x0, 0x0, 0x0⟩,
  ⟨0x100020100, 4, 4, 0x0, 0xFFFF, 0x0, 0x0, 0x0⟩,
  ⟨0x100020110, 4, 4, 0x0, 0xFFFF, 0x0, 0x0, 0x0⟩,
  ⟨0x100020120, 4, 4, 0x0, 0x0, 0x0, 0x0, 0x0⟩,
  ⟨0x100020140, 1, 4, 0x30006, 0xFFFFFFFF, 0x0, 0x0, 0x0⟩,
  ⟨0x100020144, 1, 4, 0x40000, 0xFFFFFFFF, 0x0, 0x0, 0x0⟩,
  ⟨0x100020148, 1, 4, 0x60000, 0xFFFFFFFF, 0x0, 0x0, 0x0⟩,
  ⟨0x10002014C, 1, 4, 0xC020000, 0xFFFFFFFF, 0x0, 0x0, 0x0⟩,
  ⟨0x100020150, 1, 4, 0x4000C, 0xFFFFFFFF, 0x0, 0x0, 0x0⟩,
  ⟨0x100020154, 1, 4, 0x10000800, 0xFFFFFFFF, 0x0, 0x0, 0x0⟩,
  ⟨0x100020158, 1, 4, 0x8000000, 0xFFFFFFFF, 0x0, 0x0, 0x0⟩,
  ⟨0x100020160, 1, 4, 0x64, 0xFFFFFF, 0x0, 0x0, 0x0⟩,
  ⟨0x100020164, 1, 4, 0x3E8, 0xFFFFFF, 0x0, 0x0, 0x0⟩,
  ⟨0x100020168, 1, 4, 0x3E8, 0xFFFFFF, 0x0, 0x0, 0x0⟩,
  ⟨0x10002016C, 1, 4, 0x186A0, 0xFFFFFF, 0x0, 0x0, 0x0⟩,
  ⟨0x100020170, 1, 4, 0x186A0, 0xFFFFFF, 0x0, 0x0, 0x0⟩,
  ⟨0x100020174, 1, 4, 0x186A0, 0xFFFFFF, 0x0, 0x0, 0x0⟩,
  ⟨0x100020178, 1, 4, 0x2710, 0xFFFFFF, 0x0, 0x0, 0x0⟩,
  ⟨0x100020180, 7, 4, 0x0, 0x0, 0x0, 0x0, 0xFFFFFFFF⟩,
  ⟨0x1000201A0, 7, 4, 0x0, 0x0, 0x0, 0x0, 0xFFFFFFFF⟩,
  ⟨0x100020200, 1, 4, 0x2EE, 0x3FF, 0x0, 0x0, 0x0⟩,
  ⟨0x100020204, 1, 4, 0x190027, 0x3F00FF, 0x0, 0x0, 0x0⟩,
  ⟨0x100020208, 1, 4, 0x2EE, 0x0, 0x78000000, 0x0, 0x0⟩,
  ⟨0x10002020C, 1, 4, 0x0, 0x0, 0x0, 0x0, 0x0⟩,
  ⟨0x100020300, 64, 4, 0x0, 0x0, 0x0, 0x0, 0x0⟩,
  ⟨0x100020400, 1, 4, 0x0, 0x0, 0x0, 0x0, 0x0⟩,
  ⟨0x100020404, 1, 4, 0x320064, 0x807F00FF, 0x0, 0x0, 0x0⟩,
  ⟨0x100020408, 1, 4, 0x0, 0x0, 0x40000000, 0x0, 0x0⟩
]

def rows_10003 : List RegRow := [
  ⟨0x100030000, 8, 4, 0x0, 0x0, 0x0, 0x0, 0x0⟩,
  ⟨0x100030020, 8, 4, 0x0, 0x0, 0x0, 0xFFFFFFFF, 0x0⟩,
  ⟨0x100030040, 8, 4, 0x0, 0x0, 0xFFFFFFFF, 0x0, 0x0⟩,
  ⟨0x100030100, 72, 4, 0x0, 0x0, 0x0, 0x0, 0x0⟩,
  ⟨0x100030300, 72, 4, 0x0, 0x0, 0x0, 0xFFFFFFFF, 0x0⟩,
  ⟨0x100030500, 72, 4, 0x0, 0x0, 0xFFFFFFFF, 0x0, 0x0⟩,
  ⟨0x100030700, 9, 4, 0x0, 0xFF00FFFF, 0x0, 0x0, 0x0⟩,
  ⟨0x100030740, 9, 4, 0x0, 0x0, 0x0, 0x0, 0x0⟩,
  ⟨0x100030780, 1, 4, 0x0, 0x1, 0x0, 0x0, 0x0⟩,
  ⟨0x100030784, 1, 4, 0x0, 0x0, 0x0, 0x0, 0x0⟩,
  ⟨0x100030800, 16, 4, 0x0, 0x7FF, 0x0, 0x0, 0x0⟩,
  ⟨0x100030900, 1, 4, 0x0, 0x7, 0x0, 0x0, 0x0⟩,
  ⟨0x100030A00, 72, 4, 0x0, 0x0, 0x0, 0x0, 0x0⟩
]

def rows_10004 : List RegRow := [
  ⟨0x100040000, 32, 64, 0x20020000, 0xFFFFFCF0, 0x0, 0x0, 0x0⟩,
  ⟨0x100040004, 32, 64, 0x0, 0x0, 0x7F, 0x0, 0x0⟩,
  ⟨0x100040008, 32, 64, 0x0, 0xFFFFFFFF, 0x0, 0x0, 0x0⟩,
  ⟨0x10004000C, 32, 64, 0x0, 0xFFFFFFFF, 0x0, 0x0, 0x0⟩,
  ⟨0x100040010, 32, 64, 0x0, 0xFFFFFFFF, 0x0, 0x0, 0x0⟩,
  ⟨0x100040014, 32, 64, 0x0, 0xFFFFFFFF, 0x0, 0x0, 0x0⟩,
  ⟨0x100040018, 32, 64, 0x0, 0xFFFFFFFF, 0x0, 0x0, 0x0⟩,
  ⟨0x10004001C, 32, 64, 0x0, 0xFFFFFFFF, 0x0, 0x0, 0x0⟩,
  ⟨0x100040020, 32, 64, 0x0, 0xFFFFFFFF, 0x0, 0x0, 0x0⟩,
  ⟨0x100040024, 32, 64, 0x0, 0xFFFFFFFF, 0x0, 0x0, 0x0⟩,
  ⟨0x100040028, 32, 64, 0x0, 0x0, 0x0, 0x0, 0x0⟩,
  ⟨0x10004002C, 32, 64, 0x0, 0x0, 0x0, 0x0, 0x0⟩,
  ⟨0x100040030, 32, 64, 0x10000, 0xFFFFFFFF, 0x0, 0x0, 0x0⟩,
  ⟨0x100040034, 32, 64, 0x0, 0x0, 0x0, 0x0, 0x0⟩,
  ⟨0x100040800, 1, 4, 0x0, 0x0, 0x0, 0x0, 0x0⟩,
  ⟨0x100040804, 1, 4, 0x0, 0x0, 0x0, 0x0, 0x0⟩,
  ⟨0x100040808, 1, 4, 0x0, 0x0, 0x0, 0x0, 0x0⟩,
  ⟨0x10004080C, 1, 4, 0x0, 0xFF, 0x0, 0x0, 0x0⟩
]

def rows_10005 : List RegRow := [
  ⟨0x100050000, 64, 4, 0x0, 0x0, 0x0, 0x0, 0x0⟩,
  ⟨0x100050100, 64, 4, 0x0, 0x0, 0x0, 0x0, 0x0⟩,
  ⟨0x100050200, 32, 4, 0x0, 0x0, 0x0, 0x0, 0x0⟩,
  ⟨0x100050280, 32, 4, 0x0, 0x0, 0x0, 0x0, 0x0⟩,
  ⟨0x100050300, 32, 4, 0x0, 0x80000000, 0x0, 0x0, 0x0⟩,
  ⟨0x100050400, 1, 4, 0x1000, 0xFFFFFF, 0x0, 0x0, 0x0⟩,
  ⟨0x100050404, 1, 4, 0x0, 0x0, 0x1FFFF, 0x0, 0x0⟩,
  ⟨0x100050500, 8, 16, 0x0, 0x0, 0x0, 0x0, 0x0⟩,
  ⟨0x100050504, 8, 16, 0x0, 0x0, 0x0, 0x0, 0x0⟩,
  ⟨0x100050508, 8, 16, 0x0, 0x0, 0x0, 0x0, 0x0⟩,
  ⟨0x10005050C, 8, 16, 0x0, 0x0, 0x0, 0x0, 0x0⟩,
  ⟨0x100050600, 1, 4, 0x0, 0x0, 0x0, 0x0, 0xFFFFFFFF⟩,
  ⟨0x100050604, 1, 4, 0x0, 0x0, 0x0, 0x0, 0x0⟩
]

def rows_10006 : List RegRow := [
  ⟨0x100060000, 1, 4, 0x0, 0x0, 0x0, 0x0, 0x0⟩,
  ⟨0x100060004, 1, 4, 0x0, 0xFF000000, 0x0, 0x0, 0x0⟩,
  ⟨0x100060008, 1, 4, 0x0, 0xFFFFFFFF, 0x0, 0x0, 0x0⟩,
  ⟨0x10006000C, 1, 4, 0x0, 0x0, 0xE0000, 0x0, 0x0⟩,
  ⟨0x100060010, 1, 4, 0x0, 0x0, 0x0, 0x0, 0x0⟩,
  ⟨0x100060014, 1, 4, 0x0, 0x0, 0x0, 0x0, 0x0⟩,
  ⟨0x100060018, 1, 4, 0x0, 0x0, 0x0, 0x0, 0x0⟩,
  ⟨0x10006001C, 1, 4, 0x0, 0x0, 0x0, 0x0, 0x0⟩,
  ⟨0x100060020, 1, 4, 0x0, 0x0, 0x0, 0x0, 0x0⟩,
  ⟨0x100060100, 72, 4, 0x0, 0x0, 0x0, 0x0, 0x0⟩,
  ⟨0x100060300, 1, 4, 0x0, 0x0, 0x0, 0x0, 0x0⟩
]

def rows_10007 : List RegRow := [
  ⟨0x100070000, 1, 4, 0x0, 0x0, 0x0, 0x0, 0x0⟩,
  ⟨0x100070004, 1, 4, 0x0, 0x0, 0xE0000000, 0x0, 0x0⟩,
  ⟨0x100070008, 1, 4, 0x0, 0x1, 0x0, 0x0, 0x0⟩,
  ⟨0x10007000C, 1, 4, 0x0, 0x0, 0x0, 0x0, 0x0⟩,
  ⟨0x100070010, 1, 4, 0x0, 0x0, 0x0, 0x0, 0x0⟩,
  ⟨0x100070014, 1, 4, 0x0, 0x0, 0x0, 0x0, 0x0⟩,
  ⟨0x100070018, 2, 4, 0x0, 0x0, 0x0, 0x0, 0x0⟩,
  ⟨0x100070020, 1, 4, 0x0, 0xFFFFFF, 0x0, 0x0, 0x0⟩,
  ⟨0x100070024, 1, 4, 0x0, 0x0, 0x0, 0x0, 0xFFFFFFFF⟩,
  ⟨0x100070040, 8, 4, 0x0, 0xFFFFFFFF, 0x0, 0x0, 0x0⟩
]

def rows_10008 : List RegRow := [
  ⟨0x100080000, 328, 4, 0x0, 0x0, 0x0, 0x0, 0x0⟩,
  ⟨0x100080600, 8, 4, 0x0, 0x0, 0x0, 0x0, 0x0⟩,
  ⟨0x100080620, 8, 4, 0x0, 0x0, 0x0, 0x0, 0x0⟩,
  ⟨0x100080640, 8, 4, 0x0, 0x0, 0x0, 0x0, 0x0⟩,
  ⟨0x100080660, 8, 4, 0x0, 0x0, 0x0, 0x0, 0x0⟩,
  ⟨0x100080680, 8, 4, 0x0, 0x0, 0x0, 0x0, 0x0⟩,
  ⟨0x100080700, 8, 4, 0x0, 0xFFFFFFFF, 0x0, 0x0, 0x0⟩,
  ⟨0x100080720, 1, 4, 0x0, 0x0, 0x0, 0x0, 0x0⟩,
  ⟨0x100080724, 1, 4, 0x0, 0x0, 0x60000000, 0x0, 0x0⟩,
  ⟨0x100081000, 669, 4, 0x0, 0x0, 0x0, 0x0, 0x0⟩
]

def rows_10009 : List RegRow := [
  ⟨0x100094000, 1, 4, 0x0, 0xFFF, 0x0, 0x0, 0x0⟩,
  ⟨0x100094004, 1, 4, 0x40, 0xF00003FF, 0x0, 0x0, 0x0⟩,
  ⟨0x100094008, 1, 4, 0x0, 0x0, 0x0, 0x0, 0x0⟩,
  ⟨0x10009400C, 1, 4, 0x0, 0x0, 0x0, 0x0, 0x0⟩,
  ⟨0x100094010, 1, 4, 0x0, 0x0, 0x0, 0x0, 0xFFFFFFFF⟩,
  ⟨0x100094014, 1, 4, 0x0, 0x0, 0x0, 0x0, 0xFFFFFFFF⟩,
  ⟨0x100094018, 1, 4, 0x0, 0x0, 0x0, 0x0, 0xFFFFFFFF⟩,
  ⟨0x10009401C, 1, 4, 0x0, 0x0, 0x0, 0x0, 0xFFFFFFFF⟩,
  ⟨0x100094020, 1, 4, 0x0, 0x0, 0x0, 0x0, 0xFFFFFFFF⟩,
  ⟨0x100094024, 1, 4, 0x0, 0x0, 0x0, 0x0, 0x0⟩,
  ⟨0x100094028, 1, 4, 0x0, 0x0, 0x0, 0x0, 0x0⟩,
  ⟨0x10009402C, 1, 4, 0x0, 0x0, 0x0, 0x0, 0xFFFFFFFF⟩,
  ⟨0x100094100, 128, 4, 0x0, 0x0, 0x0, 0x0, 0x0⟩,
  ⟨0x100094300, 128, 4, 0x0, 0x0, 0xFFFFFFFF, 0x0, 0x0⟩,
  ⟨0x100095000, 1, 4, 0x0, 0x13F, 0x0, 0x0, 0x0⟩,
  ⟨0x100095004, 1, 4, 0x0, 0x0, 0x0, 0x0, 0xFFFFFFFF⟩,
  ⟨0x100095008, 1, 4, 0x0, 0x0, 0x0, 0x0, 0xFFFFFFFF⟩,
  ⟨0x10009500C, 1, 4, 0x0, 0x0, 0x0, 0x0, 0x0⟩,
  ⟨0x100095010, 1, 4, 0x0, 0x0, 0x0, 0x0, 0xFFFFFFFF⟩,
  ⟨0x100095014, 1, 4, 0x0, 0x0, 0x0, 0x0, 0xFFFFFFFF⟩,
  ⟨0x100095018, 1, 4, 0x0, 0x0, 0x0, 0x0, 0xFFFFFFFF⟩,
  ⟨0x10009501C, 1, 4, 0x0, 0x80000007, 0x0, 0x0, 0x0⟩,
  ⟨0x100095020, 1, 4, 0x0, 0x0, 0x1F, 0x0, 0x0⟩,
  ⟨0x100095030, 1, 4, 0x0, 0x37FFF, 0x0, 0x0, 0x0⟩,
  ⟨0x100095034, 4, 4, 0x0, 0xFFFFFFFF, 0x0, 0x0, 0x0⟩,
  ⟨0x100096000, 1, 4, 0x3E8, 0xFFFF, 0x80000000, 0x0, 0x0⟩,
  ⟨0x100096004, 1, 4, 0x8000200, 0x3FFF3FFF, 0x0, 0x0, 0x0⟩,
  ⟨0x100096008, 1, 4, 0x0, 0x0, 0x0, 0x0, 0x0⟩,
  ⟨0x10009600C, 1, 4, 0x0, 0x0, 0x0, 0x0, 0xFFFFFFFF⟩,
  ⟨0x100096010, 1, 4, 0x0, 0x0, 0x0, 0x0, 0xFFFFFFFF⟩,
  ⟨0x100096014, 1, 4, 0x0, 0x0, 0x0, 0x0, 0xFFFFFFFF⟩,
  ⟨0x100090000, 1, 4, 0x0, 0x0, 0x0, 0x0, 0x0⟩,
  ⟨0x100090004, 1, 4, 0x140003, 0xFFFF0003, 0x0, 0x0, 0x0⟩,
  ⟨0x100090008, 1, 4, 0x0, 0x0, 0x0, 0x0, 0x0⟩,
  ⟨0x10009000C, 1, 4, 0x0, 0x0, 0x0, 0x0, 0xFFFFFFFF⟩,
  ⟨0x100090010, 1, 4, 0x0, 0x0, 0x0, 0x0, 0xFFFFFFFF⟩,
  ⟨0x100090014, 1, 4, 0x0, 0x0, 0x0, 0x0, 0xFFFFFFFF⟩,
  ⟨0x100090018, 1, 4, 0x0, 0x0, 0x0, 0x0, 0xFFFFFFFF⟩,
  ⟨0x10009001C, 1, 4, 0x0, 0x0, 0x0, 0x0, 0xFFFFFFFF⟩,
  ⟨0x100090020, 1, 4, 0x0, 0x0, 0xC0000001, 0x0, 0x0⟩,
  ⟨0x100092000, 256, 16, 0x0, 0x0, 0x20000000, 0x0, 0x0⟩,
  ⟨0x100092004, 256, 16, 0x0, 0x0, 0x0, 0x0, 0x0⟩,
  ⟨0x100092008, 256, 16, 0x0, 0x0, 0x0, 0x0, 0x0⟩,
  ⟨0x10009200C, 256, 16, 0x0, 0x0, 0x0, 0x0, 0xFFFFFFFF⟩,
  ⟨0x100093000, 8, 4, 0x0, 0x0, 0xFFFFFFFF, 0x0, 0x0⟩,
  ⟨0x100098000, 256, 32, 0x0, 0xFFFF0FFF, 0x0, 0x0, 0x0⟩,
  ⟨0x100098004, 256, 32, 0x0, 0xFFFFF7FF, 0x0, 0x0, 0x0⟩,
  ⟨0x100098008, 256, 32, 0x3F800000, 0xFFFFFFFF, 0x0, 0x0, 0x0⟩,
  ⟨0x10009800C, 256, 32, 0x0, 0xFFFFFFFF, 0x0, 0x0, 0x0⟩,
  ⟨0x100098010, 256, 32, 0x0, 0xFFFFFFFF, 0x0, 0x0, 0x0⟩,
  ⟨0x100098014, 256, 32, 0x0, 0xFFFFFFFF, 0x0, 0x0, 0x0⟩,
  ⟨0x100098018, 256, 32, 0x0, 0xFFFFFFDF, 0x0, 0x0, 0x0⟩,
  ⟨0x10009801C, 256, 32, 0x0, 0x0, 0x0, 0x0, 0xFFFFFFFF⟩,
  ⟨0x10009A000, 256, 32, 0x0, 0xFFEFFFFF, 0x0, 0x0, 0x0⟩,
  ⟨0x10009A004, 256, 32, 0x0, 0xFFF0FFF, 0x0, 0x0, 0x0⟩,
  ⟨0x10009A008, 256, 32, 0x0, 0xFFFFFFFF, 0x0, 0x0, 0x0⟩,
  ⟨0x10009A00C, 256, 32, 0x64, 0xFFFF, 0x0, 0x0, 0x0⟩,
  ⟨0x10009A010, 256, 32, 0x0, 0x0, 0x0, 0x0, 0xFFFFFFFF⟩,
  ⟨0x10009A014, 256, 32, 0x0, 0x0, 0x0, 0x0, 0xFFFFFFFF⟩,
  ⟨0x10009A018, 256, 32, 0x0, 0x0, 0x0, 0x0, 0xFFFFFFFF⟩,
  ⟨0x10009C000, 128, 4, 0x0, 0xFFFFFFFF, 0x0, 0x0, 0x0⟩,
  ⟨0x10009C200, 1, 4, 0x0, 0x0, 0x0, 0x0, 0xFFFFFFFF⟩,
  ⟨0x10009C204, 1, 4, 0x0, 0x0, 0x0, 0x0, 0xFFFFFFFF⟩,
  ⟨0x10009C208, 1, 4, 0x0, 0x0, 0xF, 0x0, 0x0⟩,
  ⟨0x100096100, 1, 4, 0x0, 0xE0FFFFFF, 0x0, 0x0, 0x0⟩,
  ⟨0x100096104, 3, 4, 0x0, 0xFFFFFFFF, 0x0, 0x0, 0x0⟩,
  ⟨0x100096110, 1, 4, 0x0, 0x0, 0x0, 0x0, 0x0⟩,
  ⟨0x100096114, 1, 4, 0x0, 0x0, 0x0, 0x0, 0xFFFFFFFF⟩,
  ⟨0x100096118, 1, 4, 0x0, 0x0, 0x0, 0x0, 0x0⟩
]

def rows_1000A : List RegRow := [
  ⟨0x1000A0000, 1, 4, 0x0, 0x0, 0x0, 0x0, 0x0⟩,
  ⟨0x1000A0004, 1, 4, 0x0, 0x0, 0xC00E0000, 0x0, 0x0⟩,
  ⟨0x1000A0008, 1, 4, 0x0, 0xFFFFFFFF, 0x0, 0x0, 0x0⟩,
  ⟨0x1000A000C, 1, 4, 0x0, 0xFF, 0x0, 0x0, 0x0⟩,
  ⟨0x1000A0010, 1, 4, 0x0, 0xFFFF0FFF, 0x0, 0x0, 0x0⟩,
  ⟨0x1000A0014, 1, 4, 0x0, 0xFFFFFFFF, 0x0, 0x0, 0x0⟩,
  ⟨0x1000A0018, 1, 4, 0x0, 0xFFFF8000, 0x0, 0x0, 0x0⟩,
  ⟨0x1000A001C, 1, 4, 0x0, 0xFFFFFFFF, 0x0, 0x0, 0x0⟩,
  ⟨0x1000A0020, 1, 4, 0x0, 0xFF, 0x0, 0x0, 0x0⟩,
  ⟨0x1000A0024, 1, 4, 0x0, 0xFFFFFFFF, 0x0, 0x0, 0x0⟩,
  ⟨0x1000A0028, 1, 4, 0x0, 0xFF, 0x0, 0x0, 0x0⟩,
  ⟨0x1000A002C, 1, 4, 0x0, 0xFFFFFFFF, 0x0, 0x0, 0x0⟩,
  ⟨0x1000A0030, 1, 4, 0x0, 0xFF, 0x0, 0x0, 0x0⟩,
  ⟨0x1000A0034, 1, 4, 0x0, 0x1FFFFFF, 0x0, 0x0, 0x0⟩,
  ⟨0x1000A0038, 1, 4, 0x0, 0xFFFFFFFF, 0x0, 0x0, 0x0⟩,
  ⟨0x1000A003C, 1, 4, 0x0, 0x1F000FFF, 0x0, 0x0, 0x0⟩,
  ⟨0x1000A0040, 1, 4, 0x0, 0xFFFFFFFF, 0x0, 0x0, 0x0⟩,
  ⟨0x1000A0044, 1, 4, 0x0, 0xFFFFFFFF, 0x0, 0x0, 0x0⟩,
  ⟨0x1000A0048, 1, 4, 0x0, 0x0, 0x0, 0x0, 0x0⟩,
  ⟨0x1000A004C, 1, 4, 0x0, 0x0, 0x0, 0x0, 0xFFFFFFFF⟩,
  ⟨0x1000A0050, 1, 4, 0x0, 0x0, 0x0, 0x0, 0xFFFFFFFF⟩,
  ⟨0x1000A1000, 4, 256, 0x0, 0x0, 0x0, 0x0, 0x0⟩,
  ⟨0x1000A1004, 4, 256, 0x0, 0x0, 0x88000000, 0x0, 0x0⟩,
  ⟨0x1000A1008, 4, 256, 0x0, 0xFFFFFFFF, 0x0, 0x0, 0x0⟩,
  ⟨0x1000A100C, 4, 256, 0x0, 0xFF, 0x0, 0x0, 0x0⟩,
  ⟨0x1000A1010, 4, 256, 0x0, 0xFFFFFFFF, 0x0, 0x0, 0x0⟩,
  ⟨0x1000A1014, 4, 256, 0x0, 0xFF, 0x0, 0x0, 0x0⟩,
  ⟨0x1000A1018, 4, 256, 0x0, 0xFFFFFFFF, 0x0, 0x0, 0x0⟩,
  ⟨0x1000A101C, 4, 256, 0x0, 0xFF, 0x0, 0x0, 0x0⟩,
  ⟨0x1000A1020, 4, 256, 0x0, 0xFFF0FFF, 0x0, 0x0, 0x0⟩,
  ⟨0x1000A1024, 4, 256, 0xA, 0xFF80FFFF, 0x0, 0x0, 0x0⟩,
  ⟨0x1000A1028, 4, 256, 0x3F800000, 0xFFFFFFFF, 0x0, 0x0, 0x0⟩,
  ⟨0x1000A102C, 4, 256, 0x0, 0x0, 0x0, 0x0, 0xFFFFFFFF⟩,
  ⟨0x1000A1030, 4, 256, 0x0, 0x0, 0x0, 0x0, 0xFFFFFFFF⟩,
  ⟨0x1000A1034, 4, 256, 0x0, 0x0, 0x0, 0x0, 0xFFFFFFFF⟩,
  ⟨0x1000A1038, 4, 256, 0x0, 0x0, 0x0, 0x0, 0xFFFFFFFF⟩,
  ⟨0x1000A103C, 4, 256, 0x0, 0x0, 0x0, 0x0, 0xFFFFFFFF⟩
]

def rows_1000B : List RegRow := [
  ⟨0x1000B0000, 1, 4, 0x0, 0x0, 0x0, 0x0, 0x0⟩,
  ⟨0x1000B1000, 12, 256, 0x0, 0xFFFFFF, 0x0, 0x0, 0x0⟩,
  ⟨0x1000B1004, 12, 256, 0x64000A, 0xFFFFFFFF, 0x0, 0x0, 0x0⟩,
  ⟨0x1000B1008, 12, 256, 0x0, 0x0, 0x0, 0x0, 0x0⟩,
  ⟨0x1000B100C, 12, 256, 0x0, 0x0, 0x0, 0x0, 0xFFFFFFFF⟩,
  ⟨0x1000B1010, 12, 256, 0x0, 0x0, 0x0, 0x0, 0xFFFFFFFF⟩,
  ⟨0x1000B1014, 12, 256, 0x0, 0x0, 0x0, 0x0, 0xFFFFFFFF⟩,
  ⟨0x1000B1018, 12, 256, 0x0, 0x0, 0x0, 0x0, 0xFFFFFFFF⟩,
  ⟨0x1000B101C, 12, 256, 0x0, 0x0, 0x0, 0x0, 0xFFFFFFFF⟩,
  ⟨0x1000B1020, 12, 256, 0x0, 0x0, 0x0, 0x0, 0xFFFFFFFF⟩,
  ⟨0x1000B1024, 12, 256, 0x0, 0x0, 0x0, 0x0, 0xFFFFFFFF⟩,
  ⟨0x1000B1028, 12, 256, 0x0, 0x0, 0x0, 0x0, 0xFFFFFFFF⟩,
  ⟨0x1000B102C, 12, 256, 0x0, 0x0, 0x0, 0x0, 0xFFFFFFFF⟩,
  ⟨0x1000B1030, 12, 256, 0x0, 0x0, 0x0, 0x0, 0xFFFFFFFF⟩,
  ⟨0x1000B1034, 12, 256, 0x0, 0x0, 0x0, 0x0, 0xFFFFFFFF⟩,
  ⟨0x1000B1038, 12, 256, 0x0, 0x0, 0x7FF, 0x0, 0x0⟩,
  ⟨0x1000B103C, 12, 256, 0x0, 0x0, 0x0, 0x0, 0xFFFFFFFF⟩,
  ⟨0x1000B1040, 12, 256, 0x3E8, 0xFFFF, 0x80000000, 0x0, 0x0⟩,
  ⟨0x1000B1044, 12, 256, 0x0, 0x0, 0x0, 0x0, 0xFFFFFFFF⟩,
  ⟨0x1000B1048, 12, 256, 0x0, 0x0, 0x0, 0x0, 0xFFFFFFFF⟩,
  ⟨0x1000B104C, 12, 256, 0x0, 0x0, 0x0, 0x0, 0xFFFFFFFF⟩
]

def rows_1000C : List RegRow := [
  ⟨0x1000C0000, 1, 4, 0x0, 0x80000000, 0x0, 0x0, 0x0⟩,
  ⟨0x1000C0004, 1, 4, 0x0, 0x0, 0x0, 0x0, 0x0⟩,
  ⟨0x1000C0008, 1, 4, 0x0, 0x0, 0x0, 0x0, 0x0⟩,
  ⟨0x1000C000C, 1, 4, 0x0, 0x0, 0x0, 0x0, 0x0⟩,
  ⟨0x1000C0010, 1, 4, 0x0, 0xFFFF, 0x0, 0x0, 0x0⟩,
  ⟨0x1000C0100, 24, 4, 0x0, 0x0, 0x0, 0x0, 0xFFFFFFFF⟩
]

def rows_1000D : List RegRow := [
  ⟨0x1000D0000, 8, 64, 0x0, 0x0, 0xE, 0x0, 0x0⟩,
  ⟨0x1000D0004, 8, 64, 0x0, 0x0, 0x0, 0x0, 0x0⟩,
  ⟨0x1000D0008, 8, 64, 0x0, 0x0, 0x0, 0x0, 0x0⟩,
  ⟨0x1000D000C, 8, 64, 0x0, 0x0, 0x0, 0x0, 0x0⟩,
  ⟨0x1000D0010, 8, 64, 0x0, 0x0, 0x0, 0x0, 0x0⟩,
  ⟨0x1000D0014, 8, 64, 0x0, 0x0, 0x0, 0x0, 0x0⟩,
  ⟨0x1000D0018, 8, 64, 0x0, 0x0, 0x0, 0x0, 0xFFFFFFFF⟩,
  ⟨0x1000D001C, 8, 64, 0x0, 0x0, 0x0, 0x0, 0xFFFFFFFF⟩,
  ⟨0x1000D0020, 8, 64, 0x0, 0x0, 0x0, 0x0, 0xFFFFFFFF⟩,
  ⟨0x1000D0024, 8, 64, 0x0, 0x0, 0x0, 0x0, 0xFFFFFFFF⟩,
  ⟨0x1000D0028, 8, 64, 0x0, 0x0, 0x0, 0x0, 0xFFFFFFFF⟩,
  ⟨0x1000D002C, 8, 64, 0x0, 0x0, 0x0, 0x0, 0xFFFFFFFF⟩,
  ⟨0x1000D0030, 8, 64, 0x0, 0x0, 0x0, 0x0, 0xFFFFFFFF⟩,
  ⟨0x1000D0034, 8, 64, 0x0, 0x0, 0x0, 0x0, 0xFFFFFFFF⟩,
  ⟨0x1000D0400, 1, 4, 0x64, 0xFFFF, 0x0, 0x0, 0x0⟩,
  ⟨0x1000D0404, 1, 4, 0x0, 0x0, 0x0, 0x0, 0x0⟩,
  ⟨0x1000D0408, 1, 4, 0x0, 0x0, 0x0, 0x0, 0x0⟩,
  ⟨0x1000D0500, 64, 4, 0x0, 0x0, 0x0, 0x0, 0x0⟩,
  ⟨0x1000D0600, 1, 4, 0x0, 0x3F, 0x0, 0x0, 0x0⟩,
  ⟨0x1000D0604, 1, 4, 0x0, 0xFFFFFFFF, 0x0, 0x0, 0x0⟩,
  ⟨0x1000D0608, 1, 4, 0x0, 0xFF, 0x0, 0x0, 0x0⟩,
  ⟨0x1000D060C, 1, 4, 0x0, 0xFFFFFFFF, 0x0, 0x0, 0x0⟩,
  ⟨0x1000D0610, 1, 4, 0x0, 0x8000003F, 0x0, 0x0, 0x0⟩,
  ⟨0x1000D0700, 1, 4, 0x0, 0x0, 0x0, 0x0, 0x0⟩,
  ⟨0x1000D0704, 1, 4, 0x0, 0x0, 0xC0000000, 0x0, 0x0⟩,
  ⟨0x1000D0708, 1, 4, 0x0, 0xFFFFFFFF, 0x0, 0x0, 0x0⟩,
  ⟨0x1000D070C, 1, 4, 0x0, 0xFFFFFFFF, 0x0, 0x0, 0x0⟩,
  ⟨0x1000D0710, 1, 4, 0x0, 0x0, 0x0, 0x0, 0x0⟩,
  ⟨0x1000D0714, 1, 4, 0x0, 0x0, 0x0, 0x0, 0x0⟩,
  ⟨0x1000D0718, 1, 4, 0x0, 0x0, 0x0, 0x0, 0x0⟩,
  ⟨0x1000D071C, 1, 4, 0x0, 0x0, 0x0, 0x0, 0x0⟩,
  ⟨0x1000D0720, 1, 4, 0x0, 0xFFFFFFFF, 0x0, 0x0, 0x0⟩,
  ⟨0x1000D0724, 1, 4, 0x0, 0xFFFFFFFF, 0x0, 0x0, 0x0⟩,
  ⟨0x1000D0728, 1, 4, 0x0, 0xFFFFFFFF, 0x0, 0x0, 0x0⟩,
  ⟨0x1000D0800, 64, 16, 0x0, 0xFFFFFFFF, 0x0, 0x0, 0x0⟩,
  ⟨0x1000D0804, 64, 16, 0x0, 0xFFFF, 0x0, 0x0, 0x0⟩,
  ⟨0x1000D0808, 64, 16, 0x0, 0xFFFFFFFF, 0x0, 0x0, 0x0⟩,
  ⟨0x1000D080C, 64, 16, 0x0, 0xFFFFFFFF, 0x0, 0x0, 0x0⟩,
  ⟨0x1000D8000, 8192, 4, 0x0, 0xFFFFFFFF, 0x0, 0x0, 0x0⟩
]

def rows_1000E : List RegRow := [
  ⟨0x1000E0000, 1, 4, 0x0, 0x0, 0x0, 0x0, 0x0⟩,
  ⟨0x1000E0004, 1, 4, 0x0, 0x0, 0x1B0000, 0x0, 0x0⟩,
  ⟨0x1000E0008, 1, 4, 0x0, 0xFFFFFFFF, 0x0, 0x0, 0x0⟩,
  ⟨0x1000E000C, 1, 4, 0x0, 0xFF, 0x0, 0x0, 0x0⟩,
  ⟨0x1000E0010, 1, 4, 0x2710, 0xFFFFFFFF, 0x0, 0x0, 0x0⟩,
  ⟨0x1000E0014, 1, 4, 0x0, 0x0, 0x0, 0x0, 0x0⟩,
  ⟨0x1000E0018, 1, 4, 0x0, 0x0, 0x0, 0x0, 0x0⟩,
  ⟨0x1000E001C, 1, 4, 0x0, 0x0, 0x0, 0x0, 0xFFFFFFFF⟩,
  ⟨0x1000E0100, 72, 4, 0x0, 0x0, 0x0, 0x0, 0x0⟩,
  ⟨0x1000E0300, 72, 4, 0x0, 0x0, 0x0, 0x0, 0x0⟩,
  ⟨0x1000E0500, 128, 4, 0x0, 0xFFFFFFFF, 0x0, 0x0, 0x0⟩,
  ⟨0x1000E0800, 8, 4, 0x0, 0x0, 0x0, 0x0, 0x0⟩
]

def rows_1000F : List RegRow := [
  ⟨0x1000F0000, 16, 4, 0x110, 0x1333, 0x0, 0x0, 0x0⟩,
  ⟨0x1000F0040, 1, 4, 0x0, 0xFFFF, 0x0, 0x0, 0x0⟩,
  ⟨0x1000F0044, 1, 4, 0x0, 0x0, 0x0, 0xFFFFFFFF, 0x0⟩,
  ⟨0x1000F0048, 1, 4, 0x0, 0x0, 0xFFFFFFFF, 0x0, 0x0⟩,
  ⟨0x1000F004C, 1, 4, 0x0, 0x0, 0x0, 0x0, 0x0⟩,
  ⟨0x1000F0100, 1, 4, 0x0, 0x1, 0x0, 0x0, 0x0⟩,
  ⟨0x1000F0104, 1, 4, 0x0, 0x0, 0x0, 0x0, 0xFFFFFFFF⟩,
  ⟨0x1000F0108, 1, 4, 0x0, 0x0, 0x0, 0x0, 0x0⟩,
  ⟨0x1000F010C, 1, 4, 0x0, 0x0, 0x0, 0x0, 0xFFFFFFFF⟩,
  ⟨0x1000F0110, 1, 4, 0x20000, 0x1F0000, 0x1F, 0x0, 0x0⟩
]

def rows_10100 : List RegRow := [
  ⟨0x101000000, 65536, 16, 0x0, 0xC11F0000, 0x10000000, 0x0, 0x0⟩,
  ⟨0x101000004, 65536, 16, 0x0, 0xFFFFFFFF, 0x0, 0x0, 0x0⟩,
  ⟨0x101000008, 65536, 16, 0x0, 0xFFFFFFFF, 0x0, 0x0, 0x0⟩,
  ⟨0x10100000C, 65536, 16, 0x0, 0x0, 0x0, 0x0, 0x0⟩
]

/-- The rows of the 64 KiB block that an address lies in: a register block of Table 1-2, or the tables and registers of a
station window (offsets 0x6_0000 and 0x7_0000). -/
def regRows (blk : Nat) : List RegRow :=
  if blk = 0x6 then rows_6
  else if blk = 0x7 then rows_7
  else if blk = 0x10000 then rows_10000
  else if blk = 0x10001 then rows_10001
  else if blk = 0x10002 then rows_10002
  else if blk = 0x10003 then rows_10003
  else if blk = 0x10004 then rows_10004
  else if blk = 0x10005 then rows_10005
  else if blk = 0x10006 then rows_10006
  else if blk = 0x10007 then rows_10007
  else if blk = 0x10008 then rows_10008
  else if blk = 0x10009 then rows_10009
  else if blk = 0x1000A then rows_1000A
  else if blk = 0x1000B then rows_1000B
  else if blk = 0x1000C then rows_1000C
  else if blk = 0x1000D then rows_1000D
  else if blk = 0x1000E then rows_1000E
  else if blk = 0x1000F then rows_1000F
  else if blk = 0x10100 then rows_10100
  else []

/-- Whether an address is one of a row's registers. -/
def RegRow.covers (r : RegRow) (a : Nat) : Bool :=
  r.base ≤ a && (a - r.base) % r.stride == 0 && (a - r.base) / r.stride < r.count

/-- The row of an address.  The 65,536 Blocks (R301) lie in one range of sixteen 64 KiB parts. -/
def regRow (a : Nat) : Option RegRow :=
  let blk := if 0x0101000000 ≤ a ∧ a < 0x0101100000 then 0x10100 else a / 0x10000
  (regRows blk).find? (·.covers a)

/-- The value an unwritten register reads as: the Reset column of its table (R10); reserved space reads as zero (R9). -/
def regDflt (a : Nat) : Word :=
  match regRow a with
  | some r => BitVec.ofNat 32 r.reset
  | none => 0

end Sys2Proof.Machine
end

