-- ==== Sys2Proof/Machine/State.lean ====
section
/-! DEFINITION. The state of the block: everything the spec gives it, as plain data, the queue of waiting commands, and the
state after reset. -/

namespace Sys2Proof.Machine

/-- Reasons the block could stop with a fault.  No command raises one: every access the spec turns away ends on its own
path, with a status. -/
inductive Fault where
  /-- Raised by nothing; kept so that the type is inhabited.  Safe. -/
  | never
deriving DecidableEq, Repr

/-- Reasons a command could be refused by the model. -/
inductive Refusal where
  /-- Raised by an arm of exec for a command that has no meaning yet.  Safe. -/
  | notModelled (mnemonic : String)
deriving DecidableEq, Repr

/-- How an access ended on its path: done, Completer Abort (R25, R43), the unmapped-address status (R15), or, for a core,
an access fault (R273, R274). -/
inductive Status where
  | ok | abort | unmapped | fault
deriving DecidableEq, Repr

/-- The completion a master last received: its status and the words read. -/
structure Compl where
  status : Status
  data : List Word
deriving DecidableEq, Repr

/-! ### Signal Box -/

/-- An access on which a core is blocked: a push of a channel entry, a push of the entry that core `owner` parked (R296), a
pop (R293), or an access that Freight carries out (R275) or that waits for a Depot bank under test (R287), by its number and
the moment it began, at a core address, of a width in bytes.  Channels 0 to 31 are REQ, 32 to 63 are RPY. -/
inductive Blocked where
  | push (ch : Nat) (entry : BitVec 64)
  | retry (owner ch : Nat) (entry : BitVec 64)
  | pop (ch : Nat)
  | freight (id : Nat) (wr : Bool) (ca : Word) (width : Nat) (since : Nat)
deriving DecidableEq, Repr

/-- A core of the Signal Box (R271): program counter, integer registers, the machine-mode CSRs with SBWIN (R275), mode, and
what SYS_SB_STATE shows of it (R276).  Its local memories stand in `Dev.coreMem`. -/
structure Core where
  pc : Word
  xregs : PMap Word
  mstatus : Word
  mie : Word
  mtvec : Word
  mscratch : Word
  mepc : Word
  mcause : Word
  mtval : Word
  sbwin : Word
  machine : Bool
  running : Bool
  wfi : Bool
  verified : Bool
  verifyFail : Bool
  halted : Bool
  blocked : Option Blocked
deriving DecidableEq, Repr

/-- A core at its reset vector (R271), held in reset (R272).  mstatus, mie and the other CSRs are zero (log entry 4). -/
def Core.init (n : Nat) : Core :=
  { pc := if n = 0 then 0x30000000#32 else 0x30100000#32, xregs := [], mstatus := 0, mie := 0, mtvec := 0,
    mscratch := 0, mepc := 0, mcause := 0, mtval := 0, sbwin := 0, machine := true, running := false,
    wfi := false, verified := false, verifyFail := false, halted := false, blocked := none }

/-- A Signal DMA descriptor in the Interchange descriptor queue (R282, R283): its number, the submitting core, its words,
whether its transactions have been started, how many have still to end, its RESULT so far, and the trunk device of a
remote one (R406). -/
structure SdmaDesc where
  id : Nat
  core : Nat
  words : List Word
  started : Bool
  left : Nat
  result : Nat
  remote : Option Nat
deriving DecidableEq, Repr

/-- The requested run of the march engine (R286, R289): the units it tests (ranks' mesh positions, banks or tables), the
moment it began to run, the algorithm, and whether a transparent run is to stop at its next restoring element. -/
structure MarchRun where
  target : Nat
  units : List Nat
  alg : Nat
  repair : Bool
  began : Nat
  stopping : Bool
deriving DecidableEq, Repr

/-! ### Timers -/

/-- What the registers of a timer channel do not hold (R316 to R325): the 64-bit values, the prescaler accumulator, the
shadows, the output, and whether a power state stopped it. -/
structure Timer where
  count : BitVec 64
  period : BitVec 64
  phase : BitVec 64
  cmp : BitVec 64
  cap : BitVec 64
  acc : Nat
  running : Bool
  step : Bool
  perShadow : Option (BitVec 64)
  capShadow : Option (BitVec 64)
  out : Bool
  slept : Bool
deriving DecidableEq, Repr

def Timer.init : Timer :=
  { count := 0, period := 0, phase := 0, cmp := 0, cap := 0, acc := 0, running := false, step := false,
    perShadow := none, capShadow := none, out := false, slept := false }

/-! ### Interrupts -/

/-- The interrupt aggregator (R307 to R314): pending bits, enables by target, and for each target the set D_t it last had,
the sources that entered it and when the first did, the lines, the sources the host was told of, the maps of the
station kinds by station (keyed kind × 4096 + mesh position), the outputs of the pin filters, and for how many idle steps each
pin has shown the other level (R310). -/
structure Irq where
  pend : BitVec 256
  en : PMap (BitVec 256)
  lastD : PMap (BitVec 256)
  entered : PMap Nat
  enteredAt : PMap Nat
  line : BitVec 9
  told : BitVec 256
  stnMap : PMap Bool
  pinOut : BitVec 16
  pinSeen : PMap Nat
deriving DecidableEq, Repr

def Irq.init : Irq :=
  { pend := 0, en := [], lastD := [], entered := [], enteredAt := [], line := 0, told := 0, stnMap := [], pinOut := 0, pinSeen := [] }

/-- The message channels (R291 to R299): entries (0 to 31 REQ, 32 to 63 RPY), PEAK, the core served last, and each core's
staging, latch and park registers. -/
structure Chn where
  entries : PMap (List (BitVec 64))
  peak : PMap Nat
  lastServed : PMap Nat
  stage : PMap Word
  latch : PMap Word
deriving DecidableEq, Repr

def Chn.init : Chn := { entries := [], peak := [], lastServed := [], stage := [], latch := [] }

/-! ### Token Office, voltage, power, bring-up, resets -/

/-- A request queued at the Token Office (R343): requester, class, the costs it is charged, and when it arrived.
Requesters 0 to 11 are the streamers, 12 the quantiser, 13 to 16 the projection units, 17 the XCH ratio controller,
18 the loader, 19 the training engine, 20 the march engine, 21 the AVSBus host. -/
structure TokReq where
  req : Nat
  cls : Nat
  cost : Word
  at_ : Nat
deriving DecidableEq, Repr

/-- The Token Office (R343, R345): the requests that wait, in the order of their coming, and the grants that are held. -/
structure Tok where
  queue : List TokReq
  grants : List TokReq
deriving DecidableEq, Repr

def Tok.init : Tok := { queue := [], grants := [] }

/-- A movement of VDD_FAB (R347): the goal, and the step being made, if one is: its voltage, whether it waits for its
grant, and the frames retried. -/
structure Vfab where
  goal : Nat
  stepTo : Option Nat
  waiting : Bool
  retries : Nat
deriving DecidableEq, Repr

def Vfab.init : Vfab := { goal := 750, stepTo := none, waiting := false, retries := 0 }

/-- What the power-state controller holds beside PWR_STATE (R349, R350): the state asked for while ENTERING, when the
present state was entered or asked for, from which the make-up of R323 counts, whether the mainband was up then, and since
when SBCLK has been stopped, with ANCLK (R337). -/
structure Pwr where
  target : Nat
  since : Nat
  linked : Bool
  gap : Option Nat
deriving DecidableEq, Repr

def Pwr.init : Pwr := { target := 0, since := 0, linked := false, gap := none }

/-- Bring-up (R354 to R356): whether SBCLK has started since VDD_AON rose, whether the device goes on by
itself, the stage a rerun runs, the trunk links that stage 7 found with a partner, whether stage 7 waits for the identities of
those it has trained (R409), the moment the present stage began, the in-line ECC that stage 6 latched, the hard SRAM repairs that stage 0 applied (R369), and the
streamers whose GD_RESET_N is released (R428). -/
structure Boot where
  started : Bool
  all : Bool
  rerun : Option Nat
  partner : Byte
  joined : Bool
  topoWait : Bool
  begun : Nat
  eccLatched : Bool
  repairs : List Byte
  gdReleased : BitVec 12
deriving DecidableEq, Repr

def Boot.init : Boot :=
  { started := true, all := false, rerun := none, partner := 0, joined := false, topoWait := false, begun := 0, eccLatched := false, repairs := [],
    gdReleased := 0 }

/-- The reset controller (R364): the COMPUTE or SECTION reset in progress, its stations, whether it waits for a rerun of
stage 6, and a WARM or COLD that begins later, with its moment, kind and source (R364, R386). -/
structure Rst where
  kind : Nat
  stations : List Nat
  waiting : Bool
  due : Option (Nat × Nat × ResetSource)
deriving DecidableEq, Repr

def Rst.init : Rst := { kind := 0, stations := [], waiting := false, due := none }

/-! ### Express network -/

/-- What a Junction still owes a copy at the head of a buffer (R156, R165): the ports that have not taken it, those of them where
a full edge position has been counted against it (R171), the entry that routed it, and the directory index it gives (R84). -/
structure Route where
  ports : List Port
  held : List Port
  entry : Option Nat
  dir : Nat
deriving DecidableEq, Repr

/-- An Express copy (R151): word, tag and virtual channel, and its route once a Junction has looked it up. -/
structure Copy where
  word : BitVec 64
  tag : Byte
  vc : Nat
  left : Option Route
deriving DecidableEq, Repr

/-- An entry of a station's emission store (R158): the neuron slot, the flit, and the world slot whose step it belongs
to. -/
structure Emission where
  slot : Nat
  copy : Copy
  wslot : Nat
deriving DecidableEq, Repr

/-- Where the response to a Freight request goes (R205): the endpoint that sent it, with its transaction number and
attempt, and the remote fields and words 4 and 5 of a remote one (R406): ADDR[39:32], RDST and RCOUNT. -/
structure Reply where
  ep : Nat
  txn : Nat
  attempt : Nat
  remote : Option (Nat × Nat × Nat)
  addrHi : Nat
  rdst : Nat
  rcount : Nat
deriving DecidableEq, Repr

/-- A request in a station's row arbiter (R96): an event with its directory index (R84) and its world
slot, a memory write with the response it owes, or a streamed page with its delivery descriptor and its slot of the page
buffer. -/
inductive RowReq where
  | event (c : Copy) (dirBase : Nat) (wslot : Nat)
  | write (off : Nat) (bytes : List Byte) (reply : Option Reply)
  | page (desc : List Byte) (slot : Nat) (reply : Reply)
deriving DecidableEq, Repr

def RowReq.isPage : RowReq → Bool
  | .page _ _ _ => true
  | _ => false

/-- What a station keeps beside its memories, tables and registers (R12, R41, R65, R66, R96, R133, R157, R158): the seeds
held, the Valiant sequence, occupancy of ring accumulators, LOST, the Junction input buffers (port × 4 + channel), the
staging of Junction entries by master, the emission store, sample flits that wait for the Junction (R262), the arbiter
queue, modulator copies at the local port, the release each world slot has still to open with whether a SKIP advance made
it, whether the slot's opening pass is complete, sweep progress, the STEP_QUIET notice (extended step) each slot has still
to act on, the directory and page buffer in effect since the last GO (R82, R111; laid out as STN_STORE_CFG), the slots whose
next opening pass starts a sweep pass (R366), whether its tables are marked invalid (R47), the engine turns since the
sweeper's last (R78), and by output port and channel the input that a Junction served last (R165; port × 4 + channel). -/
structure Station where
  seedLearn : Word
  seedRing : Word
  valiant : List Nat
  occ : PMap Bool
  lost : PMap Nat
  bufs : PMap (List Copy)
  staged : PMap (Nat × Option Word × Option Word)
  emit : List Emission
  arb : List RowReq
  mods : List Copy
  release : PMap (Option (Nat × Bool))
  opened : PMap Bool
  swept : PMap (Option Nat)
  samples : List Copy
  quiet : PMap (Option Nat)
  store : Word
  sweepDue : List Nat
  invalid : Bool
  turns : Nat
  served : PMap Nat
deriving DecidableEq, Repr

/-- The seed of R441 after a COLD or WARM reset. -/
def seed0 : Word := 0x2545F491#32

def Station.init : Station :=
  { seedLearn := seed0, seedRing := seed0, valiant := [], occ := [], lost := [], bufs := [], staged := [], emit := [],
    arb := [], mods := [], release := [], opened := [], swept := [], samples := [], quiet := [], store := 0, sweepDue := [],
    invalid := false, turns := 0, served := [] }

/-! ### Worlds -/

/-- An entry of a world's injection queue (R146): an event (flit word without CHECK, channel), an END_STEP mark, or the place
of a vector whose currents a projection unit has still to return (R254, R260), which takes up no entry. -/
inductive QItem where
  | event (word : BitVec 64) (vc : Nat)
  | mark
  | await (id : Nat)
deriving DecidableEq, Repr

/-- A reading of a credit reduction (R137). -/
structure Reading where
  created : Nat
  consumed : Nat
  lost : Nat
  opened : Bool
deriving DecidableEq, Repr

/-- A world (R128): its record in the live plan, and the step sequencer's and Interchange's state of it. -/
structure World where
  live : Bool
  held : Bool
  faulted : Bool
  cause : Nat
  phase : Nat
  step : Nat
  ext : Nat
  barrier : Nat
  timer : Nat
  policy : Nat
  stretchMax : Nat
  period : Nat
  stagger : Nat
  c0 : Nat
  /-- mesh positions of its stations -/
  stations : List Nat
  /-- the next boundary that has not passed -/
  nextB : Nat
  /-- step 0 has been released -/
  started : Bool
  /-- the streams and copies of the present step have ended on this device: its local barrier (R415) -/
  ran : Bool
  /-- the barrier has completed for the present step: at the manager of a system world, the system barrier (R413) -/
  done : Bool
  /-- a SKIP advance from the present step is due (R143) -/
  skip : Bool
  /-- the SKIP advance waits for no boundary: the world has not been released from a hold since (R52) -/
  atOnce : Bool
  /-- the present step has been counted late -/
  late : Bool
  /-- the boundary at which the present step is due, for R142 -/
  dueB : Nat
  /-- XCH_WLD_CFG in force since the last release -/
  cfg : Word
  inputOpen : Bool
  quiescent : Bool
  /-- the bank of the next step has been confirmed empty -/
  bankEmpty : Bool
  /-- last reading of each bank -/
  lastRead : PMap (Option Reading)
  queue : List QItem
  peak : Nat
  /-- modulator latch (R140): value and ADD -/
  latch : Option (Half × Bool)
  releasedAt : Nat
  /-- streamers whose CONSIST_END is awaited -/
  consist : List Nat
  /-- Interchange and trunk credit counters of each bank (R133) -/
  created : PMap Nat
  consumed : PMap Nat
  lost : PMap Nat
  /-- the host is blocked from this world after a RETRY refusal (R242) -/
  blocked : Bool
  /-- the step its decoder channels collect (R265) -/
  collect : Nat
  /-- system worlds (R413 to R417): a RELEASE waiting for the hold to end, the DONE tokens in, the REPORTs of the round -/
  pendRelease : Option Nat
  dones : List Nat
  round : Nat
  reports : List (Nat × Nat × Nat × Nat × Nat)
  lastRound : Option (Nat × Nat × Nat)
  lastToken : Option (Nat × Nat × Nat)
deriving DecidableEq, Repr

def World.init : World :=
  { live := false, held := false, faulted := false, cause := 0, phase := 0, step := 0, ext := 0, barrier := 0, timer := 0,
    policy := 0, stretchMax := 0, period := 0, stagger := 0, c0 := 0, stations := [], nextB := 0, started := false,
    ran := false, done := false, skip := false, atOnce := false, late := false, dueB := 0, cfg := 0x40#32, inputOpen := false, quiescent := false,
    bankEmpty := false, lastRead := [], queue := [], peak := 0, latch := none, releasedAt := 0, consist := [],
    created := [], consumed := [], lost := [], blocked := false, collect := 0, pendRelease := none, dones := [], round := 0,
    reports := [], lastRound := none, lastToken := none }

/-! ### Track Plan -/

/-- A section of the live plan (R35): window, parent, rectangle, key space, default route and population view. -/
structure Section where
  window : Nat
  parent : Nat
  x0 : Nat
  y0 : Nat
  width : Nat
  height : Nat
  keyBase : Word
  keyMask : Word
  defRoute : Word
  view : List Word
deriving DecidableEq, Repr

/-- A world record of a plan (Table 2-5) with its station list and stagger offset. -/
structure WorldRec where
  id : Nat
  barrier : Nat
  timer : Nat
  policy : Nat
  stretchMax : Nat
  period : Nat
  stations : List Nat
  stagger : Nat
deriving DecidableEq, Repr

/-- A segment of an image (Table 2-2): type, target kind, target, and its bytes. -/
structure Segment where
  typ : Nat
  kind : Nat
  target : Nat
  ofs : Nat
  len : Nat
  crc : Word
  bytes : List Byte
deriving DecidableEq, Repr

/-- A plan as the loader reads it from an image (R33 to R40): header fields, rank table as (x, y) pairs, sections, group
maps as numbers, world records, and all segments. -/
structure Plan where
  planId : Word
  flags : Nat
  gridW : Nat
  gridH : Nat
  ranks : List (Nat × Nat)
  sections : List Section
  groups : List Nat
  worlds : List WorldRec
  segs : List Segment
deriving DecidableEq, Repr

/-- The Track Plan loader beyond its registers (R44 to R50): the rank table in force (mesh position of each rank), the
plan loaded or live, the image of the command in progress, the Freight outstanding condition it waits for, the old
contents of the stations it writes, the ranks that have not acknowledged, whether the drain's command
has ended before it, whether the first pass has been sent, the targets (ranks, and streamers by endpoint number) of which
one of the loader's Freight writes has failed in the round (R206), and the quantiser seed held (R441). -/
structure Tpl where
  ranks : List Nat
  plan : Option Plan
  job : Option Plan
  jobPatch : Bool
  waitFreight : Bool
  newRanks : Option (List Nat)
  oldW : PMap Word
  oldM : PMap Byte
  bad : List Nat
  limitHit : Bool
  written : Bool
  failed : List Nat
  imageWait : Option Bool
  qSeed : Word
deriving DecidableEq, Repr

/-- The loader after reset, with the default ranks of R17 on the full 48 × 48 grid. -/
def Tpl.init : Tpl :=
  { ranks := List.range 2304, plan := none, job := none, jobPatch := false, waitFreight := false, newRanks := none, oldW := [],
    oldM := [], bad := [],
    limitHit := false, written := false, failed := [], imageWait := none, qSeed := seed0 }

/-! ### Freight network (R194 to R211) -/

/-- A packet in the network (Table 9-2): its header fields, its data, the mesh position of its head, none once it has
reached its destination, and the router inputs it holds with the flits that stand in each, head first (R200); a packet that
holds none waits at its source.  HCHK and CRC are formed from the fields (R205); `hurt` says whether a link already made
them fail. -/
structure Packet where
  typ : Nat
  attempt : Nat
  phase : Nat
  src : Nat
  dst : Nat
  exit : Nat
  iy : Nat
  ix : Nat
  dy : Nat
  dx : Nat
  txn : Nat
  status : Nat
  addr : Nat
  rdst : Nat
  rcount : Nat
  data : List Byte
  /-- remote fields of R406: OSRC, SDEV, RDEV -/
  remote : Option (Nat × Nat × Nat)
  hurt : Bool × Bool
  at_ : Option Nat
  trail : List (Nat × Nat)
deriving DecidableEq, Repr

/-- Who started a transaction: a host block request, by its sequence number; a Signal DMA descriptor, by its place in
submission order; a streamer's delivery of a world; the quantiser; a projection unit; the distribution engine for a
worker (R420); an access of a core, by its number (R275); a word access of another master, by its number; the loader, for a
rank or a streamer's endpoint (R46); or one that waits for it no longer: the transaction holds its slot until it ends. -/
inductive Owner where
  | host (seq : Nat)
  | sdma (id : Nat)
  | stream (w : Nat)
  | qnt
  | prj (u : Nat)
  | dist (d : Nat)
  | core (n id : Nat)
  | word (id : Nat)
  | load (target : Nat)
  | gone
deriving DecidableEq, Repr

/-- An access to Depot memory that waits for a bank under test (R287): a word, at 0 the direct place or 1, 2 an alias, by the
byte enables, or whole words from an offset on, read or written. -/
inductive DepotOp where
  | word (kind off : Nat) (be : BitVec 4) (wr : Option Word)
  | range (off len : Nat) (wr : Option (List Byte))
deriving DecidableEq, Repr

/-- An access that ends later than the command that began it: a word of a station memory or of GDDR6, which Freight carries
out (R18, R25), or `bank`, an access to Depot memory that waits for a bank under test (R287).  Its number, the master, whether
it writes, the moment it began, the host's request (SEQ, NOACK), the remote message (device, TAG) or the Signal DMA's
descriptor that waits for it, the words of a 64-bit sideband request on either side of it, or the number of the access to its
other word when that ends later too, and how it ended, once it has: 0 done with the bytes read, 1 unmapped, 2 fatal freight
error, 3 aborted.  A core's stands in `Blocked` too. -/
structure WordAcc where
  id : Nat
  master : Master
  wr : Bool
  since : Nat
  host : Option (Nat × Bool)
  remote : Option (Nat × Nat)
  desc : Option Nat
  pre : List Word
  post : List Word
  twin : Option Nat
  bank : Option DepotOp
  ended : Option (Nat × List Byte)
deriving DecidableEq, Repr

/-- A Freight request as its source formed it: it waits for a slot, or a transaction keeps it for resending (R204).
`place` is where the data of a READ go: an offset of the host's answer, or a Depot offset. -/
structure FReq where
  ep : Nat
  typ : Nat
  dst : Nat
  addr : Nat
  rdst : Nat
  rcount : Nat
  data : List Byte
  owner : Owner
  place : Nat
  /-- RDEV of a remote request (R406) -/
  rdev : Option Nat
deriving DecidableEq, Repr

/-- A transaction that holds a slot: its request, TXN, present attempt, and the time of its latest sending. -/
structure Txn where
  req : FReq
  txn : Nat
  attempt : Nat
  since : Nat
deriving DecidableEq, Repr

/-! ### Weight streaming (R172 to R193) -/

/-- A request of a walk (R181). -/
structure PageReq where
  page : Nat
  world : Nat
  tag : Nat
  tpop : Nat
  tbase : Nat
  rank : Nat
  mask : BitVec 64
deriving DecidableEq, Repr

/-- A read of the merge table (R182): its page, requests, the requests that entered the table after it, when it opened,
whether it is closed, and whether it has been reread once for its CRC. -/
structure PageRead where
  page : Nat
  reqs : List PageReq
  after : Nat
  opened : Nat
  reread : Bool
deriving DecidableEq, Repr

/-- A walk in progress (R181): step (extended), the address of its consist, its length, the next entry, and when
STEP_QUIET came.  An abandoned walk has no entry left (R187). -/
structure Walk where
  step : Nat
  base : Nat
  len : Nat
  next : Nat
  since : Nat
  /-- the summary indices that read as a zero block map throughout this walk (R181) -/
  missing : List Nat
deriving DecidableEq, Repr

/-- A page streamer beyond its registers: the world table (words of a directory entry), the activity store, the indices
whose summaries have come, the STEP_QUIET notices held with their moment, the STEP_ABANDONs on their way (world and extended
step), the worlds whose CONSIST_END is on its way, the extended step of the walk of a world that ended last, the walks, the
world whose walk advanced last, open reads, closed reads in the order they closed, deliveries
that wait for a slot with their page, deliveries of a world in flight, summaries and requests that Freight has handed
over, and the grant: 0 none, 1 requested, 2 held. -/
structure Streamer where
  table : PMap (List Word)
  act : PMap (BitVec 64)
  sums : PMap (List Nat)
  quiet : PMap (Option (Nat × Nat))
  abandon : List (Nat × Nat)
  ends : List Nat
  ended : PMap (Option Nat)
  walks : PMap (Option Walk)
  last : Nat
  reads : List PageRead
  dram : List PageRead
  out : List (PageReq × List Byte)
  flying : PMap Nat
  inbox : List Packet
  work : List Packet
  grant : Nat
deriving DecidableEq, Repr

def Streamer.init : Streamer :=
  { table := [], act := [], sums := [], quiet := [], abandon := [], ends := [], ended := [], walks := [], last := 0, reads := [],
    dram := [], out := [], flying := [], inbox := [], work := [], grant := 0 }

/-! ### Quantiser and projection units (R212 to R229) -/

/-- Bytes being gathered over Freight: those that have come, by device address, how many reads are out, and whether one
failed or was refused. -/
structure Gather where
  got : PMap Byte
  left : Nat
  failed : Bool
deriving DecidableEq, Repr

def Gather.init : Gather := { got := [], left := 0, failed := false }

/-- The quantiser's job: what the pass in progress gathers, the writes it still has to send in order, how many of the present
one are out, what it does with the page or tensor in hand (0 and 1: it reads for the first and the second pass; 2: it writes),
the group words of the first pass, whether CANCEL waits for a page, and the sums of the codes stored so far, columns first
(R219). -/
structure Qnt where
  gather : Gather
  todo : List (Nat × List Byte)
  out : Nat
  pass : Nat
  params : List Word
  cancel : Bool
  acc : PMap Int
deriving DecidableEq, Repr

def Qnt.init : Qnt := { gather := Gather.init, todo := [], out := 0, pass := 0, params := [], cancel := false, acc := [] }

/-- A vector sent to a projection unit (R260): its encoder channel with the settings it was accepted under (CFG, MAP, PA and
LIM; R252), its values, and the number of its place in the world's injection queue (R254). -/
structure PVec where
  enc : Nat
  cfg : Word
  map : Word
  pa : Word
  lim : Word
  world : Nat
  place : Nat
  vals : List Word
deriving DecidableEq, Repr

/-- A batch (R225): vectors, when it was accepted, and the currents once it has run. -/
structure Batch where
  vecs : List PVec
  since : Nat
  result : Option (List (List Word))
deriving DecidableEq, Repr

/-- A matrix as loaded (R224). -/
structure Matrix where
  k : Nat
  m : Nat
  wfmt : Nat
  ifmt : Nat
  scaleKind : Nat
  codes : List Byte
  groups : List Word
  sums : List Word
deriving DecidableEq, Repr

def Matrix.init : Matrix := { k := 0, m := 0, wfmt := 0, ifmt := 0, scaleKind := 0, codes := [], groups := [], sums := [] }

/-- A projection unit beyond its registers: its matrix, the matrix being loaded (only its shape and formats count) with
its three addresses, what it gathers, the commands that wait for the batch in progress, oldest first, the batches, and the
grant. -/
structure Prj where
  matrix : Matrix
  loading : Matrix
  src : Nat × Nat × Nat
  gather : Gather
  waiting : List Nat
  queue : List Batch
  grant : Nat
deriving DecidableEq, Repr

def Prj.init : Prj :=
  { matrix := Matrix.init, loading := Matrix.init, src := (0, 0, 0), gather := Gather.init, waiting := [], queue := [],
    grant := 0 }

/-! ### Host link (R230 to R251) -/

/-- A message from the device (Table 11-2), without SEQ, ACKSEQ and CRC, which it gets when it is sent.  `after`: how many
messages of class P must be sent before it (R243). -/
structure DevMsg where
  typ : Nat
  flags : Nat
  addrHi : Nat
  arg : Word
  payload : List Byte
  after : Nat
deriving DecidableEq, Repr

/-- A host block request in progress (R241): its SEQ, whether it writes, NOACK, its byte count, the transactions still
open, the bytes read so far by offset, the NACK code it has earned, and the units of class B credit it holds (R240). -/
structure HostJob where
  seq : Nat
  write : Bool
  noack : Bool
  len : Nat
  left : Nat
  got : PMap Byte
  code : Nat
  units : Nat
deriving DecidableEq, Repr

/-- A LINK message the device has sent: its ACKSEQ, REPLAY_REQ, and the limits of classes C, B, I and M (Table 11-4). -/
structure LinkSent where
  ackseq : Nat
  replayReq : Bool
  msgs : List Nat
  data : List Nat
deriving DecidableEq, Repr

/-- The transport (R237 to R240).  Device classes are C, B, I, M in this order, host classes R, P.  `rxNext` is the next SEQ
expected, `txNext` the next to send, `peerAck` the host's ACKSEQ; `held` the replay store; the limits offered, those
last reported, those the host offers, and what has been sent against them; `wire` the messages the device put on the
link when it last sent; `waitC` the accepted requests of class C that wait for a remote access before them (R241), each with
its kind: 0 REG_RD, 1 REG_WR, 2 RING_SET, 3 RING_FREE. -/
structure Link where
  rxNext : Nat
  discarding : Bool
  txNext : Nat
  peerAck : Nat
  held : List (Nat × DevMsg)
  waitR : List DevMsg
  waitP : List DevMsg
  limMsgs : List Nat
  limData : List Nat
  repMsgs : List Nat
  repData : List Nat
  hostMsgs : List Nat
  hostData : List Nat
  sentMsgs : List Nat
  sentData : List Nat
  replays : Nat
  failed : Nat
  ackTold : Nat
  lastLink : Option LinkSent
  wire : List (List Byte)
  jobs : List HostJob
  waitC : List (Nat × HostMsg)
  blocked : PMap Bool
deriving DecidableEq, Repr

/-- The transport at the start of a sequence (R237), with the credits of Table 11-5. -/
def Link.init : Link :=
  { rxNext := 0, discarding := false, txNext := 0, peerAck := 0, held := [], waitR := [], waitP := [],
    limMsgs := [32, 64, 128, 32], limData := [128, 16384, 4096, 256], repMsgs := [32, 64, 128, 32],
    repData := [128, 16384, 4096, 256], hostMsgs := [0, 0], hostData := [0, 0], sentMsgs := [0, 0], sentData := [0, 0],
    replays := 0, failed := 0, ackTold := 0, lastLink := none, wire := [], jobs := [], waitC := [],
    blocked := [] }

/-- A record for an output ring (R244): STEP, WORLD, TYPE, and its bytes after the header. -/
structure Rec where
  step : Nat
  world : Nat
  typ : Nat
  body : List Byte
deriving DecidableEq, Repr

/-- What a ring holds beyond its registers (R245, R246, R248): base and index address, RECS, whether DROP is due, and
the records that wait. -/
structure Ring where
  base : Nat
  widx : Nat
  recs : Nat
  drop : Bool
  waiting : List Rec
deriving DecidableEq, Repr

def Ring.init : Ring := { base := 0, widx := 0, recs := 0, drop := false, waiting := [] }

/-! ### Decoders (R264 to R267) -/

/-- A MEMBRANE record that waits (R266): the step its window ended at, as 16 and as 32 bits, and its values so far. -/
structure DecWait where
  step : Nat
  ext : Nat
  val : PMap (Option Nat)
deriving DecidableEq, Repr

/-- A decoder channel beyond its registers: counts or step counts, first times, rates and membrane values by output, and the
MEMBRANE records that wait, oldest first. -/
structure Dec where
  cnt : PMap Nat
  first : PMap (Option Nat)
  rate : PMap Word
  val : PMap (Option Nat)
  wait : List DecWait
deriving DecidableEq, Repr

def Dec.init : Dec := { cnt := [], first := [], rate := [], val := [], wait := [] }

/-! ### Multi-device systems (R396 to R422) -/

/-- A time-step token (Table 19-3). -/
structure Token where
  kind : Nat
  sdev : Nat
  ddev : Nat
  world : Nat
  flags : Nat
  step : Nat
  round : Nat
  a : Word
  b : Word
  c : Word
  d : Word
deriving DecidableEq, Repr

/-- A DATA link unit (Table 19-1) without the header fields it gets when it is sent: lane, START, END, COUNT, payload, and
SEQ once it is held. -/
structure Lu where
  seq : Nat
  lane : Nat
  first : Bool
  last : Bool
  count : Nat
  payload : List Byte
deriving DecidableEq, Repr

/-- Free link units of a lane's receive buffer after a training (Table 19-2). -/
def laneSize (l : Nat) : Nat := [256, 512, 512, 64, 64].getD l 0

/-- A trunk link beyond its registers (R399 to R405): sequence numbers and replay store, link units that wait for credit by
lane, credit held at the partner, whether the receiver discards until the expected link unit, the pieces of a packet or
message begun on a lane, one a link unit, what has been received and not yet handled (copies and tokens say whether they are the
last of their link unit, packets and messages the link units that they took), buffer places freed and not yet returned, replays
and failed retrains in a row, whether a retrain is called for, the moment until which a WAKE drives the lanes of a link that is
not up (R421), the link units sent since the last IDLE (R429), and those last put on the lanes, 64 bytes each. -/
structure Trunk where
  txNext : Nat
  held : List Lu
  wait : PMap (List Lu)
  credit : PMap Nat
  rxNext : Nat
  discarding : Bool
  part : PMap (List (List Byte))
  inX : List (Copy × Bool)
  inF : List (Nat × List Byte)
  inR : List (Nat × List Byte)
  inS : List (Nat × List Byte)
  inT : List (Token × Bool)
  freed : PMap Nat
  replays : Nat
  failed : Nat
  due : Bool
  driven : Nat
  run : Nat
  wire : List (List Byte)
deriving DecidableEq, Repr

def Trunk.init : Trunk :=
  { txNext := 0, held := [], wait := [], credit := [], rxNext := 0, discarding := false, part := [], inX := [], inF := [],
    inR := [], inS := [], inT := [], freed := [], replays := 0, failed := 0, due := false, driven := 0, run := 0, wire := [] }

/-- A remote register access in progress (R408): TAG, whether it writes, and the host request that waits for it (SEQ, NOACK). -/
structure RemAccess where
  tag : Nat
  wr : Bool
  reply : Option (Nat × Bool)
deriving DecidableEq, Repr

/-- The system (R409 to R420): the expected record of stage 9, whether TOPO has been sent on, the records that arrived at
the manager, whether the manager awaits the wave, remote accesses by master, the last TAG, and the distribution
command's workers still to acknowledge, those whose data are still on their way over Freight, those seen LOADED, the
messages it has out (TAG, device, address, payload, times sent; an empty payload reads TPL_STATUS), and the tokens of worlds
that wait, oldest first, until the system is FORMED (R411, log entry 35). -/
structure Sys where
  topo : List Byte
  seen : Bool
  recs : List (List Byte)
  forming : Bool
  ra : PMap (Option RemAccess)
  tag : Nat
  distLeft : List Nat
  distWait : List Nat
  distHold : List Nat
  distSeen : List Nat
  distOut : List (Nat × Nat × Nat × List Byte × Nat)
  waitT : List Token
deriving DecidableEq, Repr

def Sys.init : Sys :=
  { topo := [], seen := false, recs := [], forming := false, ra := [], tag := 0, distLeft := [], distWait := [],
    distHold := [], distSeen := [], distOut := [], waitT := [] }

/-! ### The device -/

/-- A firmware write session and what the running image is (R381 to R386, R389, R391): the 8 KiB header in staging, the ranges
of the image received (offset, length), the chunks that wait for the erase of their 64 KiB block, the blocks erased, the SD
card being read, whether SD_VSEL is high (R433), the settings block being written, whether stage 5 has chosen a slot, the slot
that runs, whether it runs as a PENDING slot that the health timer watches, the SVN of the running image, whether a bundle is
loaded, the customer key hash in effect, and the attestation report that is being signed (R394). -/
structure Fwu where
  header : PMap Byte
  got : List (Nat × Nat)
  waiting : List (Nat × List Byte)
  erased : Nat
  card : Option SdCard
  vsel : Bool
  setting : List Byte
  setWait : Bool
  booted : Bool
  running : Nat
  watched : Bool
  svn : Nat
  bundle : Bool
  custHash : BitVec 256
  report : List Byte
deriving DecidableEq, Repr

def Fwu.init : Fwu :=
  { header := [], got := [], waiting := [], erased := 0, card := none, vsel := false, setting := [], setWait := false, booted := false,
    running := 0, watched := false, svn := 0, bundle := false, custHash := 0, report := [] }

/-- A session, or the writing of settings, is over. -/
def Fwu.clear (f : Fwu) : Fwu :=
  { f with header := [], got := [], waiting := [], erased := 0, card := none, vsel := false, setting := [],
           setWait := false }

/-- How the board controller ends its writes on SMBus (R434): without a PEC, with the right one, or with a wrong one. -/
inductive PecUse where
  | absent | right | wrong
deriving DecidableEq, Repr

/-- The JTAG TAP (R436): instruction register, the selected data register (75 bits for REG_ACCESS), the boundary-scan
register, and whether EXTEST drives the VDDIO pins from it.  The result of the last REG_ACCESS stands in `compl`. -/
structure Jtag where
  ir : BitVec 5
  dr : BitVec 75
  bscan : BitVec 64
  drives : Bool
deriving DecidableEq, Repr

def Jtag.init : Jtag := { ir := 0x1F, dr := 0, bscan := 0, drives := false }

/-- Everything the block holds but its memories of bulk data, its non-volatile contents and the queue of commands. -/
structure Dev where
  /-- Registers of the register blocks, by device address (default `regDflt`). -/
  regs : PMap Word
  /-- Registers that each master has for itself, keyed master × 2^40 + address (R31, R149, R171, R284, R315, R408). -/
  mregs : PMap Word
  /-- High words latched by a read of the low word (R31), keyed as `mregs`. -/
  latches : PMap (Option Word)
  /-- The completion each master last received. -/
  compl : PMap Compl
  /-- Tables and registers of the stations, keyed mesh position × 2^20 + window offset. -/
  stnW : PMap Word
  /-- Station memories below offset 0x6_0000, keyed the same way. -/
  stnM : PMap Byte
  stns : PMap Station
  worlds : PMap World
  /-- Counters of each world (Table 6-5), keyed world × 64 + word of the register. -/
  wregs : PMap Word
  /-- Edge tables (R161), keyed (table × 32768 + entry) × 4 + word. -/
  edgeTab : PMap Word
  /-- Edge-router counters by position, keyed (edge × 64 + row) × 4 + kind (R171). -/
  edgeCnt : PMap Nat
  /-- Edge-router buffers, keyed (edge × 64 + position) × 4 + channel: 0 west, 1 east, 2 north, 3 south. -/
  edgeBuf : PMap (List Copy)
  /-- The world from which the turn of injection goes on (R146). -/
  injNext : Nat
  /-- Notices on their way to the Interchange (R134): none for a loss, or the world and bank of a consumption. -/
  notices : List (Option (Nat × Nat))
  /-- Packets in the Freight network, oldest first. -/
  packets : List Packet
  /-- Transactions that hold a slot (R204), and requests that wait for one. -/
  txns : List Txn
  fwait : List FReq
  /-- Who was given a slot last: of the Interchange's askers 0 host block transfers or 1 the quantiser and projection units
  (R212), and 2 more when the Signal DMA has been since (R204). -/
  frtTurn : Nat
  /-- The input port that each output of a Freight router served last, by the input it feeds (R200). -/
  frtServed : PMap Nat
  /-- Accesses that end later than the command that began them. -/
  words : List WordAcc
  /-- Requesters of Depot memory that wait for a bank under test, with the moment each began to wait (R287). -/
  bankHeld : List (Nat × Nat)
  /-- The number of the next such access, or of a core's by Freight. -/
  accNext : Nat
  streamers : PMap Streamer
  qnt : Qnt
  prjs : PMap Prj
  link : Link
  rings : PMap Ring
  /-- Encoder state words (R252): the value every index had at the last reset of the channel, and those written since, keyed
  channel × 1024 + index; and the events generated for the present step. -/
  encBase : PMap Word
  encSt : PMap (Option Word)
  encCnt : PMap Nat
  decs : PMap Dec
  trunks : PMap Trunk
  sys : Sys
  tpl : Tpl
  cores : PMap Core
  coreMem : PMap Byte
  chn : Chn
  irq : Irq
  timers : PMap Timer
  sdma : List SdmaDesc
  sdmaNext : Nat
  sdmaCpl : PMap (List Word)
  mbt : Option MarchRun
  /-- Spare rows in use by soft repairs, keyed (unit × 16 + memory) × 64 + instance (R288). -/
  spares : PMap Nat
  tok : Tok
  vfab : Vfab
  pwr : Pwr
  boot : Boot
  rst : Rst
  /-- RWL registers written since the last COLD or WARM reset (R7). -/
  locked : PMap Bool
  /-- Source switches in progress, by island (R332): the SEL that the switch leaves, and whether a clock of it has stopped. -/
  switches : PMap (Nat × Bool)
  /-- The FLOOR that waits for its XCH-ramp grant (R334). -/
  xchWant : Option Nat
  fwu : Fwu
  /-- Interchange microcode and GDDR6 training code (Table 18-4). -/
  microcode : List Byte
  training : List Byte
  jtag : Jtag
  /-- Raw levels of the GPIO pins (R431). -/
  pins : BitVec 16
  /-- SMB_ALERT_N has been released by the Alert Response Address (R435). -/
  araDone : Bool
  /-- How the board controller's last write that shows a PEC or none ended (R434, log entry 13). -/
  smbUse : PecUse
  /-- SBCLK runs (R337). -/
  sbclk : Bool
  /-- The rails are up (R427). -/
  powered : Bool
  /-- The mainband forwarded clock runs (R333). -/
  fwdClk : Bool
  /-- Time in units of 10 ns (log entry 1). -/
  now : Nat
  /-- Draws made of free values (log entry 2). -/
  freeCtr : Nat
deriving DecidableEq, Repr

/-- What the fuses (Table 17-6), the QSPI NOR device (R373) and the address straps of SMBus (R434) hold: kept when power is
removed.  `defects` holds (PX, PY); SRAM_REPAIR is held as bytes, whose meaning the SRAM instances give them; CUST_HASH is zero
while unprogrammed; `rollback` is the number of blown bits. -/
structure Nv where
  order : Nat
  grid : Half
  chanEn : BitVec 24
  trkEn : Byte
  serial : BitVec 64
  defects : List (Nat × Nat)
  sramRepair : List Byte
  hsmRef : List Half
  tokBudget : List Half
  auto : Bool
  rootHash : BitVec 256
  devSeed : BitVec 256
  fuseCrc : Word
  custHash : BitVec 256
  rollback : Nat
  smbAddr : BitVec 2
  qspi : PMap Byte
deriving DecidableEq, Repr

/-- Bulk memories: Depot (R277) and GDDR6 (R203), as bytes by offset, and the Depot words in which soft errors stand (1 for
a single bit, 2 for a double bit; R279).  The contents of GDDR6 are undefined after power-up, a COLD or WARM reset and a
DRAM island reset (R363, R367): a byte not written since reads as the free byte of draw `gddrEra` (log entry 3). -/
structure Mem where
  depot : PMap Byte
  depotErr : PMap Nat
  gddr : PMap Byte
  gddrEra : Nat
deriving DecidableEq, Repr

/-- The state of the block: the commands that wait, the bulk memories, the non-volatile contents, and the device. -/
structure State where
  pending : List Instr
  mem : Mem
  nv : Nv
  dev : Dev
deriving DecidableEq, Repr

/-- A part as it leaves test, with no defect and nothing programmed or written in the field: a VX2304 whose settings the spec
does not give stand at zero and whose NOR device is erased (log entry 7). -/
def Nv.init : Nv :=
  { order := 0x2304, grid := 0x3030, chanEn := 0xFFFFFF, trkEn := 0xFF, serial := 0, defects := [], sramRepair := [],
    hsmRef := [], tokBudget := [160, 64, 32, 120], auto := false, rootHash := 0, devSeed := 0,
    fuseCrc := 0x638985CF#32, custHash := 0, rollback := 0, smbAddr := 0, qspi := [] }

/-- The device right after a COLD reset with SBCLK present, stage 0 about to end: every register at its Reset value, the
fused ones at those of a VX2304 (Table 17-7), every store at zero. -/
def Dev.init : Dev :=
  { regs := [(R.SYS_ORDER, 0x2304#32), (R.SYS_GRID, 0x3030#32), (R.SYS_CHAN_EN, 0x00FFFFFF#32), (R.SYS_TRK_EN, 0xFF#32),
      (R.PWR_TOK_BUDGET, 160#32), (R.PWR_TOK_BUDGET + 4, 64#32), (R.PWR_TOK_BUDGET + 8, 32#32),
      (R.PWR_TOK_BUDGET + 12, 120#32), (R.STM_ENABLED, 0xFFF#32)],
    mregs := [], latches := [], compl := [], stnW := [], stnM := [], stns := [], worlds := [], wregs := [], edgeTab := [],
    edgeCnt := [], edgeBuf := [], injNext := 0, notices := [], packets := [], txns := [], fwait := [], frtTurn := 0,
    frtServed := [], words := [], bankHeld := [], accNext := 0, streamers := [], qnt := Qnt.init, prjs := [], link := Link.init, rings := [], encBase := [], encSt := [], encCnt := [], decs := [],
    trunks := [], sys := Sys.init, tpl := Tpl.init, cores := [], coreMem := [], chn := Chn.init, irq := Irq.init,
    timers := [], sdma := [], sdmaNext := 0, sdmaCpl := [], mbt := none, spares := [], tok := Tok.init, vfab := Vfab.init,
    pwr := Pwr.init, boot := Boot.init, rst := Rst.init, locked := [], switches := [], xchWant := none,
    fwu := Fwu.init, microcode := [], training := [], jtag := Jtag.init, pins := 0, araDone := false, smbUse := .absent, sbclk := true, powered := true, fwdClk := false,
    now := 0, freeCtr := 1 }

/-- The block right after reset: a COLD reset that follows the rise of VDD_AON, with SBCLK running (R364, R427). -/
def State.reset : State :=
  { pending := [], mem := { depot := [], depotErr := [], gddr := [], gddrEra := 0 }, nv := Nv.init, dev := Dev.init }

end Sys2Proof.Machine
end

