-- ==== Sys2Proof/Machine/Ops.lean ====
section
/-! DEFINITION. The named operations over the device: registers, station words and bytes, counters with their overflow
flags, pending interrupts, the aggregator's settling, free values, and the masters' own registers. -/

namespace Sys2Proof.Machine

/-! ### Registers -/

/-- The stored value of a register. -/
def Dev.rd (d : Dev) (a : Nat) : Word := d.regs.get regDflt a
/-- Store a value in a register. -/
def Dev.wr (d : Dev) (a : Nat) (v : Word) : Dev := { d with regs := d.regs.set regDflt a v }
/-- Change a register. -/
def Dev.upd (d : Dev) (a : Nat) (f : Word → Word) : Dev := d.wr a (f (d.rd a))
/-- Set a field of a register. -/
def Dev.setF (d : Dev) (a lo len v : Nat) : Dev := d.upd a (setFld · lo len v)
/-- A field of a register. -/
def Dev.f (d : Dev) (a lo len : Nat) : Nat := fld (d.rd a) lo len
/-- Set the bits of a mask. -/
def Dev.orBits (d : Dev) (a m : Nat) : Dev := d.upd a (· ||| w32 m)
/-- Clear the bits of a mask. -/
def Dev.andNot (d : Dev) (a m : Nat) : Dev := d.upd a (· &&& ~~~(w32 m))
/-- Return the registers from `lo` up to, not including, `hi` to their Reset values. -/
def Dev.resetRegs (d : Dev) (lo hi : Nat) : Dev := { d with regs := d.regs.clear lo hi }
/-- Return every register of a row of the map to its Reset value. -/
def Dev.resetReg (d : Dev) (a : Nat) : Dev := d.wr a (regDflt a)

/-- Count `k` in a 32-bit counter and set its overflow bit if it passes its largest value (R32). -/
def Dev.count (d : Dev) (a k ovf bitNo : Nat) : Dev :=
  let c := (d.rd a).toNat
  let d := d.wr a (w32 (satAdd 32 c k))
  if satHits 32 c k then d.orBits ovf (2 ^ bitNo) else d

/-- Count in a counter for which the spec names no overflow flag. -/
def Dev.count0 (d : Dev) (a k : Nat) : Dev := d.wr a (w32 (satAdd 32 (d.rd a).toNat k))

/-! ### Registers of each master -/

/-- The key of a master's own register or latch. -/
def mkey (m : Master) (a : Nat) : Nat := m.idx * 2 ^ 40 + a
def mregDflt (k : Nat) : Word := regDflt (k % 2 ^ 40)
def Dev.mrd (d : Dev) (m : Master) (a : Nat) : Word := d.mregs.get mregDflt (mkey m a)
def Dev.mwr (d : Dev) (m : Master) (a : Nat) (v : Word) : Dev := { d with mregs := d.mregs.set mregDflt (mkey m a) v }

def noneW (_ : Nat) : Option Word := none
/-- Latch the high word of a 64-bit register for a master (R31). -/
def Dev.latch (d : Dev) (m : Master) (a : Nat) (v : Word) : Dev :=
  { d with latches := d.latches.set noneW (mkey m a) (some v) }
/-- The master's next read of a high word: the latched value if there is one, which is then used up (R31). -/
def Dev.unlatch (d : Dev) (m : Master) (a : Nat) (live : Word) : Word × Dev :=
  match d.latches.get noneW (mkey m a) with
  | some v => (v, { d with latches := d.latches.set noneW (mkey m a) none })
  | none => (live, d)

def Compl.init : Compl := { status := .ok, data := [] }
/-- Record how a master's access ended. -/
def Dev.complete (d : Dev) (m : Master) (st : Status) (data : List Word) : Dev :=
  { d with compl := d.compl.set (fun _ => Compl.init) m.idx { status := st, data := data } }
def Dev.completion (d : Dev) (m : Master) : Compl := d.compl.get (fun _ => Compl.init) m.idx

/-! ### Free values (log entry 2) -/

/-- A word the spec leaves open. -/
def Dev.freeWord (d : Dev) : Word × Dev := (Config.freeResult d.freeCtr, { d with freeCtr := d.freeCtr + 1 })

/-! ### Stations -/

def skey (p off : Nat) : Nat := p * 2 ^ 20 + off
def stnDflt (k : Nat) : Word := regDflt (k % 2 ^ 20)
/-- A word of a station's tables and registers, offsets 0x6_0000 and above (R18). -/
def Dev.sW (d : Dev) (p off : Nat) : Word := d.stnW.get stnDflt (skey p off)
def Dev.setSW (d : Dev) (p off : Nat) (v : Word) : Dev := { d with stnW := d.stnW.set stnDflt (skey p off) v }
def Dev.updSW (d : Dev) (p off : Nat) (f : Word → Word) : Dev := d.setSW p off (f (d.sW p off))
/-- The places, in units of `stride` from `lo`, at which a station's words from `lo` below `hi` differ from their Reset
values, ascending: a table entry that is valid stands there. -/
def Dev.listed (d : Dev) (p lo hi stride : Nat) : List Nat :=
  (d.stnW.filter (fun q => decide (skey p lo ≤ q.1 ∧ q.1 < skey p hi ∧ (q.1 - skey p lo) % stride = 0))).map
    (fun q => (q.1 - skey p lo) / stride)
/-- A 16-bit table entry of a station. -/
def Dev.sH (d : Dev) (p off : Nat) : Nat := fld (d.sW p (off / 4 * 4)) (8 * (off % 4)) 16
/-- Return a range of a station's words to the Reset values. -/
def Dev.resetSW (d : Dev) (p lo hi : Nat) : Dev := { d with stnW := d.stnW.clear (skey p lo) (skey p hi) }
/-- A word of a station's memories, offsets below 0x6_0000. -/
def Dev.sM (d : Dev) (p off : Nat) : Word := readWord d.stnM (skey p off)
def Dev.setSM (d : Dev) (p off : Nat) (v : Word) : Dev := { d with stnM := writeWord d.stnM (skey p off) v }
/-- A half-word of a station's memories. -/
def Dev.sMH (d : Dev) (p off : Nat) : Nat := leNat (readBytes zeroByte d.stnM (skey p off) 2)
def Dev.setSMH (d : Dev) (p off v : Nat) : Dev := { d with stnM := writeBytes zeroByte d.stnM (skey p off) (leBytes 2 v) }

def stn0 (_ : Nat) : Station := Station.init
def Dev.stn (d : Dev) (p : Nat) : Station := d.stns.get stn0 p
def Dev.setStn (d : Dev) (p : Nat) (s : Station) : Dev := { d with stns := d.stns.set stn0 p s }
def Dev.updStn (d : Dev) (p : Nat) (f : Station → Station) : Dev := d.setStn p (f (d.stn p))

/-- Keep STN_ARB_STATE: present occupancy of the row arbiter's queue, and its peak (R105). -/
def Dev.arbState (d : Dev) (p : Nat) : Dev :=
  let n := min 64 (d.stn p).arb.length
  d.updSW p R.STN_ARB_STATE (fun w => setFld (setFld w 0 8 n) 8 8 (max n (fld w 8 8)))

/-- Window offsets of the two registers that the text, not a table, places (R51, R309). -/
abbrev stnCfgRefused : Nat := 0x70F00
abbrev stnIrqLatch : Nat := 0x70F10

/-- The station raises the interrupt of a kind: its bit of STN_IRQ_LATCH (R309). -/
def Dev.stnIrq (d : Dev) (p kind : Nat) : Dev := d.updSW p stnIrqLatch (· ||| w32 (2 ^ kind))

/-- Count `k` in a station's 32-bit counter; a saturation sets the bit of its overflow register and raises the station's
interrupt of the kind, where the chapter names one (R80, R105, R127, R150, R170, R193, R210). -/
def Dev.sCount (d : Dev) (p off k ovf bitNo : Nat) (kind : Option Nat) : Dev :=
  if k = 0 then d
  else
    let c := (d.sW p off).toNat
    let d := d.setSW p off (w32 (satAdd 32 c k))
    if satHits 32 c k then
      let d := d.updSW p ovf (· ||| w32 (2 ^ bitNo))
      match kind with
      | some q => d.stnIrq p q
      | none => d
    else d

/-- Whether world slot `m` of a station holds a world, and which (R112). -/
def Dev.slotWorld (d : Dev) (p m : Nat) : Option Nat :=
  let c := d.sW p (R.STN_MOD_CFG + 16 * m)
  if bit c 31 then some (fld c 0 12) else none

/-- The world slot in which a station holds a world. -/
def Dev.slotOf (d : Dev) (p w : Nat) : Option Nat := (List.range 16).find? (fun m => d.slotWorld p m = some w)

/-- The present step of a world slot (STN_WORLD_STEP). -/
def Dev.slotStep (d : Dev) (p m : Nat) : Nat := fld (d.sW p (R.STN_WORLD_STEP + 4 * m)) 0 16

/-! ### Mesh (R13 to R17, R359, R369) -/

/-- A part fused as an order code (Table 17-7): GRID, CHAN_EN, TRK_EN and TOK_BUDGET; FUSE_CRC is not among them. -/
def Nv.fusedAs (n : Nv) (order : Nat) : Nv :=
  match order with
  | 0x1536 => { n with order := order, grid := 0x3020, chanEn := 0x0FF0FF, trkEn := 0x0F, tokBudget := [110, 48, 24, 80] }
  | 0x0768 => { n with order := order, grid := 0x2018, chanEn := 0x00F00F, trkEn := 0x03, tokBudget := [48, 32, 16, 40] }
  | _ => { n with order := order, grid := 0x3030, chanEn := 0xFFFFFF, trkEn := 0xFF, tokBudget := [160, 64, 32, 120] }

/-- Trunk link `k` and GDDR6 channel `c` are enabled (R369). -/
def Nv.trunkOn (n : Nv) (k : Nat) : Bool := n.trkEn.toNat.testBit k
def Nv.channelOn (n : Nv) (c : Nat) : Bool := n.chanEn.toNat.testBit c

/-- The mesh position of logical station (x, y). -/
def posOf (x y : Nat) : Nat := y * 48 + x
def Nv.gridW (n : Nv) : Nat := min 48 (n.grid.toNat / 256)
def Nv.gridH (n : Nv) : Nat := min 48 (n.grid.toNat % 256)
/-- Whether a mesh position holds an enabled station; the others pass copies through (R14). -/
def Nv.enabled (n : Nv) (p : Nat) : Bool := decide (p % 48 < n.gridW ∧ p / 48 < n.gridH)
/-- The default ranks of R17. -/
def Nv.defaultRanks (n : Nv) : List Nat :=
  (List.range (n.gridW * n.gridH)).map (fun r => posOf (r % n.gridW) (r / n.gridW))
/-- Streamer `s` is enabled when both its channels are (R172). -/
def Nv.streamerOn (n : Nv) (s : Nat) : Bool := n.channelOn (2 * s) && n.channelOn (2 * s + 1)

/-- The mesh position of a rank under the rank table in force. -/
def Dev.posOfRank (d : Dev) (r : Nat) : Option Nat := d.tpl.ranks[r]?
/-- The rank of a mesh position. -/
def Dev.rankOf (d : Dev) (p : Nat) : Option Nat := d.tpl.ranks.findIdx? (· == p)

/-! ### Worlds -/

def wld0 (_ : Nat) : World := World.init
def Dev.wld (d : Dev) (w : Nat) : World := d.worlds.get wld0 w
def Dev.setWld (d : Dev) (w : Nat) (x : World) : Dev := { d with worlds := d.worlds.set wld0 w x }
def Dev.updWld (d : Dev) (w : Nat) (f : World → World) : Dev := d.setWld w (f (d.wld w))
/-- The worlds that hold state, in ascending ID. -/
def Dev.worldIds (d : Dev) : List Nat := d.worlds.map (·.1)
/-- The worlds of the live map, in ascending ID. -/
def Dev.liveIds (d : Dev) : List Nat := d.worldIds.filter (fun w => (d.wld w).live)
/-- A world is live and not held. -/
def Dev.active (d : Dev) (w : Nat) : Bool := (d.wld w).live && !(d.wld w).held

/-! ### Interrupts (R307, R308, R312) -/

/-- An event sets its source's pending bit. -/
def Dev.irq1 (d : Dev) (k : Nat) : Dev := { d with irq := { d.irq with pend := d.irq.pend ||| (1#256 <<< k) } }

/-- Whether a bit of a run of map registers is set. -/
def Dev.anySet (d : Dev) (a n : Nat) : Bool := (List.range n).any (fun i => d.rd (a + 4 * i) != 0)

/-- Whether a level source is asserted: the state that Table 14-6 gives it. -/
def Dev.asserted (d : Dev) (k : Nat) : Bool :=
  if 32 ≤ k ∧ k < 48 then
    let c := d.rd (R.IRQ_PIN_CFG + 4 * (k - 32))
    match fld c 8 2 with
    | 0 => d.irq.pinOut.getLsbD (k - 32)
    | 1 => !d.irq.pinOut.getLsbD (k - 32)
    | _ => false
  else if 48 ≤ k ∧ k < 56 then bit (d.rd R.CHN_ERR) (k - 48)
  else if k = 64 then bit (d.rd R.TPL_STATUS) 16 || bit (d.rd R.TPL_STATUS) 20
  else if k = 66 then d.anySet R.XCH_WLD_FAULT_MAP 128
  else if k = 69 then d.anySet R.XCH_RING_PEND 8
  else if k = 70 then bit (d.rd R.XCH_TP_ERR) 31 || bit (d.rd R.XCH_TP_ERR) 30
  else if k = 72 then bit (d.rd R.SYS_DPT_UE_ADDR) 31
  else if k = 73 then bit (d.rd R.MBT_STATUS) 17
  else if 74 ≤ k ∧ k < 80 then d.irq.stnMap.any (fun q => q.1 / 4096 == k - 74 && q.2)
  else false

/-- The level sources of Table 14-6. -/
def levelSources : List Nat :=
  (List.range 16).map (· + 32) ++ (List.range 8).map (· + 48) ++ [64, 66, 69, 70, 72, 73, 74, 75, 76, 77, 78, 79]

/-- The pending bits after every asserted level source has set its own (R308). -/
def Dev.pendNow (d : Dev) : BitVec 256 :=
  levelSources.foldl (fun p k => if d.asserted k then p ||| (1#256 <<< k) else p) d.irq.pend

/-- Source `k` is a level source now: a pin by its MODE (R310). -/
def Dev.levelNow (d : Dev) (k : Nat) : Bool :=
  if 32 ≤ k ∧ k < 48 then d.f (R.IRQ_PIN_CFG + 4 * (k - 32)) 8 2 < 2 else true

/-- The pending bits of level sources follow their conditions through a COMPUTE reset (R315). -/
def Dev.levelsFollow (d : Dev) : Dev :=
  { d with irq := { d.irq with pend := levelSources.foldl (fun p k =>
      if d.asserted k then p ||| (1#256 <<< k) else if d.levelNow k then p &&& ~~~(1#256 <<< k) else p) d.irq.pend } }

def zero256 (_ : Nat) : BitVec 256 := 0
def zeroNat (_ : Nat) : Nat := 0

/-- D_t: the sources pending and enabled for a target (R311). -/
def Irq.dset (q : Irq) (t : Nat) : BitVec 256 := q.pend &&& q.en.get zero256 t

/-- The number of ones of a 256-bit set. -/
def ones256 (x : BitVec 256) : Nat := ((List.range 256).filter (fun i => x.getLsbD i)).length

/-- Account for the changes of one target's D_t (R312): sources that entered, the moment the first did, and the fall of the
line when D_t is empty. -/
def Irq.settle1 (now : Nat) (q : Irq) (t : Nat) : Irq :=
  let dt := q.dset t
  if dt = 0 then
    { q with lastD := q.lastD.set zero256 t 0, entered := q.entered.set zeroNat t 0,
             enteredAt := q.enteredAt.set zeroNat t 0, line := q.line &&& ~~~(1#9 <<< t),
             told := if t = 8 then 0 else q.told }
  else
    let new := dt &&& ~~~(q.lastD.get zero256 t)
    let n := q.entered.get zeroNat t
    { q with lastD := q.lastD.set zero256 t dt, entered := q.entered.set zeroNat t (n + ones256 new),
             enteredAt := if n = 0 then q.enteredAt.set zeroNat t now else q.enteredAt,
             told := if t = 8 then q.told &&& dt else q.told }

/-- After every command: level sources set their pending bits, and every target's D_t is brought up to date. -/
def Dev.settle (d : Dev) : Dev :=
  { d with irq := (List.range 9).foldl (Irq.settle1 d.now) { d.irq with pend := d.pendNow } }

/-! ### The outcome of a command -/

/-- The rails are up and SBCLK runs, so that the clocks run that every unit but the fabric needs (R328, R337). -/
def Dev.clocked (d : Dev) : Bool := d.powered && d.sbclk

/-- A command that acts on the device alone.  Without clocks nothing happens. -/
def onDev (f : Nv → Mem → Dev → Dev) (s : State) : Host.Outcome State Fault Refusal :=
  if s.dev.clocked then .next { s with dev := (f s.nv s.mem s.dev).settle } else .next s

/-- A command that acts on the device and the bulk memories. -/
def onMem (f : Nv → Mem × Dev → Mem × Dev) (s : State) : Host.Outcome State Fault Refusal :=
  if s.dev.clocked then
    let r := f s.nv (s.mem, s.dev)
    .next { s with mem := r.1, dev := r.2.settle }
  else .next s

/-- A command that may also act on the non-volatile contents. -/
def onAll (f : Nv × Mem × Dev → Nv × Mem × Dev) (s : State) : Host.Outcome State Fault Refusal :=
  if s.dev.clocked then
    let r := f (s.nv, s.mem, s.dev)
    .next { s with nv := r.1, mem := r.2.1, dev := r.2.2.settle }
  else .next s

/-- A command of the Station fabric, which has no clock and goes on without SBCLK (R337); it makes no handshake in DEEP
(Table 16-8). -/
def onFabric (f : Nv → Mem → Dev → Dev) (s : State) : Host.Outcome State Fault Refusal :=
  if s.dev.powered && s.dev.f R.PWR_STATE 30 2 != 2 then .next { s with dev := (f s.nv s.mem s.dev).settle } else .next s

end Sys2Proof.Machine
end

