-- ==== Sys2Proof/Machine/Neuron.lean ====
section
/-! DEFINITION. The neuron engine (chapter 3): descriptors and slots, lazy leak, update, firing, storing, emission, and the
delay rings. -/

namespace Sys2Proof.Machine

/-- A population descriptor as read (Table 3-2), with RING_DEPTH turned into DEPTH. -/
structure Pop where
  valid : Bool
  model : Nat
  policy : Nat
  stateFmt : Nat
  outVc : Nat
  resetMode : Nat
  ringFmt : Nat
  payFmt : Nat
  modSlot : Nat
  decayTbl : Nat
  adaptTbl : Nat
  refSteps : Nat
  depth : Nat
  slotCount : Nat
  slotBase : Nat
  frac : Nat
  outDelay : Nat
  ringBase : Nat
  outPop : Nat
  rule : Nat
  outNbase : Nat
  vth : Word
  vreset : Word
  vrest : Word
  adaptInc : Nat
  adaptGain : Nat
deriving DecidableEq, Repr

/-- A descriptor from its eight words. -/
def Pop.ofWords (w : Nat → Word) : Pop :=
  { valid := bit (w 0) 31, model := fld (w 0) 29 2, policy := fld (w 0) 28 1, stateFmt := fld (w 0) 27 1,
    outVc := 1 + fld (w 0) 26 1, resetMode := fld (w 0) 25 1, ringFmt := fld (w 0) 24 1, payFmt := fld (w 0) 20 4,
    modSlot := fld (w 0) 16 4, decayTbl := fld (w 0) 12 4, adaptTbl := fld (w 0) 8 4, refSteps := fld (w 0) 0 8,
    depth := 2 ^ min (fld (w 1) 29 3) 5, slotCount := fld (w 1) 16 13, slotBase := fld (w 1) 0 12,
    frac := fld (w 2) 24 4, outDelay := fld (w 2) 16 5, ringBase := fld (w 2) 0 15,
    outPop := fld (w 3) 24 8, rule := fld (w 3) 16 8, outNbase := fld (w 3) 0 12,
    vth := w 4, vreset := w 5, vrest := w 6, adaptInc := fld (w 7) 16 16, adaptGain := fld (w 7) 0 16 }

/-- Descriptor `k` of a station. -/
def Dev.pop (d : Dev) (p k : Nat) : Pop := Pop.ofWords (fun i => d.sW p (0x60000 + 32 * k + 4 * i))

/-- Ring slots per accumulator. -/
def Pop.width (q : Pop) : Nat := if q.ringFmt = 0 then 2 else 1
/-- Ring slots of the population's region. -/
def Pop.ringLen (q : Pop) : Nat := q.depth * q.slotCount * q.width

/-- The valid descriptors of a world slot, ascending. -/
def Dev.popsOf (d : Dev) (p m : Nat) : List Nat :=
  (d.listed p 0x60000 0x62000 32).filter (fun k => (d.pop p k).valid && (d.pop p k).modSlot == m)

/-! ### Slots (Table 3-1) -/

def slotOff (n : Nat) : Nat := 0x50000 + 12 * n
def Dev.slotV (d : Dev) (p n : Nat) : Word := d.sM p (slotOff n)
def Dev.slotT (d : Dev) (p n : Nat) : Word := d.sM p (slotOff n + 4)
def Dev.slotX (d : Dev) (p n : Nat) : Word := d.sM p (slotOff n + 8)

/-- What an update works on: the fields of a slot. -/
structure Slot where
  v : Word
  tUpd : Nat
  tSpk : Nat
  adapt : Nat
  pop : Nat
  cross : Nat
  spkValid : Bool
  pend : Bool
deriving DecidableEq, Repr

def Dev.slot (d : Dev) (p n : Nat) : Slot :=
  let t := d.slotT p n
  let x := d.slotX p n
  { v := d.slotV p n, tUpd := fld t 0 16, tSpk := fld t 16 16, adapt := fld x 0 16, pop := fld x 16 8,
    cross := fld x 24 4, spkValid := bit x 29, pend := bit x 30 }

/-- Write a slot back; reserved bits stay zero. -/
def Dev.setSlot (d : Dev) (p n : Nat) (s : Slot) : Dev :=
  let d := d.setSM p (slotOff n) s.v
  let d := d.setSM p (slotOff n + 4) (w32 (s.tUpd % 65536 + s.tSpk % 65536 * 65536))
  d.setSM p (slotOff n + 8) (w32 (s.adapt % 65536 + s.pop % 256 * 2 ^ 16 + s.cross % 16 * 2 ^ 24
    + (if s.spkValid then 2 ^ 29 else 0) + (if s.pend then 2 ^ 30 else 0)))

/-- The valid descriptor that owns a slot, if one does (R56). -/
def Dev.ownerOf (d : Dev) (p n : Nat) : Option Nat :=
  (d.listed p 0x60000 0x62000 32).find? (fun k =>
    let q := d.pop p k
    q.valid && decide (q.slotBase ≤ n ∧ n < q.slotBase + q.slotCount))

/-! ### Counters of the engine (R80) -/

/-- The counters of Table 3-6 by their bit in STN_NE_OVF. -/
def neOff : Nat → Nat
  | 0 => R.STN_FIRE_CLIPPED | 1 => R.STN_REF_HELD | 2 => R.STN_DELAY_CLAMP | 3 => R.STN_NAN_DROP
  | 4 => R.STN_SAT | 5 => R.STN_SWEEP_LATE | _ => R.STN_NE_UPDATES

/-- Count in a neuron-engine counter of world slot `m`. -/
def Dev.ne (d : Dev) (p m bitNo k : Nat) : Dev :=
  let d := d.sCount p (neOff bitNo + 4 * m) k (R.STN_NE_OVF + 4 * m) bitNo (some 0)
  if bitNo = 5 ∧ k ≠ 0 then d.stnIrq p 0 else d

/-- Count in STN_IDLE_DROP, which has no overflow bit. -/
def Dev.idleDrop (d : Dev) (p k : Nat) : Dev := d.updSW p R.STN_IDLE_DROP (fun c => w32 (satAdd 32 c.toNat k))

/-! ### Credits (R133) -/

def Dev.created (d : Dev) (p m b k : Nat) : Dev :=
  d.updSW p (R.STN_CR_CREATED + 4 * (2 * m + b)) (fun c => w32 (satAdd 32 c.toNat k))
def Dev.consumed (d : Dev) (p m b k : Nat) : Dev :=
  d.updSW p (R.STN_CR_CONSUMED + 4 * (2 * m + b)) (fun c => w32 (satAdd 32 c.toNat k))
def Dev.lostOf (d : Dev) (p m b : Nat) : Nat := (d.stn p).lost.get zeroNat (2 * m + b)
def Dev.setLost (d : Dev) (p m b n : Nat) : Dev :=
  d.updStn p (fun s => { s with lost := s.lost.set zeroNat (2 * m + b) n })
/-- Count in a step counter, which raises no interrupt (R150). -/
def Dev.lateDrop (d : Dev) (p m k : Nat) : Dev := d.sCount p (R.STN_LATE_DROP + 4 * m) k R.STN_STEP_OVF m none

/-! ### Flits (R151, R152) -/

/-- CHECK of a word and tag: CRC-8 over bits [55:0] of the word, low byte first, and then the tag. -/
def checkOf (word : BitVec 64) (tag : Byte) : Byte :=
  let bits := ((List.range 7).map (fun i => msbBits 8 ((word >>> (8 * i)).toNat % 256))).flatten ++ msbBits 8 tag.toNat
  (crcBits 8 0x2F#8 0xFF#8 bits) ^^^ 0xFF#8

/-- A word with its CHECK formed for a tag. -/
def withCheck (word : BitVec 64) (tag : Byte) : BitVec 64 :=
  (word &&& 0x00FFFFFFFFFFFFFF#64) ||| ((checkOf word tag).setWidth 64 <<< 56)

def Copy.good (c : Copy) : Bool := (c.word >>> 56).setWidth 8 == checkOf c.word c.tag
def Copy.key (c : Copy) : Word := c.word.setWidth 32
def Copy.world (c : Copy) : Nat := fld c.key 20 12
def Copy.stepTag (c : Copy) : Nat := c.tag.toNat % 4
def Copy.fb (c : Copy) : Bool := c.tag.getLsbD 2
def Copy.thru (c : Copy) : Bool := c.tag.getLsbD 3
def Copy.trk (c : Copy) : Nat := c.tag.toNat / 16 % 8
def Copy.isMod (c : Copy) : Bool := c.word.getLsbD 54
def Copy.modAdd (c : Copy) : Bool := c.word.getLsbD 55
def Copy.bin (c : Copy) : Bool := c.word.getLsbD 53
def Copy.delay (c : Copy) : Nat := (c.word >>> 48).toNat % 32
def Copy.payload (c : Copy) : Nat := (c.word >>> 32).toNat % 65536

/-- A flit of a key, delay, payload and flags. -/
def mkWord (key : Word) (payload delay : Nat) (bin mod add : Bool) : BitVec 64 :=
  BitVec.ofNat 64 (key.toNat + payload % 65536 * 2 ^ 32 + delay % 32 * 2 ^ 48
    + (if bin then 2 ^ 53 else 0) + (if mod then 2 ^ 54 else 0) + (if add then 2 ^ 55 else 0))

/-- A copy with its check bits formed. -/
def mkCopy (word : BitVec 64) (tag vc : Nat) : Copy :=
  { word := withCheck word (BitVec.ofNat 8 tag), tag := BitVec.ofNat 8 tag, vc := vc, left := none }

/-- Keep STN_XP_EMIT: present occupancy, and PEAK when it rises. -/
def Dev.emitState (d : Dev) (p : Nat) : Dev :=
  let n := (d.stn p).emit.length
  d.updSW p R.STN_XP_EMIT (fun w => setFld (setFld w 0 13 n) 16 13 (max n (fld w 16 13)))

/-- The neuron engine takes `k` turns (R79). -/
def Dev.turn (d : Dev) (p k : Nat) : Dev := d.updStn p (fun s => { s with turns := s.turns + k })
def Dev.turns (d : Dev) (p : Nat) : Nat := (d.stn p).turns

/-- Emit an event of neuron index `n` of a population in step `t` (R60, R158): into the emission store, counted as
created.  It costs an engine turn (Table 3-5). -/
def Dev.emitEvent (d : Dev) (p : Nat) (q : Pop) (n slot payload t : Nat) (bin : Bool) : Dev :=
  let w := (d.slotWorld p q.modSlot).getD 0
  let key := w32 (w * 2 ^ 20 + q.outPop * 2 ^ 12 + (q.outNbase + n) % 4096)
  let c := mkCopy (mkWord key payload q.outDelay bin false false) (t % 4) q.outVc
  let d := d.updStn p (fun s => { s with emit := s.emit ++ [{ slot := slot, copy := c, wslot := q.modSlot }] })
  let d := (d.turn p 1).emitState p
  d.created p q.modSlot (t % 2) 1

/-! ### Leak (R62, R63) -/

/-- Entry `k` of row `j` of decay table `i`. -/
def Dev.decayEntry (d : Dev) (p i j k : Nat) : FVal := fb16 (d.sH p (0x62000 + 128 * i + 32 * j + 2 * k))

/-- The factor for Δt: at most one entry per hexadecimal digit, multiplied in FP32. -/
def Dev.decay (d : Dev) (p tbl dt : Nat) : FVal :=
  let es := (List.range 4).filterMap (fun j =>
    let nib := dt / 16 ^ j % 16
    if nib = 0 then none else some (d.decayEntry p tbl j nib))
  match es with
  | [] => .one
  | e :: es => es.foldl fmul e

/-! ### Update, firing and storing (R69 to R71) -/

/-- Threshold of a population for adaptation `a`. -/
def Pop.theta (q : Pop) (a : FVal) : FVal :=
  if q.model = 1 then fadd (f32 q.vth) (fmul (fb16 q.adaptGain) a) else f32 q.vth

/-- The crossings of one update: membrane, adaptation, threshold and count, at most 16. -/
def Pop.cross (q : Pop) : Nat → FVal × FVal × Nat → FVal × FVal × Nat
  | 0, s => s
  | n + 1, (v, a, k) =>
    let θ := q.theta a
    if θ.le v then
      let v := if q.resetMode = 0 then f32 q.vreset else fsub v θ
      let a := if q.model = 1 then fadd a (fb16 q.adaptInc) else a
      q.cross n (v, a, k + 1)
    else (v, a, k)

/-- The procedure fire of R70.  A binary spike's PAYLOAD is zero (log entry 45). -/
def Dev.fire (d : Dev) (p : Nat) (q : Pop) (slot : Nat) (s : Slot) (t : Nat) (v a : FVal) : Dev × Slot × FVal × FVal :=
  let (v, a, k) := q.cross 16 (v, a, 0)
  let extra := if (q.theta a).le v then 1 else 0
  let v := if extra = 1 then f32 q.vreset else v
  let d := if k ≤ 1 then d else d.turn p (k - 1)
  if k = 0 then (d, s, v, a)
  else if q.policy = 0 then
    let again := s.spkValid && s.tSpk == t % 65536
    let d := if again then d else d.emitEvent p q (slot - q.slotBase) slot 0 t true
    let clipped := (if again then k else k - 1) + extra
    let d := d.ne p q.modSlot 0 clipped
    (d, { s with tSpk := t % 65536, spkValid := true }, v, a)
  else
    let c := s.cross + k
    let d := d.ne p q.modSlot 0 (c - 15 + extra)
    (d, { s with cross := min c 15, pend := true, tSpk := t % 65536, spkValid := true }, v, a)

/-- A membrane as written back, with whether it saturated (R71).  A NaN stored as INT16 becomes 0 and is counted nowhere
(log entry 45). -/
def Pop.storeV (q : Pop) (v : FVal) : Word × Bool :=
  if q.stateFmt = 1 then
    let (k, sat, _) := convInt (-32768) 32767 (v.mul (.fin false 1 q.frac)) none
    (w32 ((k % 65536).toNat), sat)
  else
    let c := fp32.conv v none
    (w32 c.code, c.sat)

/-- The membrane of a slot as a value (R69). -/
def Pop.loadV (q : Pop) (w : Word) : FVal :=
  if q.stateFmt = 1 then (FVal.ofInt (sext 16 w.toNat)).mul (.fin false 1 (-(q.frac : Int))) else f32 w

/-- What touches a neuron (R69). -/
inductive Touch where
  | input | matured | sweep
deriving DecidableEq, Repr

/-- A slot made ready for an update at step `t`: whether its spike expires, whether the refractory hold applies, whether
its membrane was NaN, and the membrane with the hold and the leak applied, before the input is added (R69, R263). -/
structure Ready where
  expire : Bool
  hold : Bool
  nan : Bool
  v : FVal
deriving DecidableEq, Repr

def Dev.ready (d : Dev) (p : Nat) (q : Pop) (s : Slot) (t : Nat) (kind : Touch) : Ready :=
  let v0 := q.loadV s.v
  let nan := v0.isNan
  let v0 := if nan then f32 q.vreset else v0
  let u := (t + 65536 - s.tUpd) % 65536
  let age := (t + 65536 - s.tSpk) % 65536
  let expire := s.spkValid && kind == .sweep && decide (32768 ≤ age)
  let hold := s.spkValid && !expire && decide (1 ≤ age ∧ age ≤ q.refSteps)
  let after := s.spkValid && !expire && !hold
    && decide (q.refSteps < age ∧ 0 < q.refSteps ∧ age - q.refSteps < u)
  let v0 := if after then f32 q.vreset else v0
  let dt := if after then age - q.refSteps else u
  let v :=
    if hold then f32 q.vreset
    else if q.model ≠ 2 ∧ dt ≠ 0 then fadd (f32 q.vrest) (fmul (fsub v0 (f32 q.vrest)) (d.decay p q.decayTbl dt))
    else v0
  { expire := expire, hold := hold, nan := nan, v := v }

/-- The procedure update of R69 for a slot at step `t`, with the engine turns of Table 3-5. -/
def Dev.update (d : Dev) (p slot t : Nat) (x : FVal) (kind : Touch) : Dev :=
  let s := d.slot p slot
  let q := d.pop p s.pop
  let m := q.modSlot
  let r := d.ready p q s t kind
  let d := if r.nan then d.ne p m 3 1 else d
  let s := if r.expire then { s with spkValid := false } else s
  let a0 := fb16 s.adapt
  let a0 := if q.model = 1 then fmul a0 (d.decay p q.adaptTbl ((t + 65536 - s.tUpd) % 65536)) else a0
  let (d, s, v, a) :=
    if r.hold then (if kind == .sweep then d else d.ne p m 1 1, s, r.v, a0)
    else
      let v := fadd r.v x
      if q.model = 3 then (d, (if kind == .sweep then s else { s with pend := true }), v, a0)
      else d.fire p q slot s t v a0
  let (vw, vsat) := q.storeV v
  let ac := bf16.conv a none
  let d := d.ne p m 4 ((if vsat then 1 else 0) + (if ac.sat then 1 else 0))
  let d := d.setSlot p slot { s with v := vw, adapt := ac.code, tUpd := t % 65536 }
  (d.turn p (if q.model = 1 then 2 else 1)).ne p m 6 1

/-! ### Delay rings (R64 to R66) -/

def ringOff (s : Nat) : Nat := 0x40000 + 2 * s
def noOcc (_ : Nat) : Bool := false
def Dev.setOcc (d : Dev) (p s : Nat) (b : Bool) : Dev := d.updStn p (fun x => { x with occ := x.occ.set noOcc s b })

/-- The first ring slot of the accumulator of row `r`, neuron `n`. -/
def Pop.acc (q : Pop) (r n : Nat) : Nat := q.ringBase + (r * q.slotCount + n) * q.width

/-- The value an accumulator holds. -/
def Dev.accValue (d : Dev) (p : Nat) (q : Pop) (s : Nat) : FVal :=
  if q.ringFmt = 0 then f32 (d.sM p (ringOff s)) else fb16 (d.sMH p (ringOff s))

/-- Stochastic narrowing of an FP32 sum, with the generator's next state (R65). -/
def narrowSr (rng b : Word) : Word × Nat × Bool :=
  let x := xorshift rng
  let m := (b.toNat % 2 ^ 31) + x.toNat / 65536
  let ovf := decide (0x7F800000 ≤ m)
  let m := if ovf then 0x7F7F0000 else m
  (x, (if bit b 31 then 32768 else 0) + m / 65536, ovf)

/-- Accumulate a contribution into a ring accumulator (R65). -/
def Dev.accumulate (d : Dev) (p : Nat) (q : Pop) (s : Nat) (x : FVal) : Dev :=
  let m := q.modSlot
  if x.isNan then d.ne p m 3 1
  else
    let (sum, sat) := satF (fadd (d.accValue p q s) x)
    let d := d.setOcc p s true
    if q.ringFmt = 0 then (d.setSM p (ringOff s) (toF32 sum)).ne p m 4 sat
    else
      let (rng, code, ovf) := narrowSr (d.sW p R.STN_RING_RNG) (toF32 sum)
      let d := d.setSW p R.STN_RING_RNG rng
      (d.setSMH p (ringOff s) code).ne p m 4 (if sat = 1 ∨ ovf then 1 else 0)

/-- Apply a contribution to neuron index `n` of a population at step `t` with total delay `dl` (R64). -/
def Dev.contribute (d : Dev) (p : Nat) (q : Pop) (n t dl : Nat) (x : FVal) : Dev :=
  if dl = 0 then d.update p (q.slotBase + n) t x .input
  else
    let d := if q.depth < dl then d.ne p q.modSlot 2 1 else d
    d.accumulate p q (q.acc ((t + min dl q.depth) % q.depth) n) x

/-- The valid descriptors of a station, with their indices, ascending. -/
def Dev.validPops (d : Dev) (p : Nat) : List (Nat × Pop) :=
  ((d.listed p 0x60000 0x62000 32).map (fun k => (k, d.pop p k))).filter (fun q => q.2.valid)

/-- Set the occupancy bit of every accumulator that ring slots `s` up to `s + n` touch and that is nonzero (R66).  Nonzero
is read from the bits, so that -0.0 sets its bit (log entry 45). -/
def Dev.occupy (d : Dev) (p s n : Nat) : Dev :=
  (d.validPops p).foldl (fun d (_, q) =>
    (List.range (q.depth * q.slotCount)).foldl (fun d i =>
      let a := q.ringBase + i * q.width
      let touched := decide (s < a + q.width ∧ a < s + n)
      let nz := if q.ringFmt = 0 then d.sM p (ringOff a) != 0 else d.sMH p (ringOff a) != 0
      if touched && nz then d.setOcc p a true else d) d) d

/-- At GO and after a reset the station sets exactly the bits whose accumulators are nonzero (R66). -/
def Dev.rebuildOcc (d : Dev) (p : Nat) : Dev := (d.updStn p (fun x => { x with occ := [] })).occupy p 0 32768

/-- Mature one accumulator in the opening pass of step `t` (R68).  One that holds -0.0 matures as -0.0 (log entry 45). -/
def Dev.mature (d : Dev) (p : Nat) (q : Pop) (t n : Nat) : Dev :=
  let s := q.acc (t % q.depth) n
  if (d.stn p).occ.get noOcc s then
    let x := d.accValue p q s
    let d := if q.ringFmt = 0 then d.setSM p (ringOff s) 0 else d.setSMH p (ringOff s) 0
    (d.setOcc p s false).update p (q.slotBase + n) t x .matured
  else d

/-- Emit the pending event of a slot in the opening pass of step `t`, and clear its PEND and CROSS (R68, R73, R74).  A
V_RESET that saturates as INT16 counts in STN_SAT, and the payload of a graded relay is V after a late sweep (log entry 45). -/
def Dev.emitPending (d : Dev) (p slot t : Nat) : Dev :=
  let s := d.slot p slot
  if s.pend then
    let q := d.pop p s.pop
    let v := if q.model = 3 then q.loadV s.v else .fin false s.cross 0
    let c := (fmtOf q.payFmt).conv v none
    let d := d.ne p q.modSlot 4 (if c.sat then 1 else 0)
    let d := d.ne p q.modSlot 3 (if c.nan then 1 else 0)
    let d := d.emitEvent p q (slot - q.slotBase) slot c.code t false
    let (vr, vsat) := q.storeV (f32 q.vreset)
    let reset := decide (q.model = 3 ∧ q.resetMode = 1)
    let d := d.ne p q.modSlot 4 (if reset && vsat then 1 else 0)
    d.setSlot p slot { s with pend := false, cross := 0, v := if reset then vr else s.v }
  else d

/-- The slots of a world slot's populations, ascending. -/
def Dev.slotsOf (d : Dev) (p m : Nat) : List Nat :=
  let qs := (d.validPops p).filter (fun q => q.2.modSlot == m)
  if qs = [] then []
  else (List.range 4096).filter (fun n => qs.any (fun q => decide (q.2.slotBase ≤ n ∧ n < q.2.slotBase + q.2.slotCount)))

end Sys2Proof.Machine
end

