-- ==== Sys2Proof/Machine/Learning.lean ====
section
/-! DEFINITION. On-chip learning (chapter 5): modulators, the plastic update of R117 and requantisation. -/

namespace Sys2Proof.Machine

/-- The counters of Table 5-9 by their bit in STN_LRN_OVF. -/
def lrnOff : Nat → Nat
  | 0 => R.STN_LRN_UPDATES | 1 => R.STN_LRN_SKIP | 2 => R.STN_LRN_SAT | _ => R.STN_LRN_STALE

/-- Count in a learning counter of world slot `m` (R127). -/
def Dev.lrn (d : Dev) (p m bitNo k : Nat) : Dev := d.sCount p (lrnOff bitNo + 4 * m) k R.STN_LRN_OVF bitNo (some 2)
def Dev.modDrop (d : Dev) (p : Nat) : Dev := d.sCount p R.STN_MOD_DROP 1 R.STN_LRN_OVF 4 (some 2)

/-! ### Modulators (R112 to R116) -/

def modCfg (m : Nat) : Nat := R.STN_MOD_CFG + 16 * m
def modValue (m : Nat) : Nat := R.STN_MOD_VALUE + 16 * m
def modT (m : Nat) : Nat := R.STN_MOD_T + 16 * m
def modPend (m : Nat) : Nat := R.STN_MOD_PEND + 16 * m

/-- An FP32 result of learning or of a modulator, with the saturations counted so far. -/
abbrev LVal := FVal × Nat

/-- A rounded result whose operands are finite overflows to the largest finite value and counts (R115, R118); an infinite
operand makes no overflow (log entry 46). -/
def ovf (a b r : FVal) : LVal :=
  match a, b with
  | .inf _, _ => (r, 0)
  | _, .inf _ => (r, 0)
  | _, _ => satF r

def lmul (a b : LVal) : LVal := let (v, s) := ovf a.1 b.1 (fmul a.1 b.1); (v, a.2 + b.2 + s)
def ladd (a b : LVal) : LVal := let (v, s) := ovf a.1 b.1 (fadd a.1 b.1); (v, a.2 + b.2 + s)
def ldiv (a b : LVal) : LVal := let (v, s) := ovf a.1 b.1 (fdiv a.1 b.1); (v, a.2 + b.2 + s)

/-- A decay factor formed with learning's rule for overflow (R114, R117, R118). -/
def Dev.ldecay (d : Dev) (p tbl dt : Nat) : LVal :=
  let es := (List.range 4).filterMap (fun j =>
    let nib := dt / 16 ^ j % 16
    if nib = 0 then none else some (d.decayEntry p tbl j nib))
  match es with
  | [] => (.one, 0)
  | e :: es => es.foldl (fun a b => lmul a (b, 0)) (e, 0)

/-- A value as FP32 bits, an infinity included. -/
def bitsF32 (v : FVal) : Word :=
  match v with
  | .inf n => w32 (fp32.signBit n + 0x7F800000)
  | v => toF32 v

/-- M(t) of a world slot (R114), with the overflows of forming it (R118). -/
def Dev.modulator (d : Dev) (p m t : Nat) : LVal :=
  let c := d.sW p (modCfg m)
  let v := f32 (d.sW p (modValue m))
  if bit c 29 then lmul (v, 0) (d.ldecay p (fld c 24 4) ((t + 65536 - fld (d.sW p (modT m)) 0 16) % 65536)) else (v, 0)

/-- Bring the modulator up to date to step `t` (R114); without DECAY_EN the value stands as it is. -/
def Dev.fold (d : Dev) (p m t : Nat) : Dev :=
  let (v, sat) := d.modulator p m t
  let d := if bit (d.sW p (modCfg m)) 29 then (d.setSW p (modValue m) (bitsF32 v)).lrn p m 2 sat else d
  d.updSW p (modT m) (setFld · 0 16 t)

/-- Whether a pending value is set, and whether a pending sum is (Table 5-5). -/
def Dev.pendSet (d : Dev) (p m : Nat) : Bool := bit (d.sW p (modT m)) 16
def Dev.pendAdd (d : Dev) (p m : Nat) : Bool := bit (d.sW p (modT m)) 17

/-- Add in FP32, an overflow counting in STN_LRN_SAT (R115). -/
def Dev.modSum (d : Dev) (p m : Nat) (a b : FVal) : FVal × Dev :=
  let (v, s) := ovf a b (fadd a b)
  (v, d.lrn p m 2 s)

/-- The procedure modulator_arrival of R115. -/
def Dev.modArrive (d : Dev) (p m : Nat) (v : FVal) (add : Bool) (t : Nat) : Dev :=
  if bit (d.sW p (modCfg m)) 30 then
    let d := d.fold p m t
    if add then
      let (v, d) := d.modSum p m (f32 (d.sW p (modValue m))) v
      d.setSW p (modValue m) (bitsF32 v)
    else d.setSW p (modValue m) (bitsF32 v)
  else if !add then
    (d.setSW p (modPend m) (bitsF32 v)).updSW p (modT m) (setFld · 16 2 1)
  else if d.pendSet p m || d.pendAdd p m then
    let (v, d) := d.modSum p m (f32 (d.sW p (modPend m))) v
    d.setSW p (modPend m) (bitsF32 v)
  else (d.setSW p (modPend m) (bitsF32 v)).updSW p (modT m) (setFld · 17 1 1)

/-- The procedure apply_pending of R115. -/
def Dev.applyPending (d : Dev) (p m : Nat) : Dev :=
  let d :=
    if d.pendSet p m then d.setSW p (modValue m) (d.sW p (modPend m))
    else if d.pendAdd p m then
      let (v, d) := d.modSum p m (f32 (d.sW p (modValue m))) (f32 (d.sW p (modPend m)))
      d.setSW p (modValue m) (bitsF32 v)
    else d
  (d.setSW p (modPend m) 0).updSW p (modT m) (setFld · 16 2 0)

/-- At the start of an opening pass: fold when a sweep pass begins or a value is pending, then apply it (R114, R115). -/
def Dev.foldAtOpening (d : Dev) (p m t : Nat) : Dev :=
  let d := if t % 8192 = 0 ∨ d.pendSet p m ∨ d.pendAdd p m then d.fold p m t else d
  d.applyPending p m

/-! ### Rules (R106, R107) -/

/-- A rule descriptor as read (Table 5-1). -/
structure Rule where
  valid : Bool
  srOff : Bool
  eligFmt : Nat
  eligTbl : Nat
  eligDecay : Bool
  causal : Bool
  acausal : Bool
  scale : FVal
  eta : FVal
  wMin : FVal
  wMax : FVal
deriving DecidableEq, Repr

def Dev.rule (d : Dev) (p r : Nat) : Rule :=
  let o := 0x64000 + 32 * r
  let w := d.sW p o
  { valid := decide (r < 64) && bit w 31, srOff := bit w 30, eligFmt := fld w 28 2, eligTbl := fld w 24 4,
    eligDecay := bit w 23, causal := bit w 22, acausal := bit w 21, scale := fp16.decode (fld w 0 16),
    eta := f32 (d.sW p (o + 4)), wMin := f32 (d.sW p (o + 8)), wMax := f32 (d.sW p (o + 12)) }

/-- Whether a valid rule is broken (R107). -/
def Rule.broken (r : Rule) : Bool :=
  r.eligFmt == 3 || (match r.scale with | .fin _ m _ => m == 0 | _ => true)
    || r.eta.isNan || r.wMin.isNan || r.wMax.isNan || !r.wMin.le r.wMax

/-- The format of the eligibility code (R107). -/
def Rule.fmt (r : Rule) : Fmt := if r.eligFmt = 0 then fmtOf 4 else if r.eligFmt = 1 then fmtOf 10 else fmtOf 11

/-- Kernel entry K(Δ), at j = Δ + 32. -/
def Dev.kernel (d : Dev) (p r j : Nat) : FVal := fb16 (d.sH p (0x64800 + 128 * r + 2 * j))

/-- The fields of a plastic entry (Table 4-6, Table 5-2). -/
structure Entry where
  target : Nat
  wcode : Nat
  elig : Nat
  ets : Nat
  flags : Nat
deriving DecidableEq, Repr

def Entry.ofNat (e : Nat) : Entry :=
  { target := e % 4096, wcode := e / 2 ^ 12 % 256, elig := e / 2 ^ 20 % 256, ets := e / 2 ^ 28 % 256,
    flags := e / 2 ^ 36 % 16 }
def Entry.toNat (e : Entry) : Nat :=
  e.target + e.wcode * 2 ^ 12 + e.elig * 2 ^ 20 + e.ets * 2 ^ 28 + e.flags * 2 ^ 36

/-- What the row gives each entry's learning: its presynaptic time, weight format, group zero and scale. -/
structure LearnCtx where
  preValid : Bool
  tPre : Nat
  wfmt : Fmt
  zero : Int
  scale : FVal
deriving DecidableEq, Repr

/-- What learning an entry came to: the entry, the generator, and the counts of Table 5-9. -/
structure Learned where
  ent : Entry
  rng : Word
  updates : Nat
  skips : Nat
  sats : Nat
  stale : Nat
deriving DecidableEq, Repr

/-- The scale is usable under R118: neither zero, infinite nor NaN. -/
def usableScale : FVal → Bool
  | .fin _ m _ => m != 0
  | _ => false

/-- Requantise a weight (R118): code and saturations. -/
def requant (c : LearnCtx) (wn : LVal) (r : Option Nat) : Nat × Nat :=
  let v := ldiv wn (c.scale, 0)
  match c.wfmt with
  | .fp f =>
    let k := f.conv v.1 r
    (k.code, v.2 + (if k.sat then 1 else 0) + (if k.nan then 1 else 0))
  | f =>
    let (k, s0, n0) := convInt (-(2 ^ 200 : Nat)) (2 ^ 200 : Nat) v.1 r
    let k' := k + c.zero
    let ovf := decide (k' < f.lo ∨ f.hi < k')
    let k'' := max f.lo (min f.hi k')
    ((k'' % (2 ^ f.bits : Nat)).toNat, v.2 + (if ovf ∨ s0 then 1 else 0) + (if n0 then 1 else 0))

/-- The procedure learn of R117, for an entry whose rule is neither disabled nor broken.  A NaN wn passes min and max
unchanged and uncounted, and so does a zero against a bound that is a zero of the other sign (log entry 46). -/
def Dev.learn (d : Dev) (p : Nat) (q : Pop) (c : LearnCtx) (ent : Entry) (wOld : FVal) (mv : FVal) (t : Nat) : Learned :=
  let R' := d.rule p q.rule
  let rng := d.sW p R.STN_LRN_RNG
  let same : Learned := { ent := ent, rng := rng, updates := 0, skips := 0, sats := 0, stale := 0 }
  if ent.flags.testBit 0 then same
  else
    let nr := d.slot p (q.slotBase + ent.target)
    let apre := (t + 65536 - c.tPre) % 65536
    let match_ := ent.ets == c.tPre % 256
    let stale := if c.preValid && !match_ then 1 else 0
    let e : LVal :=
      if c.preValid && match_ && decide (apre < 16384) then
        let e := lmul (R'.fmt.value ent.elig, 0) (R'.scale, 0)
        if R'.eligDecay then lmul e (d.ldecay p R'.eligTbl apre) else e
      else (.zero, 0)
    let aspk := (t + 65536 - nr.tSpk) % 65536
    let e : LVal :=
      if nr.spkValid && (!c.preValid || decide (aspk < apre)) then
        let e :=
          if R'.causal && c.preValid && decide (apre - aspk ≤ 32) then
            let k : LVal := (d.kernel p q.rule (32 - (apre - aspk)), 0)
            let k := if R'.eligDecay then lmul k (d.ldecay p R'.eligTbl aspk) else k
            ladd e k
          else e
        if R'.acausal && decide (aspk ≤ 31) then ladd e (d.kernel p q.rule (32 + aspk), 0) else e
      else e
    if e.1.isNan || mv.isNan then { same with skips := 1, sats := e.2, stale := stale }
    else
      let eligOnly := ent.flags.testBit 1
      let writeW := !eligOnly && !wOld.isNan
      let dw := lmul (lmul (R'.eta, 0) (mv, 0)) (e.1, 0)
      let wn := ladd (wOld, 0) dw
      let clampLo := wn.1.le R'.wMin && !wn.1.eq R'.wMin
      let clampHi := R'.wMax.le wn.1 && !wn.1.eq R'.wMax
      let w1 := if clampLo then R'.wMin else if clampHi then R'.wMax else wn.1
      let w2 := if ent.flags.testBit 2 && !wOld.isZero && w1.neg != wOld.neg then FVal.zero else w1
      let wsat := wn.2 + (if clampLo || clampHi then 1 else 0)
      let sk := if wOld.isNan && !eligOnly then 1 else 0
      let rng1 := if R'.srOff then rng else xorshift rng
      let r1 := if R'.srOff then none else some (rng1.toNat / 65536)
      let ed := ldiv (e.1, 0) (R'.scale, 0)
      let ec := R'.fmt.conv ed.1 r1
      let esat := e.2 + ed.2 + (if ec.sat then 1 else 0) + (if ec.nan then 1 else 0)
      let ent := { ent with elig := ec.code, ets := t % 256 }
      if writeW && usableScale c.scale then
        let rng2 := if R'.srOff then rng1 else xorshift rng1
        let r2 := if R'.srOff then none else some (rng2.toNat / 65536)
        let (code, s) := requant c (w2, 0) r2
        { ent := { ent with wcode := ent.wcode / 2 ^ c.wfmt.bits * 2 ^ c.wfmt.bits + code }, rng := rng2, updates := 1, skips := sk,
          sats := esat + wsat + s, stale := stale }
      else
        { ent := ent, rng := rng1, updates := 0, skips := sk + (if writeW then 1 else 0),
          sats := esat + (if writeW then wsat else 0), stale := stale }

/-- Store the generator and count what learning an entry came to (R119, R127). -/
def Dev.applyLearned (d : Dev) (p m : Nat) (l : Learned) : Dev :=
  let d := d.setSW p R.STN_LRN_RNG l.rng
  (((d.lrn p m 0 l.updates).lrn p m 1 l.skips).lrn p m 2 l.sats).lrn p m 3 l.stale

end Sys2Proof.Machine
end

