-- ==== Sys2Proof/Machine/Synapse.lean ====
section
/-! DEFINITION. The synapse store (chapter 4): directory, rows, dequantisation, and the delivery of an event. -/

namespace Sys2Proof.Machine

/-! ### Counters (R105) -/

def Dev.rowMiss (d : Dev) (p : Nat) : Dev := d.sCount p R.STN_ROW_MISS 1 R.STN_SYN_OVF 16 (some 1)
def Dev.rowBad (d : Dev) (p : Nat) : Dev := d.sCount p R.STN_ROW_BAD 1 R.STN_SYN_OVF 17 (some 1)
def Dev.rowRange (d : Dev) (p k : Nat) : Dev := d.sCount p R.STN_ROW_RANGE k R.STN_SYN_OVF 18 (some 1)
def Dev.rowWorld (d : Dev) (p : Nat) : Dev := d.sCount p R.STN_ROW_WORLD 1 R.STN_SYN_OVF 19 (some 1)
def Dev.synRows (d : Dev) (p m : Nat) : Dev := d.sCount p (R.STN_SYN_ROWS + 4 * m) 1 R.STN_SYN_OVF m (some 1)

/-- The 64-bit count of entries applied (R105); a counter for reporting, it stays at its largest value (R32). -/
def Dev.synOps (d : Dev) (p m k : Nat) : Dev :=
  let n := (d.sW p (R.STN_SYN_OPS_LO + 4 * m)).toNat + (d.sW p (R.STN_SYN_OPS_HI + 4 * m)).toNat * 2 ^ 32
  let n := satAdd 64 n k
  (d.setSW p (R.STN_SYN_OPS_LO + 4 * m) (w32 n)).setSW p (R.STN_SYN_OPS_HI + 4 * m) (w32 (n / 2 ^ 32))

/-! ### The store (R81 to R84) -/

/-- DIR_LEN and the page buffer's size in effect (Table 4-15), which a reset of the registers leaves (R111). -/
def Dev.dirLen (d : Dev) (p : Nat) : Nat := fld (d.stn p).store 0 15
def Dev.pbSize (d : Dev) (p : Nat) : Nat := fld (d.stn p).store 28 3
/-- The first byte of the page buffer, which ends the row region. -/
def Dev.pbBase (d : Dev) (p : Nat) : Nat := 0x40000 - 0x4000 * d.pbSize p

/-- STORE_HDR is read at GO; a directory that would reach into the page buffer is clipped (R82). -/
def Dev.readStoreHdr (d : Dev) (p : Nat) : Dev :=
  let h := d.sM p 0
  let pb := min (fld h 28 3) 4
  let len := fld h 0 15
  let fit := (0x40000 - 0x4000 * pb - 8) / 4
  let w := w32 (min len fit + pb * 2 ^ 28 + (if fit < len then 2 ^ 31 else 0))
  (d.updStn p (fun s => { s with store := w })).setSW p R.STN_STORE_CFG w

/-- Directory entry `i`: the word address of its run, if it is valid and in the directory (R84). -/
def Dev.dirRow (d : Dev) (p i : Nat) : Option Nat :=
  let e := d.sM p (8 + 4 * i)
  if i < d.dirLen p ∧ bit e 31 then some (fld e 0 16) else none

/-! ### Rows (R85 to R89) -/

/-- A row header as read (Table 4-4), with the word address it stands at. -/
structure Row where
  at_ : Nat
  last : Bool
  kind : Nat
  delay : Nat
  wfmt : Nat
  pfmt : Nat
  tpop : Nat
  gsize : Nat
  scaleKind : Nat
  count : Nat
  tbase : Nat
  tPre : Nat
  preValid : Bool
deriving DecidableEq, Repr

def Dev.row (d : Dev) (p a : Nat) : Row :=
  let lo := d.sM p (4 * a)
  let hi := d.sM p (4 * a + 4)
  let x := d.sM p (4 * a + 8)
  { at_ := a, last := bit hi 31, kind := fld hi 29 2, delay := fld hi 24 5, wfmt := fld hi 20 4, pfmt := fld hi 16 4,
    tpop := fld hi 8 8, gsize := fld hi 6 2, scaleKind := fld hi 5 1, count := fld lo 24 8 + fld hi 0 5 * 256,
    tbase := fld lo 12 12, tPre := fld x 0 16, preValid := bit x 16 }

/-- Header words, group words and entry width (R86, R87). -/
def Row.hdr (r : Row) : Nat := if r.kind = 2 then 4 else 2
def Row.gEntries (r : Row) : Nat := 32 * 2 ^ r.gsize
def Row.groups (r : Row) : Nat := if r.gsize = 3 then 1 else (r.count + r.gEntries - 1) / r.gEntries
def Row.width (r : Row) : Nat :=
  if r.kind = 2 then 40 else if r.kind = 1 then 12 + (fmtOf r.wfmt).bits else (fmtOf r.wfmt).bits
/-- Words the row occupies (R88). -/
def Row.size (r : Row) : Nat := r.hdr + r.groups + (r.count * r.width + 31) / 32

/-- Whether a row is bad (R89). -/
def Dev.badRow (d : Dev) (p : Nat) (r : Row) : Bool :=
  let q := d.pop p r.tpop
  r.kind == 3 || decide (14 ≤ r.wfmt) || decide (14 ≤ r.pfmt) || (r.kind == 2 && decide (12 ≤ r.wfmt))
    || r.count == 0 || decide (4096 < r.count) || !q.valid
    || (r.kind == 0 && decide (q.slotCount < r.tbase + r.count))
    || decide (4 * r.at_ < 8 + 4 * d.dirLen p) || decide (d.pbBase p < 4 * (r.at_ + r.size))

/-- The byte offset of the row's body. -/
def Row.body (r : Row) : Nat := 4 * (r.at_ + r.hdr + r.groups)

/-- Entry `i` of the body, as a number of `e` bits (R87). -/
def Dev.entryBits (d : Dev) (p body e i : Nat) : Nat :=
  leNat (readBytes zeroByte d.stnM (skey p (body + i * e / 8)) 8) / 2 ^ (i * e % 8) % 2 ^ e

/-- Write entry `i` of a body of `e`-bit entries. -/
def Dev.setEntryBits (d : Dev) (p body e i v : Nat) : Dev :=
  let a := skey p (body + i * e / 8)
  let x := leNat (readBytes zeroByte d.stnM a 8)
  let s := i * e % 8
  let x' := x % 2 ^ s + v % 2 ^ e * 2 ^ s + x / 2 ^ (s + e) * 2 ^ (s + e)
  { d with stnM := writeBytes zeroByte d.stnM a (leBytes 8 x') }

/-- The group parameter word of entry `i` (R86). -/
def Dev.groupWord (d : Dev) (p : Nat) (r : Row) (i : Nat) : Word :=
  d.sM p (4 * (r.at_ + r.hdr + (if r.gsize = 3 then 0 else i / r.gEntries)))

/-! ### Dequantisation (R92, R93, R104) -/

/-- The zero point of a group word for a weight format (Table 4-5). -/
def zeroPoint (f : Fmt) (g : Word) : Int :=
  match f with
  | .int _ => sext 8 (fld g 16 8)
  | .uint _ => (fld g 16 8 : Int)
  | .fp _ => 0

/-- The scale of a group word (R104). -/
def groupScale (scaleKind : Nat) (g : Word) : FVal :=
  if scaleKind = 0 then fp16.decode (fld g 0 16)
  else if fld g 0 8 = 255 then .nan false
  else .fin false 1 ((fld g 0 8 : Int) - 127)

/-- A weight code as a BF16 value, with whether it saturated (R92). -/
def dequant (q wfmt scaleKind : Nat) (g : Word) : FVal × Bool :=
  let f := fmtOf wfmt
  let v := f.value q
  if v.isNan then (v, false)
  else
    let v := if f.isInt then v.add (.ofInt (-(zeroPoint f g))) else v
    let s := groupScale scaleKind g
    if s.isNan then (s, false)
    else
      -- an infinite code saturates whatever the scale
      let x := match v with | .inf n => .inf (n != s.neg) | v => v.mul s
      let c := bf16.conv x none
      (fb16 c.code, c.sat)

/-- The multiplier operand of an event (R93). -/
def payloadOf (bin : Bool) (payload pfmt : Nat) : FVal × Bool :=
  if bin then (.one, false)
  else
    let c := bf16.conv ((fmtOf pfmt).value payload) none
    (fb16 c.code, c.sat)

/-- The product of a weight and an operand in FP32, limited to the largest finite value (R93). -/
def synMul (w y : FVal) : FVal × Nat := satF (fmul w y)

/-! ### Delivery (R91) -/

/-- Whether entry `i` of a row names a target that the population has (R91). -/
def Dev.inRange (d : Dev) (p : Nat) (r : Row) (q : Pop) (i : Nat) : Bool :=
  decide ((if r.kind = 0 then r.tbase + i else d.entryBits p r.body r.width i % 4096) < q.slotCount)

/-- Apply one entry of a row to the event's targets.  An entry that R91 skips does not count in STN_LRN_SKIP under a broken
rule (log entry 46). -/
def Dev.applyEntry (d : Dev) (p : Nat) (r : Row) (q : Pop) (c : Copy) (mv : FVal) (t i : Nat) : Dev :=
  let m := q.modSlot
  let raw := d.entryBits p r.body r.width i
  let n := if r.kind = 0 then r.tbase + i else raw % 4096
  let code := if r.kind = 0 then raw else if r.kind = 1 then raw / 4096 else (Entry.ofNat raw).wcode
  if q.slotCount ≤ n then d.rowRange p 1
  else
    let d := d.synOps p m 1
    let g := d.groupWord p r i
    let code := code % 2 ^ (fmtOf r.wfmt).bits
    let (w, ws) := dequant code r.wfmt r.scaleKind g
    let (y, ys) := payloadOf c.bin c.payload r.pfmt
    let (x, xs) := synMul w y
    let d := d.ne p m 4 ((if ws then 1 else 0) + (if ys then 1 else 0) + xs)
    let rule := d.rule p q.rule
    let d :=
      if r.kind = 2 ∧ rule.valid then
        if rule.broken then d.lrn p m 1 1
        else
          let ctx : LearnCtx := { preValid := r.preValid, tPre := r.tPre, wfmt := fmtOf r.wfmt,
                                  zero := zeroPoint (fmtOf r.wfmt) g, scale := groupScale r.scaleKind g }
          let l := d.learn p q ctx (Entry.ofNat raw) w mv t
          (d.setEntryBits p r.body 40 i l.ent.toNat).applyLearned p m l
      else d
    if w.isNan || y.isNan || x.isNan then d.ne p m 3 1
    else d.contribute p q n t (c.delay + r.delay) x

/-- Apply a row that is not bad to an event (R91), and for a plastic row write its header (R111).  A row whose in-range entries
are all FROZEN reads the modulator too (log entry 46). -/
def Dev.applyRow (d : Dev) (p : Nat) (r : Row) (c : Copy) : Dev :=
  let q := d.pop p r.tpop
  let m := q.modSlot
  match d.slotWorld p m with
  | none => d.idleDrop p r.count
  | some w =>
    if w ≠ c.world then d.rowWorld p
    else
      let t := d.slotStep p m
      let d := d.synRows p m
      let (mv, sat) := d.modulator p m t
      let rule := d.rule p q.rule
      -- the modulator is read when the first entry begins learning (R116)
      let learns := r.kind == 2 && rule.valid && !rule.broken && (List.range r.count).any (d.inRange p r q)
      let d := if learns then d.lrn p m 2 sat else d
      let d := (List.range r.count).foldl (fun d i => d.applyEntry p r q c mv t i) d
      if r.kind = 2 then d.setSM p (4 * r.at_ + 8) (setFld (setFld (d.sM p (4 * r.at_ + 8)) 0 16 t) 16 1 1) else d

/-- Walk a run of rows for an event; the run ends at its last row or at a bad row (R89).  A run is never longer than the
store, which bounds the walk. -/
def Dev.walkRun (d : Dev) (p : Nat) (c : Copy) : Nat → Nat → Dev
  | 0, _ => d
  | fuel + 1, a =>
    let r := d.row p a
    if d.badRow p r then d.rowBad p
    else
      let d := d.applyRow p r c
      if r.last then d else d.walkRun p c fuel (a + r.size)

/-- The procedure deliver of R91, without the event's consumption. -/
def Dev.deliver (d : Dev) (p : Nat) (c : Copy) (dir : Nat) : Dev :=
  match d.dirRow p dir with
  | none => d.rowMiss p
  | some a => d.walkRun p c 65536 a

/-- The plastic rows reachable from the directory in effect (R111, R123), by word address, each once.  A run reaches as far
as an event's walk does: a row that is bad under R89 ends it (log entry 46). -/
def Dev.runRows (d : Dev) (p : Nat) : Nat → Nat → List Nat → List Nat
  | 0, _, acc => acc
  | fuel + 1, a, acc =>
    let r := d.row p a
    if d.badRow p r then acc
    else
      let acc := if r.kind = 2 ∧ ¬ acc.contains a then acc ++ [a] else acc
      if r.last then acc else d.runRows p fuel (a + r.size) acc

def Dev.plasticRows (d : Dev) (p : Nat) : List Nat :=
  (List.range (d.dirLen p)).foldl (fun acc i => match d.dirRow p i with
    | some a => d.runRows p 65536 a acc
    | none => acc) []

/-- Clear PRE_VALID of a plastic row. -/
def Dev.clearPre (d : Dev) (p a : Nat) : Dev := d.setSM p (4 * a + 8) (setFld (d.sM p (4 * a + 8)) 16 1 0)

/-- Clear PRE_VALID of every plastic row the directory reaches (R111). -/
def Dev.clearAllPre (d : Dev) (p : Nat) : Dev := (d.plasticRows p).foldl (fun d a => d.clearPre p a) d

/-! ### The row arbiter (R96, R97) -/

/-- Whether the arbiter's queue of 64 entries has room. -/
def Dev.arbRoom (d : Dev) (p : Nat) : Bool := decide ((d.stn p).arb.length < 64)

/-- Admit a request at the end of the queue. -/
def Dev.arbPush (d : Dev) (p : Nat) (r : RowReq) : Dev :=
  (d.updStn p (fun s => { s with arb := s.arb ++ [r] })).arbState p

/-- Take the request at the head of the queue away. -/
def Dev.arbPop (d : Dev) (p : Nat) : Dev :=
  (d.updStn p (fun s => { s with arb := s.arb.tail })).arbState p

/-- The neuron slots whose byte `i` lies in `n` bytes from a window offset. -/
def slotsWithByte (off n i : Nat) : List Nat :=
  ((List.range (n / 12 + 2)).map (· + (off - 0x50000) / 12)).filter
    (fun s => decide (s < 4096 ∧ off ≤ slotOff s + i ∧ slotOff s + i < off + n))

/-- A memory write at a station: it leaves POP fields of neuron slots as they stand (R56) and their reserved bits zero (R9,
Table 3-1), and sets the occupancy of the ring accumulators it leaves nonzero (R66). -/
def Dev.storeStation (d : Dev) (p off : Nat) (bytes : List Byte) : Dev :=
  let n := bytes.length
  let pops := (slotsWithByte off n 10).map (fun s => (slotOff s + 10, d.stnM.get zeroByte (skey p (slotOff s + 10))))
  let d := { d with stnM := writeBytes zeroByte d.stnM (skey p off) bytes }
  let d := { d with stnM := pops.foldl (fun m (q : Nat × Byte) => m.set zeroByte (skey p q.1) q.2) d.stnM }
  let d := { d with stnM := (slotsWithByte off n 11).foldl (fun m s =>
    let a := skey p (slotOff s + 11)
    m.set zeroByte a (m.get zeroByte a &&& 0x6F#8)) d.stnM }
  if off < 0x50000 ∧ 0x40000 < off + n then
    let lo := max off 0x40000
    let hi := min (off + n) 0x50000
    d.occupy p ((lo - 0x40000) / 2) ((hi - lo + 1) / 2)
  else d

end Sys2Proof.Machine
end

