-- ==== Sys2Proof/Machine/DepotMem.lean ====
section
/-! DEFINITION. Depot memory (R277 to R280): reads under its check bits, writes, and the banks; and the contents of GDDR6. -/

namespace Sys2Proof.Machine

/-- Bytes of Depot memory. -/
abbrev depotSize : Nat := 0x1000000

/-- The bank of a Depot offset (R277). -/
def depotBank (a : Nat) : Nat := a / 32 % 32

/-- One read of a word in error (R279): corrected and written back, or uncorrectable. -/
def depotEvent (x : Mem × Dev) (w k : Nat) : Mem × Dev :=
  let (m, d) := x
  if k = 1 then
    ({ m with depotErr := m.depotErr.set zeroNat w 0 }, d.count R.SYS_DPT_CE 1 R.SYS_DPT_OVF 0)
  else
    let d := d.count R.SYS_DPT_UE 1 R.SYS_DPT_OVF 1
    (m, if bit (d.rd R.SYS_DPT_UE_ADDR) 31 then d else d.wr R.SYS_DPT_UE_ADDR (w32 (2 ^ 31 + 4 * (w % 2 ^ 22))))

/-- Read the words that cover a range: what their check bits find, and whether none was uncorrectable. -/
def depotScan (x : Mem × Dev) (a len : Nat) : Bool × (Mem × Dev) :=
  let hit := x.1.depotErr.filter (fun q => decide (a / 4 ≤ q.1 ∧ 4 * q.1 < a + len))
  (hit.all (fun q => q.2 == 1), hit.foldl (fun y q => depotEvent y q.1 q.2) x)

/-- Write whole words. -/
def Mem.depotPut (m : Mem) (a : Nat) (bs : List Byte) : Mem :=
  { m with depot := writeBytes zeroByte m.depot a bs, depotErr := m.depotErr.clear (a / 4) ((a + bs.length + 3) / 4) }

def Mem.depotWord (m : Mem) (a : Nat) : Word := readWord m.depot a
def Mem.depotBytes (m : Mem) (a n : Nat) : List Byte := readBytes zeroByte m.depot a n

/-- A write that changes a word by `f` in the bytes it enables (R278, R279): false when it is discarded. -/
def depotModify (x : Mem × Dev) (a : Nat) (be : BitVec 4) (full : Bool) (f : Word → Word) : Bool × (Mem × Dev) :=
  let w := a / 4
  let put := fun (m : Mem) => { m with depot := writeEnabled m.depot (4 * w) be (f (m.depotWord (4 * w))) }
  if full && be == 15#4 then (true, ({ put x.1 with depotErr := x.1.depotErr.set zeroNat w 0 }, x.2))
  else
    let (ok, y) := depotScan x (4 * w) 4
    if ok then (true, (put y.1, y.2)) else (false, y)

/-! ### GDDR6 contents (R203, R363, R367) -/

/-- What an offset that nothing has written since the contents were lost reads as (log entry 3). -/
def Mem.gddrDflt (m : Mem) (a : Nat) : Byte := Config.freeByte m.gddrEra a
def Mem.gddrBytes (m : Mem) (a n : Nat) : List Byte := readBytes m.gddrDflt m.gddr a n
def Mem.gddrPut (m : Mem) (a : Nat) (bs : List Byte) : Mem := { m with gddr := writeBytes m.gddrDflt m.gddr a bs }

/-- The contents of GDDR6 become undefined. -/
def gddrLose (x : Mem × Dev) : Mem × Dev :=
  ({ x.1 with gddr := [], gddrEra := x.2.freeCtr }, { x.2 with freeCtr := x.2.freeCtr + 1 })

end Sys2Proof.Machine
end

