-- ==== Sys2Proof/Machine/Gate.lean ====
section
/-! DEFINITION. Which register accesses reach their target: fused-off units (R3), the rights of the cores (R273), gated
clock branches (R335), units under march test (R287); and how a core's access fault is taken. -/

namespace Sys2Proof.Machine

/-! ### Cores (R271, R276) -/

def core0 (n : Nat) : Core := Core.init n
def Dev.core (d : Dev) (n : Nat) : Core := d.cores.get core0 n
def Dev.setCore (d : Dev) (n : Nat) (c : Core) : Dev := { d with cores := d.cores.set core0 n c }
def Dev.updCore (d : Dev) (n : Nat) (f : Core → Core) : Dev := d.setCore n (f (d.core n))

/-- CSR mhartid of a core (Table 13-1). -/
def mhartid (n : Nat) : Word := w32 n

/-- SB0 starts from its boot ROM (R272). -/
def Dev.bootCore (d : Dev) : Dev := d.setCore 0 { Core.init 0 with running := true }

/-- Machine trap entry of the RISC-V privileged specification, which R271 names (log entry 5): mepc, mcause and mtval are
written, MPIE takes MIE, MIE is cleared, MPP takes the mode, and the pc goes to the trap vector. -/
def Core.trap (c : Core) (interrupt : Bool) (code : Nat) (tval : Word) : Core :=
  let st := setFld (setFld (setFld c.mstatus 7 1 (fld c.mstatus 3 1)) 3 1 0) 11 2 (if c.machine then 3 else 0)
  let base := c.mtvec &&& ~~~3#32
  { c with mstatus := st, mepc := c.pc, mcause := w32 (code + if interrupt then 2 ^ 31 else 0), mtval := tval,
           machine := true, blocked := none, wfi := false,
           pc := if interrupt && fld c.mtvec 0 2 == 1 then base + w32 (4 * code) else base }

/-- Access fault codes of the RISC-V privileged specification. -/
abbrev faultFetch : Nat := 1
abbrev faultLoad : Nat := 5
abbrev faultStore : Nat := 7

/-- Raise an access fault at a core. -/
def Dev.coreFault (d : Dev) (n : Nat) (wr : Bool) (tval : Word) : Dev :=
  d.updCore n (fun c => c.trap false (if wr then faultStore else faultLoad) tval)

/-- Count in DENY of SYS_SB_STATE[n], 16 bits with DENY_OVF (Table 13-3). -/
def Dev.denied (d : Dev) (n : Nat) : Dev :=
  d.upd (R.SYS_SB_STATE + 4 * n) (fun w =>
    setBit (setFld w 0 16 (satAdd 16 (fld w 0 16) 1)) 26 (bit w 26 || satHits 16 (fld w 0 16) 1))

/-- The core address at which a core sees a register block or Block (Table 13-2). -/
def coreAddr (a : Nat) : Word := w32 (0x80000000 + (a - 0x0100000000))

/-! ### Clock branches (R335, Table 16-3) -/

/-- Present power state: 0 RUN, 1 SLEEP, 2 DEEP. -/
def Dev.pwrState (d : Dev) : Nat := d.f R.PWR_STATE 30 2

/-- Whether a source of CLK_MON has a clock: 0 SBCLK, 1 the forwarded clock, 2 to 5 PLL_A to PLL_D, 6 PLL_A ÷ 2 (R329). -/
def Dev.clkRuns (d : Dev) (k : Nat) : Bool :=
  match k with
  | 0 => d.sbclk
  | 1 => d.fwdClk
  | 6 => bit (d.rd R.CLK_STATUS) 0
  | _ => bit (d.rd R.CLK_STATUS) (k - 2)

/-- The source of an island, as numbered in CLK_MON, under SEL `s` (Table 16-2). -/
def clkSource (i s : Nat) : Nat :=
  match i with
  | 0 => if s = 1 then 1 else 6
  | 1 => if s = 1 then 3 else 6
  | 2 => if s = 1 then 5 else 6
  | 3 => if s = 1 then 2 else 0
  | _ => 4

/-- The source that an island has selected. -/
def Dev.clkOf (d : Dev) (i : Nat) : Nat := clkSource i (if i < 4 then d.f (R.CLK_SEL + 4 * i) 0 1 else 0)

def noSwitch (_ : Nat) : Nat × Bool := (0, false)

/-- The sources of a switch in progress both run: the one it leaves and the one it goes to (R332). -/
def Dev.switchFed (d : Dev) (i : Nat) : Bool :=
  d.clkRuns (clkSource i (d.switches.get noSwitch i).1) && d.clkRuns (d.clkOf i)

/-- An island is not stopped: its source runs, and no switch of it has hung; while a switch is in progress both its clocks are
needed, and one that has met a stopped clock hangs (R329, R332, R333). -/
def Dev.islandRuns (d : Dev) (i : Nat) : Bool :=
  if 4 ≤ i then d.clkRuns (d.clkOf i)
  else
    let w := d.rd (R.CLK_SEL + 4 * i)
    if bit w 31 then !bit w 30 && !(d.switches.get noSwitch i).2 && d.switchFed i else d.clkRuns (d.clkOf i)

/-- Whether branch `b` of island `i` runs; a thermal trip gates every island (R352). -/
def Dev.branchOn (d : Dev) (i b : Nat) : Bool :=
  let fixed := i == 3 && (b == 0 || b == 8 || b == 10)
  if bit (d.rd R.PWR_STATE) 29 ∨ !d.islandRuns i then false
  else match d.pwrState with
  | 0 => fixed || bit (d.rd (R.CLK_EN_RUN + 4 * i)) b
  | 1 => fixed || ((i == 0 || i == 2 || i == 3) && bit (d.rd (R.CLK_EN_SLEEP + 4 * i)) b)
  | _ => i == 2 && bit (d.rd (R.CLK_EN_DEEP + 4 * i)) b

/-- A command that the unit of clock branch `b` of island `i` carries out: gated, the unit stalls (R335). -/
def onIsl (i b : Nat) (f : Nv → Mem → Dev → Dev) (s : State) : Host.Outcome State Fault Refusal :=
  if s.dev.branchOn i b then onDev f s else .next s

/-- As `onIsl`, for a command that acts on the bulk memories too. -/
def onIslM (i b : Nat) (f : Nv → Mem × Dev → Mem × Dev) (s : State) : Host.Outcome State Fault Refusal :=
  if s.dev.branchOn i b then onMem f s else .next s

/-- The clock branch a register belongs to: islands 0 LINK, 1 DRAM, 2 TRUNK, 3 SBOX, 4 XCH. -/
def branchOf (a : Nat) : Option (Nat × Nat) :=
  if a < 0x01000000 ∨ (0x10000000 ≤ a ∧ a < 0x11000000) ∨ (0x20000000 ≤ a ∧ a < 0x21000000) then some (3, 8)
  else if 0x100030000 ≤ a ∧ a < 0x100040000 then some (3, 10)
  else if 0x100040000 ≤ a ∧ a < 0x100050000 then some (3, 11)
  else if 0x100050000 ≤ a ∧ a < 0x100060000 then some (3, 9)
  else if 0x101000000 ≤ a ∧ a < 0x101100000 then some (3, 9)
  else if 0x100090000 ≤ a ∧ a < 0x100094000 then some (0, 0)
  else if 0x100094000 ≤ a ∧ a < 0x1000A0000 then some (4, 0)
  else if R.QNT_PRJ_CTRL ≤ a ∧ a < R.QNT_PRJ_CTRL + 0x400 then some (4, 2 + (a - R.QNT_PRJ_CTRL) / 0x100)
  else if 0x1000A0000 ≤ a ∧ a < 0x1000B0000 then some (4, 1)
  else if R.STM_CONSIST_BASE ≤ a ∧ a < R.STM_CONSIST_BASE + 0xC00 then some (1, (a - R.STM_CONSIST_BASE) / 0x100)
  else if 0x1000C0000 ≤ a ∧ a < 0x1000D0000 then some (1, 12)
  else if R.TRK_STATUS ≤ a ∧ a < R.TRK_STATUS + 0x200 then some (2, (a - R.TRK_STATUS) / 0x40)
  else none

/-- The branch that holds an address is gated, or it lies in the fabric while no handshake runs (Table 16-8). -/
def Dev.gatedOff (d : Dev) (a : Nat) : Bool :=
  match branchOf a with
  | some (i, b) => !d.branchOn i b
  | none => decide (stationWin ≤ a ∧ a < 0x0400000000) && d.pwrState == 2
where stationWin : Nat := 0x0200000000

/-! ### Fused-off units (R3) -/

/-- Whether a rank's window is held by an enabled station. -/
def Dev.rankHeld (d : Dev) (n : Nv) (r : Nat) : Bool := (d.posOfRank r).any n.enabled

/-- Whether an address belongs to a fused-off unit, or to the window of a rank that no station holds. -/
def Dev.fusedOff (d : Dev) (n : Nv) (a : Nat) : Bool :=
  if R.TRK_STATUS ≤ a ∧ a < R.TRK_STATUS + 0x200 then !n.trunkOn ((a - R.TRK_STATUS) / 0x40)
  else if R.STM_CONSIST_BASE ≤ a ∧ a < R.STM_CONSIST_BASE + 0xC00 then !n.streamerOn ((a - R.STM_CONSIST_BASE) / 0x100)
  else if R.DRM_CH_ERR ≤ a ∧ a < R.DRM_CH_ERR + 96 then !n.channelOn ((a - R.DRM_CH_ERR) / 4)
  else if 0x0200000000 ≤ a ∧ a < 0x0200000000 + 2304 * 0x100000 then !d.rankHeld n ((a - 0x0200000000) / 0x100000)
  else false

/-! ### March tests (R287) -/

/-- The engine is testing: STATE is RUNNING or REPAIRING (Table 13-13). -/
def Dev.testing (d : Dev) (target unit : Nat) : Bool :=
  (d.f R.MBT_STATUS 0 3 == 3 || d.f R.MBT_STATUS 0 3 == 4) &&
    (match d.mbt with
     | some r => (if r.target = 1 then 0 else r.target) == target && r.units.contains unit
     | none => false)

/-- A station under test. -/
def Dev.stnTested (d : Dev) (p : Nat) : Bool := d.testing 0 p

/-! ### Rights of the cores (R273) -/

/-- Whether core `n` may not make an access to a device address outside Depot memory. -/
def Dev.coreDenied (d : Dev) (n : Nat) (wr : Bool) (a : Nat) : Bool :=
  let depot := decide (a < 0x01000000 ∨ (0x10000000 ≤ a ∧ a < 0x11000000) ∨ (0x20000000 ≤ a ∧ a < 0x21000000))
  let blk := a / 0x10000
  let off := a % 0x10000
  let sysOpen := decide (off < 0x20 ∨ off = 0x100 ∨ 0x200 ≤ off ∧ off < 0x228)
  (!(d.core n).machine && !depot)
    || (n != 0 && (blk == 0x10006 || blk == 0x10007 || blk == 0x10008 || blk == 0x10010 || (blk == 0x10000 && wr && !sysOpen)))

/-! ### The gate -/

/-- What becomes of an access before it reaches its target. -/
inductive Gate where
  | open_
  | zero
  | abort
  | deny
deriving DecidableEq, Repr

/-- What becomes of an access.  At a station under test Signal accesses are aborted; one below offset 0x6_0000 goes on by Freight,
which answers it with NACK code 3 (R287). -/
def Dev.gate (d : Dev) (n : Nv) (m : Master) (wr : Bool) (a : Nat) : Gate :=
  let denied := match m with | .sb c => d.coreDenied c wr a | _ => false
  if denied then .deny
  else if d.fusedOff n a then .zero
  else if d.gatedOff a then .abort
  else if decide (0x0200000000 ≤ a ∧ a < 0x0200000000 + 2304 * 0x100000 ∧ 0x60000 ≤ a % 0x100000)
      && (d.posOfRank ((a - 0x0200000000) / 0x100000)).any d.stnTested then .abort
  else .open_

/-- End an access that failed: the status of its path, and for a core an access fault. -/
def Dev.fail (d : Dev) (m : Master) (wr : Bool) (a : Nat) (st : Status) : Dev :=
  match m with
  | .sb c => (d.coreFault c wr (coreAddr a)).complete m .fault []
  | _ => d.complete m st []

/-- Carry out a write at a register if its access reaches it. -/
def Dev.writeGate (d : Dev) (n : Nv) (m : Master) (a : Nat) (f : Dev → Dev) : Dev :=
  match d.gate n m true a with
  | .open_ => (f d).complete m .ok []
  | .zero => d.complete m .ok []
  | .abort => d.fail m true a .abort
  | .deny => match m with
    | .sb c => (d.denied c).fail m true a .fault
    | _ => d

/-- A command written to a control register whose sender the row does not name: it has no effect while the register's clock
branch is gated. -/
def Dev.cmdAt (d : Dev) (a : Nat) (f : Dev → Dev) : Dev := if d.gatedOff a then d else f d

/-- Refuse a core's access under the terms of R273: it counts in DENY and faults. -/
def Dev.denyCore (d : Dev) (c : Nat) (m : Master) (wr : Bool) (a : Nat) : Dev := (d.denied c).fail m wr a .fault

/-- As `writeGate`, for a register that a rule of its own closes to some cores. -/
def Dev.writeGateFor (d : Dev) (n : Nv) (m : Master) (a : Nat) (closed : Nat → Bool) (f : Dev → Dev) : Dev :=
  match m with
  | .sb c => if closed c then d.denyCore c m true a else d.writeGate n m a f
  | _ => d.writeGate n m a f

/-- Carry out a read of a register if its access reaches it. -/
def Dev.readGate (d : Dev) (n : Nv) (m : Master) (a : Nat) (f : Dev → Word × Dev) : Dev :=
  match d.gate n m false a with
  | .open_ => let (v, d) := f d; d.complete m .ok [v]
  | .zero => d.complete m .ok [0]
  | .abort => d.fail m false a .abort
  | .deny => match m with
    | .sb c => (d.denied c).fail m false a .fault
    | _ => d

end Sys2Proof.Machine
end

