-- ==== Sys2Proof/Machine/Freight.lean ====
section
/-! DEFINITION. The Freight network (chapter 9): endpoints, routes, packets, transactions, the pool of slots, and how a
transaction ends at whoever started it. -/

namespace Sys2Proof.Machine

/-! ### Memory of the page streamers (R173, R174) -/

/-- The enabled streamers, ascending. -/
def Nv.streamerList (n : Nv) : List Nat := (List.range 12).filter n.streamerOn

/-- Pages of 4 KiB that one streamer holds (Table 8-2), less the check codes with ECC: zero before stage 6 has fitted any. -/
def Dev.streamerPages (d : Dev) : Nat :=
  let dens := d.f R.DRM_STATUS 8 2
  let mode := d.f R.DRM_STATUS 4 2
  if (dens = 1 ∨ dens = 2) ∧ mode < 2 then
    let pages := 2 ^ (18 + dens + mode)
    if d.boot.eccLatched then pages / 32 * 31 else pages
  else 0

/-- Streamer and local page of page index `p`. -/
def Nv.pageHome (n : Nv) (p : Nat) : Option Nat × Nat :=
  let es := n.streamerList
  if es.length = 0 then (none, 0) else (es[p % es.length]?, p / es.length)

/-- Whether page `p` lies in the usable window. -/
def Dev.pageUsable (d : Dev) (n : Nv) (p : Nat) : Bool :=
  match n.pageHome p with
  | (some _, q) => decide (q < d.streamerPages)
  | _ => false

/-- Bytes of the usable GDDR6 window. -/
def Dev.gddrSize (d : Dev) (n : Nv) : Nat := n.streamerList.length * d.streamerPages * 4096

/-! ### Endpoints (Table 9-1) -/

inductive Ep where
  | station (r : Nat)
  | streamer (s : Nat)
  | host
  | sdma
  | trunk (k : Nat)
  | none_
deriving DecidableEq, Repr

def Ep.ofNat (e : Nat) : Ep :=
  if e < 0x900 then .station e
  else if 0xF00 ≤ e ∧ e < 0xF0C then .streamer (e - 0xF00)
  else if e = 0xF10 then .host
  else if e = 0xF11 then .sdma
  else if 0xF18 ≤ e ∧ e < 0xF20 then .trunk (e - 0xF18)
  else .none_

abbrev epHost : Nat := 0xF10
abbrev epSdma : Nat := 0xF11
def epStreamer (s : Nat) : Nat := 0xF00 + s
def epTrunk (k : Nat) : Nat := 0xF18 + k

/-- Whether an endpoint number names a target of this device (R194). -/
def Dev.target (d : Dev) (n : Nv) (e : Nat) : Bool :=
  match Ep.ofNat e with
  | .station r => (d.posOfRank r).any n.enabled
  | .streamer s => n.streamerOn s
  | .host | .sdma => true
  | .trunk k => n.trunkOn k
  | .none_ => false

/-! ### Routes (Table 9-4a) -/

/-- Edge row and column `k` of streamer `s`. -/
def streamerRow (s : Nat) : Nat := if s ≤ 5 then 0 else 47
def streamerCol (s k : Nat) : Nat := 8 * (s % 6) + k % 8

/-- Exit position and EXIT of a destination, for transaction number `t` and intermediate row `yi`. -/
def Dev.exitOf (d : Dev) (e t yi : Nat) : Nat × Nat × Nat :=
  match Ep.ofNat e with
  | .station r => let p := (d.posOfRank r).getD 0; (p % 48, p / 48, 0)
  | .streamer s => (streamerCol s t, streamerRow s, if s ≤ 5 then 1 else 2)
  | .host | .sdma => (0, yi, 3)
  | .trunk _ => (47, yi, 4)
  | .none_ => (0, 0, 0)

def isStation (e : Nat) : Bool := decide (e < 0x900)
def isStreamer (e : Nat) : Bool := decide (0xF00 ≤ e ∧ e < 0xF0C)

/-- The next rank of a station's Valiant sequence, which it advances (R41, R199). -/
def Dev.drawValiant (d : Dev) (p : Nat) : Option Nat × Dev :=
  let v := (d.stn p).valiant
  if v.length = 0 then (none, d)
  else
    let i := fld (d.sW p R.STN_FRT_VIDX) 0 10
    (v[i % v.length]?, d.updSW p R.STN_FRT_VIDX (setFld · 0 10 ((i + 1) % v.length)))

/-- Start and intermediate positions of a packet from `src`, a station's from its own position `own`, to `dst` with number
`t`. -/
def Dev.startOf (d : Dev) (own : Option Nat) (src dst t : Nat) : (Nat × Nat) × (Nat × Nat) × Dev :=
  match Ep.ofNat src with
  | .station r =>
    let p := own.getD ((d.posOfRank r).getD 0)
    let (v, d) := d.drawValiant p
    let i := (v.bind d.posOfRank).getD p
    ((p % 48, p / 48), (i % 48, i / 48), d)
  | .streamer s =>
    let x := if isStation dst then (d.exitOf dst t 0).1 else t
    let q := (streamerCol s x, streamerRow s)
    (q, q, d)
  | .host | .sdma =>
    let y := if isStation dst || isStreamer dst then (d.exitOf dst t 0).2.1 else t % 48
    ((0, y), (0, y), d)
  | .trunk _ =>
    let y := if isStation dst || isStreamer dst then (d.exitOf dst t 0).2.1 else t % 48
    ((47, y), (47, y), d)
  | .none_ => ((0, 0), (0, 0), d)

/-! ### Checks (R205, R406) -/

/-- Header words 0 to 5 of a packet. -/
def Packet.word (k : Packet) : Nat → Word
  | 0 => w32 (k.typ % 16 * 2 ^ 28 + k.attempt % 8 * 2 ^ 25 + k.phase % 2 * 2 ^ 24 + k.src % 4096 * 2 ^ 12 + k.dst % 4096)
  | 1 => w32 (k.exit % 8 * 2 ^ 24 + k.iy % 64 * 2 ^ 18 + k.ix % 64 * 2 ^ 12 + k.dy % 64 * 2 ^ 6 + k.dx % 64)
  | 2 => w32 (k.txn % 65536 * 2 ^ 16 + k.status % 8 * 2 ^ 13 + k.data.length % 8192)
  | 3 => w32 k.addr
  | 4 => w32 (k.addr / 2 ^ 32 % 256 + match k.remote with
      | some (o, sd, rd) => 2 ^ 31 + o % 2 * 2 ^ 30 + sd % 64 * 2 ^ 24 + rd % 64 * 2 ^ 16
      | none => 0)
  | 5 => w32 (k.rdst % 4096 * 2 ^ 20 + k.rcount % 8192)
  | _ => 0

/-- The packet as its checks see it: PHASE zero, and for a remote packet word 0 bits [23:0] and word 1 zero. -/
def Packet.checked (k : Packet) : Packet :=
  match k.remote with
  | some _ => { k with phase := 0, src := 0, dst := 0, exit := 0, iy := 0, ix := 0, dy := 0, dx := 0 }
  | none => { k with phase := 0 }

/-- The first `n` header words as bytes. -/
def Packet.headBytes (k : Packet) (n : Nat) : List Byte := ((List.range n).map (fun i => wordBytes (k.word i))).flatten

/-- HCHK and CRC as the source forms them. -/
def Packet.hchk (k : Packet) : BitVec 16 :=
  crcBits 16 0x1021#16 0xFFFF#16 (((k.checked.headBytes 6).map (fun b => msbBits 8 b.toNat)).flatten)
def Packet.crc (k : Packet) : Word := crc32c (k.checked.headBytes 8 ++ k.data)

/-- The bytes of a whole packet; zero bytes pad the last data flit of 32 (R195). -/
def Packet.bytes (k : Packet) : List Byte :=
  k.headBytes 6 ++ leBytes 4 (if k.hurt.1 then k.hchk.toNat ^^^ 1 else k.hchk.toNat)
    ++ wordBytes (if k.hurt.2 then k.crc ^^^ 1 else k.crc) ++ recBytes k.data 0 ((k.data.length + 31) / 32 * 32)

/-- A packet from its bytes. -/
def Packet.ofBytes (bs : List Byte) : Packet :=
  let w := fun i => recWord bs (4 * i)
  let k : Packet :=
    { typ := fld (w 0) 28 4, attempt := fld (w 0) 25 3, phase := fld (w 0) 24 1, src := fld (w 0) 12 12,
      dst := fld (w 0) 0 12, exit := fld (w 1) 24 3, iy := fld (w 1) 18 6, ix := fld (w 1) 12 6, dy := fld (w 1) 6 6,
      dx := fld (w 1) 0 6, txn := fld (w 2) 16 16, status := fld (w 2) 13 3,
      addr := (w 3).toNat + fld (w 4) 0 8 * 2 ^ 32, rdst := fld (w 5) 20 12, rcount := fld (w 5) 0 13,
      data := recBytes bs 32 (fld (w 2) 0 13), hurt := (false, false), at_ := none, trail := [],
      remote := if bit (w 4) 31 then some (fld (w 4) 30 1, fld (w 4) 24 6, fld (w 4) 16 6) else none }
  { k with hurt := (fld (recWord bs 24) 0 16 != k.hchk.toNat, recWord bs 28 != k.crc) }

/-- Packet types (Table 9-3). -/
abbrev pWrite : Nat := 1
abbrev pRead : Nat := 2
abbrev pData : Nat := 3
abbrev pDeliver : Nat := 4
abbrev pSummary : Nat := 5
abbrev pAck : Nat := 6
abbrev pNack : Nat := 7

def isResponse (t : Nat) : Bool := t == pData || t == pAck || t == pNack
def isRequest (t : Nat) : Bool := t == pWrite || t == pRead || t == pDeliver

/-! ### Places of the routers (R200) -/

/-- Flits of a packet: the header, and its data in flits of 32 bytes (R195). -/
def Packet.flits (k : Packet) : Nat := 1 + (k.data.length + 31) / 32

/-- The input at a port (0 N, 1 E, 2 S, 3 W, 4 local) of the router at `p`, in a class. -/
def freightIn (p port cls : Nat) : Nat := (p * 5 + port) * 2 + cls

/-- The flits of responses, or of other packets, that stand in an input. -/
def Dev.flitsIn (d : Dev) (x : Nat) (resp : Bool) : Nat :=
  ((d.packets.filter (fun k => isResponse k.typ == resp)).map (fun k =>
    ((k.trail.filter (fun q => q.1 == x)).map (·.2)).sum)).sum

/-- Free places of an input for a packet: eight, one of which accepts only response flits. -/
def Dev.placesFor (d : Dev) (resp : Bool) (x : Nat) : Nat :=
  let r := d.flitsIn x true
  let q := d.flitsIn x false
  if resp then 8 - (r + q) else min (7 - q) (8 - (r + q))

/-- Lay flits from the head back into inputs, each with the places it has for them. -/
def layFlits (n : Nat) : List (Nat × Nat) → List (Nat × Nat)
  | [] => []
  | (x, c) :: rest => if n = 0 then [] else (x, min n c) :: layFlits (n - min n c) rest

/-- The port at which a source's packets enter the router of their start. -/
def entryPort (src : Nat) : Nat :=
  match Ep.ofNat src with
  | .streamer s => if s ≤ 5 then 0 else 2
  | .host | .sdma => 3
  | .trunk _ => 1
  | _ => 4

/-- Flits of a packet have still to come into input `x`, so that it holds the way there. -/
def Packet.feeding (k : Packet) (x : Nat) : Bool :=
  match k.trail.dropWhile (fun q => q.1 != x) with
  | [] => false
  | _ :: rest => rest != [] || decide ((k.trail.map (·.2)).sum < k.flits)

/-- A packet enters the router of its start as far as the input has places, while no other packet holds the way there. -/
def Dev.entered (d : Dev) (k : Packet) (p : Nat) : Packet :=
  let x := freightIn p (entryPort k.src) k.phase
  let c := if d.packets.any (fun q => q.feeding x) then 0 else d.placesFor (isResponse k.typ) x
  { k with trail := layFlits k.flits (if c = 0 then [] else [(x, c)]) }

/-! ### Sending -/

/-- Route a packet from its SRC, a station's from its own position `own`, to its DST and put it into the network (Table
9-4a).  A destination that is no target is met at once, and so is its answer (R194; log entry 49). -/
def Dev.launch (d : Dev) (n : Nv) (own : Option Nat) (k : Packet) : Dev :=
  if d.target n k.dst && (own.isSome || d.target n k.src) then
    let (s, i, d) := d.startOf own k.src k.dst k.txn
    let (dx, dy, ex) := d.exitOf k.dst k.txn i.2
    let p := posOf s.1 s.2
    let k := { k with phase := if i = s then 1 else 0, exit := ex, iy := i.2, ix := i.1, dy := dy, dx := dx, at_ := some p }
    { d with packets := d.packets ++ [d.entered k p] }
  else { d with packets := d.packets ++ [{ k with at_ := none }] }

/-- A packet with no route yet. -/
def mkPacket (typ attempt src dst txn status addr rdst rcount : Nat) (data : List Byte)
    (remote : Option (Nat × Nat × Nat)) : Packet :=
  { typ := typ, attempt := attempt, phase := 1, src := src, dst := dst, exit := 0, iy := 0, ix := 0, dy := 0, dx := 0,
    txn := txn, status := status, addr := addr, rdst := rdst, rcount := rcount, data := data, remote := remote, hurt := (false, false),
    at_ := none, trail := [] }

/-- Answer a request from endpoint `src`, a station's from its position; the answer to a remote request goes back with words
4 and 5 copied and SDEV and RDEV exchanged (R406). -/
def Dev.respond (d : Dev) (n : Nv) (own : Option Nat) (src : Nat) (r : Reply) (typ status : Nat) (data : List Byte) : Dev :=
  let k := mkPacket typ r.attempt src r.ep r.txn status 0 0 0 data none
  d.launch n own (match r.remote with
    | some (o, sd, rd) => { k with addr := r.addrHi * 2 ^ 32, rdst := r.rdst, rcount := r.rcount, remote := some (o, rd, sd) }
    | none => k)

def Packet.reply (k : Packet) : Reply :=
  { ep := k.src, txn := k.txn, attempt := k.attempt, remote := k.remote, addrHi := k.addr / 2 ^ 32, rdst := k.rdst,
    rcount := k.rcount }

/-! ### Counters of the sources (R211) -/

/-- The registers CFG, RESEND, FATAL, STALE of an edge source. -/
def frtRegs (ep : Nat) : Nat × Nat × Nat × Nat :=
  match Ep.ofNat ep with
  | .streamer s => let b := 0x100 * s; (R.STM_FRT_CFG + b, R.STM_FRT_RESEND + b, R.STM_FRT_FATAL + b, R.STM_FRT_STALE + b)
  | _ => (R.XCH_FRT_CFG, R.XCH_FRT_RESEND, R.XCH_FRT_FATAL, R.XCH_FRT_STALE)

/-- The interrupt source of an edge source's fatal freight errors (Table 14-6). -/
def frtIrq (ep : Nat) : Nat := match Ep.ofNat ep with | .streamer s => 80 + s | _ => 71

/-- Count in one of them; OVF of XCH_FRT_CFG raises the Interchange freight source. -/
def Dev.frtCount (d : Dev) (ep reg : Nat) : Dev :=
  let c := (d.rd reg).toNat
  let d := d.count reg 1 (frtRegs ep).1 31
  if satHits 32 c 1 ∧ frtIrq ep = 71 then d.irq1 71 else d

/-- A fatal freight error of a source (R206). -/
def Dev.frtFatal (d : Dev) (ep : Nat) : Dev := (d.frtCount ep (frtRegs ep).2.2.1).irq1 (frtIrq ep)

/-! ### Transactions (R204, R206) -/

/-- The lowest transaction number that a source has not in use. -/
def Dev.freeTxn (d : Dev) (ep : Nat) : Option Nat :=
  (List.range 65536).find? (fun t => !d.txns.any (fun x => x.req.ep == ep && x.txn == t))

/-- This device's number in its system (Table 19-5). -/
def Dev.device (d : Dev) : Nat := d.f R.TRK_SYS 16 6

/-- The packet of a transaction. -/
def Dev.packetOf (d : Dev) (x : Txn) : Packet :=
  mkPacket x.req.typ x.attempt x.req.ep x.req.dst x.txn 0 x.req.addr x.req.rdst x.req.rcount x.req.data
    (x.req.rdev.map (fun v => (if x.req.ep = epSdma then 1 else 0, d.device, v)))

/-- Send a transaction's packet. -/
def Dev.sendTxn (d : Dev) (n : Nv) (x : Txn) : Dev := d.launch n none (d.packetOf x)

/-- Open a transaction for a request. -/
def Dev.openTxn (d : Dev) (n : Nv) (r : FReq) : Dev :=
  match d.freeTxn r.ep with
  | none => d
  | some t =>
    let x : Txn := { req := r, txn := t, attempt := 0, since := d.now }
    { d with txns := d.txns ++ [x] }.sendTxn n x

/-- Slots an endpoint holds. -/
def Dev.slotsHeld (d : Dev) (ep : Nat) : Nat := (d.txns.filter (fun x => x.req.ep == ep)).length

/-- Who asks: 0 host block transfers, 1 the quantiser and projection units, 2 Signal DMA. -/
def FReq.asker (r : FReq) : Nat :=
  match r.owner with
  | .host _ | .dist _ | .word _ | .load _ => 0 | .sdma _ | .core _ _ => 2 | .stream _ | .gone => 3 | .qnt | .prj _ => 1

/-- The askers in the order of their turns: the Interchange and the Signal DMA one after the other (R204), and within the
Interchange host block transfers and its units one after the other (R212). -/
def Dev.slotTurns (d : Dev) : List Nat :=
  let units := if d.frtTurn % 2 = 0 then [1, 0] else [0, 1]
  if 2 ≤ d.frtTurn then units ++ [2] else 2 :: units

/-- An asker has been given a slot. -/
def Dev.slotGiven (d : Dev) (a : Nat) : Dev := { d with frtTurn := if a = 2 then d.frtTurn % 2 + 2 else a }

/-- Whether the pool and the receive buffers let a waiting request go (R204, R209). -/
def Dev.mayOpen (d : Dev) (r : FReq) : Bool :=
  let pool := d.rd R.XCH_FRT_POOL
  let h := d.slotsHeld epHost
  let s := d.slotsHeld epSdma
  if r.ep = epSdma then
    !d.tpl.waitFreight && decide (s < min (fld pool 16 14) 8192 ∧ h + s < 8192)
  else
    decide (h + s < 8192 ∧ h + min (fld pool 0 14) 8192 < 8192)
      && (match r.owner with | .word _ => !d.tpl.waitFreight | _ => true)
      && (r.typ != pRead || decide ((d.txns.filter (fun x => x.req.ep == epHost && x.req.typ == pRead)).length < 256))

/-- Give free slots to waiting requests, the askers in fixed round robin (R204, R212). -/
def Dev.pump (d : Dev) (n : Nv) : Nat → Dev
  | 0 => d
  | fuel + 1 =>
    let pick := d.slotTurns.findSome? (fun a =>
      (d.fwait.findIdx? (fun r => r.asker == a)).bind (fun i =>
        (d.fwait[i]?).bind (fun r => if d.mayOpen r then some (i, r) else none)))
    match pick with
    | none => d
    | some (i, r) =>
      (({ d with fwait := d.fwait.eraseIdx i }.slotGiven r.asker).openTxn n r).pump n fuel

/-- Serve the requests that wait, as far as slots are free. -/
def Dev.serveSlots (d : Dev) (n : Nv) : Dev := d.pump n d.fwait.length

/-- Ask for slots for requests. -/
def Dev.ask (d : Dev) (n : Nv) (rs : List FReq) : Dev := { d with fwait := d.fwait ++ rs }.serveSlots n

/-- Whoever made some requests waits for them no longer: those that have no slot yet are gone, and the transactions go on to
their own end (R204, R206). -/
def Dev.disown (d : Dev) (mine : FReq → Bool) : Dev :=
  { d with fwait := d.fwait.filter (fun r => !mine r),
           txns := d.txns.map (fun (t : Txn) => if mine t.req then { t with req := { t.req with owner := .gone } } else t) }

/-- The 4 KiB blocks of a range: address and byte count of each (R203). -/
def splitRange (a len : Nat) : Nat → List (Nat × Nat)
  | 0 => []
  | fuel + 1 =>
    if len = 0 then []
    else
      let m := min len (4096 - a % 4096)
      (a, m) :: splitRange (a + m) (len - m) fuel

def splitAt4K (a len : Nat) : List (Nat × Nat) := splitRange a len (len / 4096 + 2)

/-- Device addresses of GDDR6 and of the station windows (Table 1-2). -/
abbrev gddrBase : Nat := 0x2000000000
abbrev stationBase : Nat := 0x0200000000

/-- The endpoint that serves a device address: the station of a window, or the streamer of a GDDR6 page. -/
def Dev.endpointOf (d : Dev) (n : Nv) (a : Nat) : Option Nat :=
  if gddrBase ≤ a then
    match n.pageHome ((a - gddrBase) / 4096) with
    | (some s, _) => if a - gddrBase < d.gddrSize n then some (epStreamer s) else none
    | _ => none
  else if stationBase ≤ a ∧ a < stationBase + 0x900 * 2 ^ 20 then some ((a - stationBase) / 2 ^ 20)
  else none

/-! ### The end of a transaction -/

/-- How a transaction ended: done with the data read, refused as unmapped, or a fatal freight error. -/
inductive End where
  | done (data : List Byte)
  | unmapped
  | fatal
deriving DecidableEq, Repr

/-- The transaction of a core's access ends: the access completes with the bytes it asked for, or faults (R275).  An access
that has ended already takes nothing. -/
def Dev.coreAnswer (d : Dev) (n id : Nat) (e : End) : Dev :=
  let m := Master.sb (BitVec.ofNat 3 n).toFin
  match (d.core n).blocked with
  | some (.freight i wr ca width _) =>
    if i ≠ id then d
    else match e with
    | .done bs =>
      (d.updCore n (fun c => { c with blocked := none })).complete m .ok
        (if wr then [] else [w32 (recNat bs (fld ca 0 2) width)])
    | _ => (d.coreFault n wr ca).complete m .fault []
  | _ => d

/-- How a word access ends, as WordAcc keeps it. -/
def End.word : End → Nat × List Byte
  | .done bs => (0, bs)
  | .unmapped => (1, [])
  | .fatal => (2, [])

/-- Keep the end of a word access that has not ended. -/
def Dev.endWord (d : Dev) (id : Nat) (r : Nat × List Byte) : Dev :=
  { d with words := d.words.map (fun (x : WordAcc) => if x.id == id && x.ended.isNone then { x with ended := some r } else x) }

/-! ### Depot banks under test (R277, R287) -/

/-- The number of a master in Table 13-5; the Signal DMA has none of its own among the masters. -/
def depotNo : Master → Nat
  | .sb n => n.val
  | .xdma | .loader => 8
  | _ => 9
abbrev depotSdma : Nat := 11

/-- A range of Depot memory lies, in part, in a bank under test. -/
def Dev.banksTested (d : Dev) (off len : Nat) : Bool :=
  d.mbt.isSome && decide (0 < len ∧ off < depotSize)
    && (List.range (min 32 ((off + len - 1) / 32 - off / 32 + 1))).any (fun i => d.testing 2 (depotBank (off + 32 * i)))

/-- A master of Table 13-5 has an access waiting at a bank under test. -/
def Dev.bankHold (d : Dev) (no : Nat) : Dev :=
  if d.bankHeld.any (fun q => q.1 == no) then d else { d with bankHeld := d.bankHeld ++ [(no, d.now)] }

/-- Masters wait no more: each cycle of the wait counts as a conflict (R277), ten to a step of `now`. -/
def Dev.bankGone (d : Dev) (gone : Nat → Bool) : Dev :=
  (d.bankHeld.filter (fun q => gone q.1)).foldl (fun (d : Dev) q =>
    d.count (R.SYS_DPT_CONFLICT + 4 * q.1) (10 * (d.now - q.2)) R.SYS_DPT_OVF (2 + q.1))
    { d with bankHeld := d.bankHeld.filter (fun q => !gone q.1) }

/-- An access to Depot memory waits for a bank under test. -/
def Dev.bankWait (d : Dev) (m : Master) (op : DepotOp) (wr : Bool) (host : Option (Nat × Bool)) (desc : Option Nat) : Dev :=
  let x : WordAcc := { id := d.accNext, master := m, wr := wr, since := d.now, host := host, remote := none, desc := desc,
                       pre := [], post := [], twin := none, bank := some op, ended := none }
  let d := d.bankHold (if desc.isSome then depotSdma else depotNo m)
  { d with words := d.words ++ [x], accNext := d.accNext + 1 }

/-- A transaction of a descriptor of the Signal DMA has ended, with a RESULT; the first failure stays (R283). -/
def Dev.sdOne (d : Dev) (id result : Nat) : Dev :=
  { d with sdma := d.sdma.map (fun q =>
      if q.id == id then { q with left := q.left - 1, result := if q.result = 0 then result else q.result } else q) }

/-- Take what a gathering unit's read came to. -/
def Gather.take (g : Gather) (a : Nat) (e : End) : Gather :=
  match e with
  | .done bs => { g with got := writeBytes zeroByte g.got a bs, left := g.left - 1 }
  | _ => { g with left := g.left - 1, failed := true }

def streamer0 (_ : Nat) : Streamer := Streamer.init
def Dev.streamer (d : Dev) (s : Nat) : Streamer := d.streamers.get streamer0 s
def Dev.setStreamer (d : Dev) (s : Nat) (x : Streamer) : Dev := { d with streamers := d.streamers.set streamer0 s x }
def Dev.updStreamer (d : Dev) (s : Nat) (f : Streamer → Streamer) : Dev := d.setStreamer s (f (d.streamer s))
def prj0 (_ : Nat) : Prj := Prj.init
def Dev.prj (d : Dev) (u : Nat) : Prj := d.prjs.get prj0 u
def Dev.setPrj (d : Dev) (u : Nat) (x : Prj) : Dev := { d with prjs := d.prjs.set prj0 u x }

/-- Count in a streamer's register, with its bit of STM_OVF; the conditions of R189 raise its interrupt. -/
def Dev.stm (d : Dev) (s reg bitNo k : Nat) (irq : Bool) : Dev :=
  if k = 0 then d
  else
    let a := reg + 0x100 * s
    let c := (d.rd a).toNat
    let d := d.count a k (R.STM_OVF + 0x100 * s) bitNo
    if irq || satHits 32 c k then d.irq1 (80 + s) else d

/-- Report a transaction's end to whoever started it (R206). -/
def Dev.report (d : Dev) (m : Mem) (r : FReq) (e : End) : Mem × Dev :=
  match r.owner with
  | .host seq =>
    (m, { d with link := { d.link with jobs := d.link.jobs.map (fun j =>
      if j.seq == seq then
        match e with
        | .done bs => { j with left := j.left - 1, got := writeBytes zeroByte j.got r.place bs }
        | .unmapped => { j with left := j.left - 1, code := if j.code = 0 then 5 else j.code }
        | .fatal => { j with left := j.left - 1, code := if j.code = 0 then 7 else j.code }
      else j) } })
  | .sdma id =>
    match e with
    | .done bs =>
      if d.banksTested r.place bs.length then
        (m, d.bankWait .xdma (.range r.place bs.length (some bs)) true none (some id))
      else (m.depotPut r.place bs, d.sdOne id 0)
    | .unmapped => (m, d.sdOne id 1)
    | .fatal => (m, d.sdOne id 2)
  | .stream w =>
    let s := r.ep - 0xF00
    let d := d.updStreamer s (fun x => { x with flying := x.flying.set zeroNat w (x.flying.get zeroNat w - 1) })
    (m, match e with
      | .done _ => d
      | _ => d.stm s R.STM_DLV_FAIL 4 1 true)
  | .qnt =>
    (m, { d with qnt :=
      if r.typ = pRead then { d.qnt with gather := d.qnt.gather.take r.addr e }
      else { d.qnt with out := d.qnt.out - 1, gather := match e with
        | .done _ => d.qnt.gather
        | _ => { d.qnt.gather with failed := true } } })
  | .prj u =>
    let x := d.prj u
    (m, d.setPrj u { x with gather := x.gather.take r.addr e })
  | .dist v =>
    (m, match e with
      | .done _ => d
      | _ => { d with sys := { d.sys with distWait := d.sys.distWait.filter (· != v) } })
  | .core n id => (m, d.coreAnswer n id e)
  | .word id => (m, d.endWord id e.word)
  | .load t =>
    (m, match e with
      | .done _ => d
      | _ => { d with tpl := { d.tpl with failed := d.tpl.failed ++ [t] } })
  | .gone => (m, d)

/-- Free a transaction's slot, report its end, and serve the requests that wait. -/
def Dev.endTxn (d : Dev) (n : Nv) (m : Mem) (x : Txn) (e : End) : Mem × Dev :=
  let d := { d with txns := d.txns.filter (fun y => !(y.req.ep == x.req.ep && y.txn == x.txn)) }
  let d := match e with
    | .fatal => d.frtFatal x.req.ep
    | _ => d
  let (m, d) := d.report m x.req e
  (m, d.serveSlots n)

/-- Send a transaction again, with the next ATTEMPT. -/
def Dev.resendTxn (d : Dev) (n : Nv) (x : Txn) : Dev :=
  let y := { x with attempt := x.attempt + 1, since := d.now }
  let d := { d with txns := d.txns.map (fun (z : Txn) => if z.req.ep == x.req.ep && z.txn == x.txn then y else z) }
  (d.frtCount x.req.ep (frtRegs x.req.ep).2.1).sendTxn n y

/-- What a source makes of a response that passed its checks and matched (Table 9-4). -/
def Dev.accept (d : Dev) (n : Nv) (m : Mem) (x : Txn) (k : Packet) : Mem × Dev :=
  if k.typ = pNack then
    if k.status = 1 then
      if x.attempt < 7 then (m, d.resendTxn n x) else d.endTxn n m x .fatal
    else if k.status = 2 then d.endTxn n m x .unmapped
    else d.endTxn n m x .fatal
  else d.endTxn n m x (.done k.data)

/-- The transaction a response matches: SRC, DST and TXN, and the present attempt (R205); for a remote one TXN, attempt and
the devices (R407). -/
def Dev.matching (d : Dev) (k : Packet) : Option Txn :=
  match k.remote with
  | some (o, sd, rd) =>
    if rd = d.device then
      d.txns.find? (fun x => x.req.ep == (if o = 1 then epSdma else epHost) && x.req.rdev == some sd && x.txn == k.txn
        && x.attempt == k.attempt)
    else none
  | none =>
    d.txns.find? (fun x => x.req.ep == k.dst && x.req.dst == k.src && x.req.rdev == none && x.txn == k.txn
      && x.attempt == k.attempt)

/-- A response at its source (R205, R206). -/
def Dev.takeResponse (d : Dev) (n : Nv) (m : Mem) (k : Packet) (bad : Bool) : Mem × Dev :=
  if bad then (m, d.frtCount k.dst (frtRegs k.dst).2.2.2)
  else match d.matching k with
    | none => (m, d.frtCount k.dst (frtRegs k.dst).2.2.2)
    | some x => d.accept n m x k

/-- TIMEOUT has passed for a transaction (Table 9-4). -/
def Dev.timeoutTxn (d : Dev) (n : Nv) (m : Mem) (x : Txn) : Mem × Dev :=
  if x.req.typ = pRead ∧ x.attempt < 7 then (m, d.resendTxn n x) else d.endTxn n m x .fatal

/-! ### Routers (R199) -/

/-- What a router does with a packet's head. -/
inductive Hop where
  | move (k : Packet)
  | hand (k : Packet)
  | misroute
deriving DecidableEq, Repr

/-- One step from (x, y) toward (tx, ty), in columns first or rows first. -/
def stepToward (colsFirst : Bool) (x y tx ty : Nat) : Nat × Nat :=
  let moveX := (if x < tx then x + 1 else x - 1, y)
  let moveY := (x, if y < ty then y + 1 else y - 1)
  if colsFirst then (if x ≠ tx then moveX else moveY) else (if y ≠ ty then moveY else moveX)

/-- Whether position (x, y) lies on the edge that EXIT names. -/
def onEdge (ex x y : Nat) : Bool :=
  match ex with
  | 1 => y == 0
  | 2 => y == 47
  | 3 => x == 0
  | 4 => x == 47
  | _ => ex == 0

/-- The procedure freight_hop of R199 at mesh position `p`. -/
def Packet.hop (k : Packet) (p : Nat) : Hop :=
  let x := p % 48
  let y := p / 48
  if 48 ≤ k.ix ∨ 48 ≤ k.iy ∨ 48 ≤ k.dx ∨ 48 ≤ k.dy ∨ ((x, y) = (k.dx, k.dy) ∧ !onEdge k.exit x y) then .misroute
  else
    let arrived := decide (k.phase = 0 ∧ (x, y) = (k.ix, k.iy))
    let k := if arrived then { k with phase := 1 } else k
    if k.phase = 0 then
      let (x', y') := stepToward true x y k.ix k.iy
      .move { k with at_ := some (posOf x' y') }
    else if (x, y) ≠ (k.dx, k.dy) then
      let (x', y') := stepToward false x y k.dx k.dy
      .move { k with at_ := some (posOf x' y') }
    else .hand { k with at_ := none }

/-- Count in a station's Freight counter (R210): bit 0 RX, 1 CRC_FAIL, 2 HDR_FAIL, 3 NACK, 4 MISROUTE. -/
def Dev.frt (d : Dev) (p bitNo : Nat) : Dev := d.sCount p (R.STN_FRT_RX + 4 * bitNo) 1 R.STN_FRT_OVF bitNo (some 5)

/-! ### Arbitration (R200) -/

/-- The port at which a packet from the router at `p` enters its neighbour at `q`. -/
def portFrom (p q : Nat) : Nat := if q = p + 1 then 3 else if p = q + 1 then 1 else if q = p + 48 then 0 else 2

/-- What an output of the router at `p` leads to that is no router of the mesh: the Freight interface of its station (EXIT 0),
or the input of the edge router behind port EXIT. -/
def freightOut (p ex : Nat) : Nat := freightIn (2304 + p) ex 1

/-- It is a station's Freight interface, which has no places of its own: it takes a packet from where it stands (R201). -/
def handsLocal (y : Nat) : Bool := decide (23040 ≤ y ∧ y / 2 % 5 = 0)

/-- The packet after its next step, and the input that it enters: of a router of the mesh in the class of its phase, or what
its EXIT names. -/
def Packet.wants (k : Packet) : Option (Packet × Nat) :=
  k.at_.bind (fun p => match k.hop p with
    | .move k' => k'.at_.map (fun q => (k', freightIn q (portFrom p q) k'.phase))
    | .hand k' => some (k', freightOut p k.exit)
    | .misroute => none)

/-- Packet `i` is first in input `x`, where its head stands: those that came before have left it.  A packet that moves goes
to the end of the list, so that those with their heads in one input stand in the order in which they came. -/
def Dev.firstIn (d : Dev) (i x : Nat) : Bool :=
  d.packets.zipIdx.all (fun q => q.2 == i || (match q.1.trail with
    | [] => true
    | (y, _) :: rest => !(rest.any (fun z => z.1 == x)) && (y != x || decide (i < q.2))))

/-- Packet `i` can take its next step, into input `y`: it is first in its own input, and `y` has a place, or needs none, and is not
held by another packet. -/
def Dev.mayStep (d : Dev) (i : Nat) (k : Packet) (y : Nat) : Bool :=
  (k.trail.head?).any (fun q => d.firstIn i q.1) && (handsLocal y || decide (0 < d.placesFor (isResponse k.typ) y))
    && d.packets.zipIdx.all (fun q => q.2 == i || !q.1.feeding y)

/-- The turn of a packet at the link that leads to input `y`: class 1 first, then the inputs in round robin over N, E, S, W
and local from the one after that served last. -/
def Dev.linkTurn (d : Dev) (k : Packet) (y : Nat) : Nat :=
  let port := ((k.trail.head?).map (fun q => q.1 / 2 % 5)).getD 4
  (if y % 2 = 1 then 0 else 5) + (port + 4 - d.frtServed.get (fun _ => 4) y) % 5

/-- The link to input `y` serves packet `i` next. -/
def Dev.linkServes (d : Dev) (i : Nat) (k : Packet) (y : Nat) : Bool :=
  d.mayStep i k y && d.packets.zipIdx.all (fun q => q.2 == i || (match q.1.wants with
    | some (_, z) => z / 2 != y / 2 || !d.mayStep q.2 q.1 z
        || decide (d.linkTurn k y < d.linkTurn q.1 z ∨ (d.linkTurn k y = d.linkTurn q.1 z ∧ i < q.2))
    | none => true))

/-- The head of a packet takes its step into input `y`; its flits follow as far as the inputs it holds have places, and an
input they have all left is free. -/
def Dev.stepPacket (d : Dev) (i : Nat) (k k' : Packet) (y : Nat) : Dev :=
  let rest := { d with packets := d.packets.eraseIdx i }
  let room := fun (x : Nat) => (x, if handsLocal x then 0 else rest.placesFor (isResponse k.typ) x)
  let port := ((k.trail.head?).map (fun q => q.1 / 2 % 5)).getD 4
  { rest with packets := rest.packets ++ [{ k' with trail := layFlits k.flits (room y :: k.trail.map (fun q => room q.1)) }]
              frtServed := d.frtServed.set (fun _ => 4) y port }

/-- FREIGHT_HOP (R199): the head of a packet goes through its router, when its turn has come and there is a place for it
(R200).  A packet that waits at its source enters its router first.  A packet for a station keeps its places until the
station has taken it (R201). -/
def Dev.hopPacket (d : Dev) (n : Nv) (i : Nat) : Dev :=
  match d.packets[i]? with
  | none => d
  | some k =>
    match k.at_, k.trail with
    | none, _ => d
    | some p, [] => { d with packets := d.packets.set i (d.entered k p) }
    | some p, (x, _) :: _ =>
      match k.wants with
      | some (k', y) => if d.linkServes i k y then d.stepPacket i k k' y else d
      | none =>
        if d.firstIn i x then
          let d := { d with packets := d.packets.eraseIdx i }
          if n.enabled p then (d.frt p 4).stnIrq p 5 else d
        else d

/-! ### Accesses by Freight (R18, R25, R275) -/

/-- Entries of the Interchange descriptor queue: descriptors, and accesses of cores whose transaction has no slot yet. -/
def Dev.descQueue (d : Dev) : Nat :=
  d.sdma.length + (d.fwait.filter (fun r => match r.owner with | .core _ _ => true | _ => false)).length

/-- The WRITE of a transaction has no effect any more: its packet, or the request it has become at its destination, is gone. -/
def Dev.dropWrite (d : Dev) (t : Txn) : Dev :=
  let mine := fun (k : Packet) => k.typ == pWrite && k.src == t.req.ep && k.txn == t.txn
  let d := { d with packets := d.packets.filter (fun k => !mine k) }
  match (Ep.ofNat t.req.dst), d.posOfRank t.req.dst with
  | .station _, some p => (d.updStn p (fun s => { s with arb := s.arb.filter (fun r => match r with
      | .write _ _ (some y) => !(y.ep == t.req.ep && y.txn == t.txn)
      | _ => true) })).arbState p
  | .streamer s, _ => d.updStreamer s (fun y => { y with work := y.work.filter (fun k => !mine k) })
  | _, _ => d

/-- A word access did not end within its limit, and ends with no state change (R25): a write that has not taken effect takes
none, and its transaction ends under R206 (log entry 49). -/
def Dev.withdraw (d : Dev) (n : Nv) (id : Nat) : Dev :=
  let mine := d.txns.filter (fun t => t.req.owner == .word id && t.req.typ == pWrite)
  (mine.foldl (fun (d : Dev) t => d.dropWrite t) (d.disown (fun r => r.owner == .word id))).serveSlots n

/-- A word access of a master that is no core goes out as one Freight transaction of the Interchange's endpoint (log entry
49); where no endpoint serves the address there is nothing to ask. -/
def Dev.wordFreight (d : Dev) (n : Nv) (m : Master) (a : Nat) (wr : Option Word) (host : Option (Nat × Bool)) : Option Dev :=
  (d.endpointOf n a).map (fun e =>
    let id := d.accNext
    let r : FReq := { ep := epHost, typ := if wr.isSome then pWrite else pRead, dst := e, addr := a, rdst := 0,
                      rcount := if wr.isSome then 0 else 4, data := (wr.map wordBytes).getD [], owner := .word id, place := 0,
                      rdev := none }
    let x : WordAcc := { id := id, master := m, wr := wr.isSome, since := d.now, host := host, remote := none,
                         desc := none, pre := [], post := [], twin := none, bank := none, ended := none }
    { d with words := d.words ++ [x], accNext := id + 1 }.ask n [r])

end Sys2Proof.Machine
end

