-- ==== Sys2Proof/Machine/LinkOps.lean ====
section
/-! DEFINITION. What other units ask of the host link (chapter 11): answers, interrupt messages, posted writes, and records
handed to the output rings. -/

namespace Sys2Proof.Machine

/-- Types of the messages the device sends (Table 11-3). -/
abbrev mLink : Nat := 0
abbrev mMsg : Nat := 0xA
abbrev mAck : Nat := 0xB
abbrev mNack : Nat := 0xC
abbrev mMemWr : Nat := 0xD
abbrev mInt : Nat := 0xE

/-- NACK codes (Table 11-6). -/
abbrev cRetry : Nat := 1
abbrev cOrder : Nat := 2
abbrev cNoWorld : Nat := 3
abbrev cWorldFault : Nat := 4
abbrev cUnmapped : Nat := 5
abbrev cBusy : Nat := 6
abbrev cFreight : Nat := 7
abbrev cAbort : Nat := 8
abbrev cReset : Nat := 9
abbrev cBadField : Nat := 10

/-- Whether the transport runs (Table 11-10); it stalls with its clock branch (R335). -/
def Dev.linkUp (d : Dev) : Bool := bit (d.rd R.XCH_LINK_STATUS) 31 && d.branchOn 0 0

/-- A message of class R or P waits to be sent. -/
def Dev.queueR (d : Dev) (m : DevMsg) : Dev := { d with link := { d.link with waitR := d.link.waitR ++ [m] } }
def Dev.queueP (d : Dev) (m : DevMsg) : Dev := { d with link := { d.link with waitP := d.link.waitP ++ [m] } }

/-- ACK of the request with sequence number `seq`, with its data. -/
def Dev.ack (d : Dev) (seq : Nat) (data : List Byte) : Dev :=
  d.queueR { typ := mAck, flags := 0, addrHi := 0, arg := w32 (seq % 65536), payload := data, after := 0 }

/-- ACK that follows every message of class P made so far (R243). -/
def Dev.ackAfter (d : Dev) (seq : Nat) (data : List Byte) : Dev :=
  d.queueR { typ := mAck, flags := 0, addrHi := 0, arg := w32 (seq % 65536), payload := data, after := d.link.waitP.length }

/-- NACK of a request (R241). -/
def Dev.nack (d : Dev) (seq code credit : Nat) : Dev :=
  d.queueR { typ := mNack, flags := 0, addrHi := 0, payload := [],
             arg := w32 (code % 64 * 2 ^ 26 + credit % 1024 * 2 ^ 16 + seq % 65536), after := 0 }

/-- INT for a source (R314). -/
def Dev.sendInt (d : Dev) (k : Nat) : Dev :=
  d.queueP { typ := mInt, flags := 0, addrHi := 0, arg := w32 k, payload := [], after := 0 }

/-- MEM_WR of bytes at a host address (R234). -/
def Dev.memWr (d : Dev) (a : Nat) (bs : List Byte) : Dev :=
  d.queueP { typ := mMemWr, flags := 0, addrHi := a / 2 ^ 32 % 256, arg := w32 a, payload := bs, after := 0 }

/-- Add to place `i` of a list of limits or counts modulo 65,536. -/
def bump (l : List Nat) (i k : Nat) : List Nat := l.set i ((l.getD i 0 + k) % 65536)

/-- A message of device class `c` (0 C, 1 B, 2 I, 3 M) has freed its place of `units` data units (R240). -/
def Dev.raise (d : Dev) (c units : Nat) : Dev :=
  { d with link := { d.link with limMsgs := bump d.link.limMsgs c 1, limData := bump d.link.limData c units } }

/-! ### Training (R231) -/

/-- The modules a training ends with, of the outcomes of each (R231). -/
def trainedMods (tr : TrainOutcome) : List Nat :=
  let x64 := fun m => tr.modulesX64.getLsbD m
  let works := fun m => x64 m || tr.modulesX32.getLsbD m
  let width := fun (l : List Nat) => (l.map (fun m => if x64 m then 64 else 32)).sum
  let lo := works 0 && works 1
  let hi := works 2 && works 3
  if lo && hi then [0, 1, 2, 3]
  else if lo && (!hi || decide (width [2, 3] ≤ width [0, 1])) then [0, 1]
  else if hi then [2, 3]
  else ((List.range 4).find? works).toList

/-- The outcome of a training in XCH_LINK_STATUS (Table 11-10); none when no module trained. -/
def Dev.trainStatus (d : Dev) (tr : TrainOutcome) : Option Word :=
  match trainedMods tr with
  | [] => none
  | ms =>
    let x32 := ms.filter (fun m => !tr.modulesX64.getLsbD m)
    let fixed := ms.filter (fun m => tr.repaired.getLsbD m)
    let rate := min (d.f R.XCH_LINK_CFG 0 2) tr.hostRate.toNat
    some (w32 (2 ^ 31 + rate * 2 ^ 28 + maskOf ms * 2 ^ 24 + maskOf x32 * 2 ^ 20 + maskOf fixed * 2 ^ 16))

/-! ### Output rings (R244 to R248) -/

def ring0 (_ : Nat) : Ring := Ring.init
def Dev.ring (d : Dev) (r : Nat) : Ring := d.rings.get ring0 r
def Dev.setRing (d : Dev) (r : Nat) (x : Ring) : Dev := { d with rings := d.rings.set ring0 r x }
def ringState (r : Nat) : Nat := R.XCH_RING_STATE + 16 * r
def Dev.ringOn (d : Dev) (r : Nat) : Bool := bit (d.rd (ringState r)) 31
def Dev.ringW (d : Dev) (r : Nat) : Nat := d.f (ringState r) 0 27
def Dev.ringR (d : Dev) (r : Nat) : Nat := d.f (R.XCH_RING_RIDX + 16 * r) 0 27
def Dev.ringSize (d : Dev) (r : Nat) : Nat := (d.rd (R.XCH_RING_SIZE + 16 * r)).toNat

/-- Set the ring's bit of XCH_RING_PEND (R248). -/
def Dev.ringNote (d : Dev) (r : Nat) : Dev := d.orBits (R.XCH_RING_PEND + 4 * (r / 32)) (2 ^ (r % 32))

/-- Discard `k` records of a ring: counted, noted, and shown by DROP of the next record written (R248). -/
def Dev.ringDrop (d : Dev) (r k : Nat) : Dev :=
  if k = 0 then d
  else
    let d := (d.count (R.XCH_RING_DROP + 16 * r) k R.XCH_TP_ERR 0).ringNote r
    d.setRing r { d.ring r with drop := true }

/-- Length of a record in bytes, header and padding to a whole word included (R244, R267). -/
def Rec.bytes (r : Rec) : Nat := 8 + (r.body.length + 7) / 8 * 8

/-- The 8 bytes of a record header (Table 11-7). -/
def recHeader (step world len typ : Nat) (drop : Bool) : List Byte :=
  leBytes 8 (step % 65536 * 2 ^ 48 + world % 4096 * 2 ^ 36 + len % 2 ^ 24 * 2 ^ 8 + (if drop then 16 else 0) + typ % 16)

/-- The bytes of a record as written. -/
def Rec.image (r : Rec) (drop : Bool) : List Byte :=
  recHeader r.step r.world (r.bytes / 8) r.typ drop ++ r.body ++ List.replicate (r.bytes - 8 - r.body.length) 0

/-- Bytes in the output store of 64 KiB: records that wait for space and posted writes that wait for credits (R248). -/
def Dev.storeUsed (d : Dev) : Nat :=
  (d.rings.map (fun q => (q.2.waiting.map Rec.bytes).sum)).sum
    + ((d.link.waitP.filter (fun m => m.typ == mMemWr)).map (fun m => m.payload.length)).sum

/-- Write the index of a ring: W and RECS at WIDX_ADDR, and its notice with NOTE_EN (R246, R248). -/
def Dev.writeIndex (d : Dev) (r : Nat) : Dev :=
  let x := d.ring r
  let d := d.memWr x.widx (leBytes 4 (d.ringW r) ++ leBytes 4 x.recs)
  if bit (d.rd (ringState r)) 28 then d.ringNote r else d

/-- Outcome of one decision of the procedure place of R246. -/
inductive Place where
  | tooLong
  | put (w : Nat)
  | pad
  | wait
deriving DecidableEq, Repr

/-- The procedure place for a record of `n` bytes. -/
def placeAt (size w r n : Nat) : Place :=
  if size - 8 < n then .tooLong
  else if r ≤ w then
    if n ≤ size - w ∧ (w + n < size ∨ r ≠ 0) then .put ((w + n) % size)
    else if size - w < n ∧ r ≠ 0 then .pad
    else .wait
  else if n + 8 ≤ r - w then .put (w + n)
  else .wait

/-- Whether an enabled ring takes a record: the store that every record goes through has room for it, or it is longer than
the ring takes, which placing it will show (R246, R248). -/
def Dev.storeTakes (d : Dev) (r : Nat) (x : Rec) : Bool :=
  decide (d.storeUsed + x.bytes ≤ 65536) || ((d.ring r).waiting == [] && decide (d.ringSize r - 8 < x.bytes))

/-- Hand a record to an enabled ring: RECORD_PLACE places it, or it is discarded when the store has no room (R248). -/
def Dev.handRecord (d : Dev) (r : Nat) (x : Rec) : Dev :=
  if d.storeTakes r x then d.setRing r { d.ring r with waiting := (d.ring r).waiting ++ [x] } else d.ringDrop r 1

/-- Set the write offset of a ring. -/
def Dev.setW (d : Dev) (r w : Nat) : Dev := d.setF (ringState r) 0 27 w

/-- Count in an encoder or decoder counter; a saturation sets its bit of XCH_ED_OVF and raises source 68 (R269). -/
def Dev.edCount (d : Dev) (a k bitNo : Nat) : Dev :=
  if k = 0 then d
  else
    let c := (d.rd a).toNat
    let d := d.count a k R.XCH_ED_OVF bitNo
    if satHits 32 c k then d.irq1 68 else d

/-- XCH_DEC_RECS: a record of TYPE 1 to 4 is a decoder's, whose channel stands first in its body (R267, R269). -/
def Dev.recsCount (d : Dev) (x : Rec) : Dev :=
  if 1 ≤ x.typ ∧ x.typ ≤ 4 then d.edCount (R.XCH_DEC_RECS + 0x20 * (x.body.headD 0).toNat) 1 3 else d

/-- Write the record at the head of a ring at its write offset. -/
def Dev.putRecord (d : Dev) (r : Nat) (x : Rec) (w : Nat) : Dev :=
  let q := d.ring r
  let d := d.memWr (q.base + d.ringW r) (x.image q.drop)
  let d := d.setRing r { q with waiting := q.waiting.tail, drop := false, recs := (q.recs + 1) % 2 ^ 32 }
  (d.setW r w).recsCount x

/-- Place the record at the head of a ring (R246): with a pad first where one is due, or left to wait, or discarded as
longer than the ring takes; then write the index. -/
def Dev.placeRecord (d : Dev) (r : Nat) : Dev :=
  match (d.ring r).waiting with
  | [] => d
  | x :: rest =>
    let size := d.ringSize r
    match placeAt size (d.ringW r) (d.ringR r) x.bytes with
    | .tooLong =>
      let d := d.setRing r { d.ring r with waiting := rest }
      ((d.ringDrop r 1).orBits (ringState r) (2 ^ 29)).andNot (ringState r) (2 ^ 30)
    | .put w => ((d.putRecord r x w).andNot (ringState r) (2 ^ 30)).writeIndex r
    | .wait => d.orBits (ringState r) (2 ^ 30)
    | .pad =>
      let w := d.ringW r
      let d := d.memWr ((d.ring r).base + w) (recHeader 0 0 ((size - w) / 8) 0xF false)
      let d := d.setW r 0
      match placeAt size 0 (d.ringR r) x.bytes with
      | .put w' => ((d.putRecord r x w').andNot (ringState r) (2 ^ 30)).writeIndex r
      | _ => (d.orBits (ringState r) (2 ^ 30)).writeIndex r

end Sys2Proof.Machine
end

