-- ==== Sys2Proof/Machine/Decoders.lean ====
section
/-! DEFINITION. Decoder channels (R264 to R267): acceptance of copies, the work at the end of a step, records. -/

namespace Sys2Proof.Machine

def dec0 (_ : Nat) : Dec := Dec.init
def Dev.dec (d : Dev) (c : Nat) : Dec := d.decs.get dec0 c
def Dev.setDec (d : Dev) (c : Nat) (x : Dec) : Dev := { d with decs := d.decs.set dec0 c x }
def decReg (r c : Nat) : Nat := r + 0x20 * c

/-- The settings of a decoder channel (Table 12-6), NOUT limited as R267 says. -/
structure DecCfg where
  enable : Bool
  kind : Nat
  wlog : Nat
  pfmt : Nat
  ring : Nat
  world : Nat
  nout : Nat
  nbase : Nat
  alpha : Word
deriving DecidableEq, Repr

def Dev.decCfg (d : Dev) (c : Nat) : DecCfg :=
  let w := d.rd (decReg R.XCH_DEC_CFG c)
  let m := d.rd (decReg R.XCH_DEC_MAP c)
  let kind := fld w 29 2
  { enable := bit w 31, kind := kind, wlog := fld w 25 4, pfmt := fld w 21 4, ring := fld w 12 8, world := fld w 0 12,
    nout := min (fld m 16 12) (if kind = 3 then 1020 else 2040), nbase := fld m 0 12,
    alpha := d.rd (decReg R.XCH_DEC_ALPHA c) }

def Dev.decDrop (d : Dev) (c k : Nat) : Dev := d.edCount (decReg R.XCH_DEC_DROP c) k 3

/-- The state of a channel at GO, at a COMPUTE reset and at a write of its CFG register (R265). -/
def Dev.decReset (d : Dev) (c : Nat) : Dev := d.setDec c Dec.init

def noNat (_ : Nat) : Option Nat := none

/-- What a COUNT or RATE channel adds for a copy; none for a NaN payload (Table 12-2). -/
def countOf (q : DecCfg) (c : Copy) : Option Nat :=
  if c.bin then some 1
  else
    let v := (fmtOf q.pfmt).value (c.payload % 2 ^ (fmtOf q.pfmt).bits)
    if v.isNan then none else some (convInt 0 15 v none).1.toNat

/-- Put an accepted copy into the outputs of a channel, for the step `t` it collects.  Table 12-2 does not say how MEMBRANE keeps a
payload whose format is finer than BF16: rounded to nearest even, a value too large becoming the largest, counted nowhere; nor what
PFMT 0xE and 0xF mean: they decode as `fmtOf` has them (DESIGN CHOICE, log entry 55). -/
def DecCfg.put (q : DecCfg) (x : Dec) (c : Copy) (t : Nat) : Dec :=
  let i := (c.key.toNat % 4096 + 4096 - q.nbase) % 4096
  match q.kind with
  | 1 => if (x.first.get noNat i).isNone then { x with first := x.first.set noNat i (some (t % 2 ^ q.wlog)) } else x
  | 2 =>
    let v := bf16.conv ((fmtOf q.pfmt).value (c.payload % 2 ^ (fmtOf q.pfmt).bits)) none
    { x with val := x.val.set noNat i (some v.code) }
  | _ =>
    match countOf q c with
    | some k => { x with cnt := x.cnt.set zeroNat i (min (x.cnt.get zeroNat i + k) 0xFFFF) }
    | none => x

/-- Whether every output of a MEMBRANE channel has a value. -/
def DecCfg.full (q : DecCfg) (val : PMap (Option Nat)) : Bool := (List.range q.nout).all (fun i => (val.get noNat i).isSome)

/-- Hand a channel's record to its ring (R267). -/
def Dev.decRecord (d : Dev) (c : Nat) (q : DecCfg) (t ext : Nat) (typ : Nat) (elems : List Byte) : Dev :=
  if q.nout = 0 then d
  else if !d.ringOn q.ring then d.decDrop c 1
  else
    let x : Rec := { step := t, world := q.world, typ := typ,
                     body := leBytes 8 (ext % 2 ^ 32 * 2 ^ 32 + q.nout * 2 ^ 16 + c) ++ elems }
    d.handRecord q.ring x

/-- Write the MEMBRANE record of a window, missing outputs as 0x7FC0 (R266); one that waited waits no more.  The missing outputs of
a record that is discarded, its ring not enabled or its store full, count too: the spec does not say (DESIGN CHOICE, log
entry 55). -/
def Dev.decMembrane (d : Dev) (c : Nat) (q : DecCfg) (y : DecWait) : Dev :=
  let vals := (List.range q.nout).map (fun i => y.val.get noNat i)
  let missing := (vals.filter Option.isNone).length
  let d := d.decRecord c q y.step y.ext 3 ((vals.map (fun v => leBytes 2 (v.getD 0x7FC0))).flatten)
  let d := d.edCount (decReg R.XCH_DEC_MISS c) missing 3
  let d := if missing = 0 then d else d.irq1 68
  d.setDec c { d.dec c with wait := (d.dec c).wait.filter (fun z => z.step != y.step) }

/-- Put a copy into the values of a MEMBRANE record that waits, which is written once it is full. -/
def Dev.decLate (d : Dev) (c : Nat) (q : DecCfg) (w : DecWait) (y : Copy) : Dev :=
  let w := { w with val := (q.put { Dec.init with val := w.val } y w.step).val }
  if q.full w.val then d.decMembrane c q w
  else d.setDec c { d.dec c with wait := (d.dec c).wait.map (fun z => if z.step == w.step then w else z) }

/-- A copy accepted for step `s`: the record of the step before it waits no longer (R266).  A copy of another step with the same
two tag bits ends no wait (DESIGN CHOICE, log entry 55). -/
def Dev.decNext (d : Dev) (c : Nat) (q : DecCfg) (s : Nat) : Dev :=
  ((d.dec c).wait.filter (fun w => (w.step + 1) % 65536 == s % 65536)).foldl (fun (d : Dev) w => d.decMembrane c q w) d

/-- A copy delivered to decoder channel `c` (R264, R266): one for a step whose MEMBRANE record waits joins that record, any
other is accepted for the step the channel collects.  A copy whose tag fits both joins the record that waits: a tag has two bits,
and the spec does not say which of two steps four apart is meant (DESIGN CHOICE, log entry 55). -/
def Dev.decAccept (d : Dev) (c : Nat) (y : Copy) : Dev :=
  let q := d.decCfg c
  let x := d.dec c
  let i := (y.key.toNat % 4096 + 4096 - q.nbase) % 4096
  let t := (d.wld q.world).collect
  if !q.enable ∨ y.world ≠ q.world ∨ q.nout ≤ i then d.decDrop c 1
  else if (q.kind = 0 ∨ q.kind = 3) ∧ (countOf q y).isNone then d.decDrop c 1
  else match x.wait.find? (fun w => w.step % 4 == y.stepTag) with
    | some w => (d.decNext c q w.step).decLate c q w y
    | none =>
      if y.stepTag = t % 4 then
        let d := d.decNext c q t
        d.setDec c (q.put (d.dec c) y t)
      else d.decDrop c 1

/-- The end-of-step work of one channel for step `t` (Table 12-2). -/
def Dev.decStep (d : Dev) (t ext c : Nat) : Dev :=
  let q := d.decCfg c
  let ends := decide (t % 2 ^ q.wlog = 2 ^ q.wlog - 1)
  let idx := List.range q.nout
  match q.kind with
  | 0 =>
    if ends then
      let x := d.dec c
      let d := d.decRecord c q t ext 1 ((idx.map (fun i => leBytes 2 (x.cnt.get zeroNat i))).flatten)
      d.setDec c { x with cnt := [] }
    else d
  | 1 =>
    if ends then
      let x := d.dec c
      let d := d.decRecord c q t ext 2 ((idx.map (fun i => leBytes 2 ((x.first.get noNat i).getD 0xFFFF))).flatten)
      d.setDec c { x with first := [] }
    else d
  | 2 =>
    if ends then
      let w : DecWait := { step := t, ext := ext, val := (d.dec c).val }
      let d := d.setDec c { d.dec c with val := [] }
      if q.full w.val then d.decMembrane c q w else d.setDec c { d.dec c with wait := (d.dec c).wait ++ [w] }
    else d
  | _ =>
    let x := d.dec c
    let α := f32 q.alpha
    let mix := fun (r : Word) (n : Nat) =>
      let a := (satF (fmul α (f32 r))).1
      let b := (satF (fmul (satF (fsub .one α)).1 (.fin false n 0))).1
      toF32 (satF (fadd a b)).1
    let rate := idx.foldl (fun m i =>
      m.set (fun _ => (0 : Word)) i (mix (m.get (fun _ => (0 : Word)) i) (x.cnt.get zeroNat i))) x.rate
    let d := d.setDec c { x with rate := rate, cnt := [] }
    if ends then d.decRecord c q t ext 4 ((idx.map (fun i => wordBytes (rate.get (fun _ => (0 : Word)) i))).flatten) else d

/-- The decoder run of world `w` for its present step: every enabled channel of the world in ascending number; then they
collect for the next step (R265). -/
def Dev.decRun (d : Dev) (w : Nat) : Dev :=
  let t := (d.wld w).step
  let ext := (d.wld w).ext
  let cs := (List.range 256).filter (fun c => (d.decCfg c).enable && (d.decCfg c).world == w)
  let d := cs.foldl (fun d c => d.decStep t ext c) d
  d.updWld w (fun x => { x with collect := (t + 1) % 65536 })

end Sys2Proof.Machine
end

