-- ==== Sys2Proof/Machine/TrunkOps.lean ====
section
/-! DEFINITION. Sending on the trunk links (R399 to R403, R410): link units, lanes and credit, tokens, and where traffic for
another device goes. -/

namespace Sys2Proof.Machine

def trunk0 (_ : Nat) : Trunk := Trunk.init
def Dev.trunk (d : Dev) (k : Nat) : Trunk := d.trunks.get trunk0 k
def Dev.setTrunk (d : Dev) (k : Nat) (x : Trunk) : Dev := { d with trunks := d.trunks.set trunk0 k x }
def Dev.updTrunk (d : Dev) (k : Nat) (f : Trunk → Trunk) : Dev := d.setTrunk k (f (d.trunk k))
def trk (r k : Nat) : Nat := r + 0x40 * k

/-- A trunk link is present and up. -/
def Dev.trunkUp (d : Dev) (n : Nv) (k : Nat) : Bool := n.trunkOn k && bit (d.rd (trk R.TRK_STATUS k)) 31
def Dev.formed (d : Dev) : Bool := d.f R.TRK_SYS 30 2 == 2
def Dev.isManager (d : Dev) : Bool := bit (d.rd R.TRK_SYS) 29
def Dev.orphan (d : Dev) : Bool := bit (d.rd R.TRK_SYS) 28

/-- A trunk link is up, or in the course of a retrain (R402): what is bound for it waits on its lanes. -/
def Dev.trunkHeld (d : Dev) (n : Nv) (k : Nat) : Bool :=
  n.trunkOn k && !bit (d.rd (trk R.TRK_STATUS k)) 30
    && (bit (d.rd (trk R.TRK_STATUS k)) 31 || (d.trunk k).due)

/-- Raise a link's source (R422). -/
def Dev.trkIrq (d : Dev) (k : Nat) : Dev := d.irq1 (92 + k)

/-- Count in a counter of a link; a saturation sets OVF_EVT and raises its source (R422). -/
def Dev.trkCount (d : Dev) (r k c : Nat) : Dev :=
  if c = 0 then d
  else
    let n := (d.rd (trk r k)).toNat
    let d := d.count (trk r k) c (trk R.TRK_STATUS k) 3
    if satHits 32 n c then d.trkIrq k else d

/-- The header of a link unit (Table 19-1); it returns the freed places of the lowest lane that has any (R400). -/
def Trunk.header (x : Trunk) (kind : Nat) (nak : Bool) (u : Lu) : BitVec 64 × Trunk :=
  let cr := (List.range 5).find? (fun l => x.freed.get zeroNat l != 0)
  let lane := cr.getD 0
  let cnt := match cr with | some l => x.freed.get zeroNat l | none => 0
  (BitVec.ofNat 64 (kind % 16 + u.lane % 8 * 2 ^ 4 + (if u.first then 2 ^ 7 else 0) + (if u.last then 2 ^ 8 else 0)
    + u.count % 64 * 2 ^ 9 + u.seq % 4096 * 2 ^ 15 + x.rxNext % 4096 * 2 ^ 27 + (if nak then 2 ^ 39 else 0)
    + lane * 2 ^ 40 + cnt % 4096 * 2 ^ 43), { x with freed := x.freed.set zeroNat lane 0 })

/-- The 64 bytes of a link unit: header, 52 payload bytes and CRC-32C (R399). -/
def luBytes (h : BitVec 64) (payload : List Byte) : List Byte :=
  let bs := leBytes 8 h.toNat ++ recBytes payload 0 52
  bs ++ wordBytes (crc32c bs)

/-- An IDLE link unit with no content. -/
def Lu.idle : Lu := { seq := 0, lane := 0, first := false, last := false, count := 0, payload := [] }

/-- Send an IDLE link unit, with NAK or without (R402). -/
def Trunk.sendIdle (x : Trunk) (nak : Bool) : Trunk :=
  let (h, x) := x.header 0 nak Lu.idle
  { x with run := 0, wire := x.wire ++ [luBytes h []] }

/-- Send a DATA link unit, behind an IDLE one where 4,095 have gone without (R429). -/
def Trunk.sendLu (x : Trunk) (u : Lu) : Trunk :=
  let x := if 4095 ≤ x.run then x.sendIdle false else x
  let (h, x) := x.header 1 false u
  { x with run := x.run + 1, wire := x.wire ++ [luBytes h u.payload] }

def noLus (_ : Nat) : List Lu := []

/-- Whether a lane may send now: FORMED for X, FQ and FR (R411); credit; fewer than 1,024 link units held (R402). -/
def Dev.laneMay (d : Dev) (k l : Nat) : Bool :=
  let x := d.trunk k
  decide (x.held.length < 1024 ∧ x.credit.get laneSize l ≠ 0 ∧ x.wait.get noLus l ≠ []) && (decide (3 ≤ l) || d.formed)

/-- Send the link units that may go, lane by lane. -/
def Dev.pumpTrunk (d : Dev) (n : Nv) (k : Nat) : Nat → Dev
  | 0 => d
  | fuel + 1 =>
    if !d.trunkUp n k then d
    else match (List.range 5).find? (d.laneMay k) with
      | none => d
      | some l =>
        let x := d.trunk k
        match x.wait.get noLus l with
        | [] => d
        | u :: rest =>
          let u := { u with seq := x.txNext }
          let x := { x with wait := x.wait.set noLus l rest, credit := x.credit.set laneSize l (x.credit.get laneSize l - 1),
                            txNext := (x.txNext + 1) % 4096, held := x.held ++ [u] }
          (d.setTrunk k (x.sendLu u)).pumpTrunk n k fuel

/-- Queue link units on a lane and send what may go. -/
def Dev.sendLane (d : Dev) (n : Nv) (k l : Nat) (us : List Lu) : Dev :=
  let d := d.updTrunk k (fun x => { x with wait := x.wait.set noLus l (x.wait.get noLus l ++ us), wire := [] })
  d.pumpTrunk n k ((d.trunk k).wait.map (fun q => q.2.length)).sum

/-- Cut the bytes of a packet or message into link units of 52 bytes (Table 19-2). -/
def cutLus (l : Nat) (first : Bool) (bs : List Byte) : Nat → List Lu
  | 0 => []
  | fuel + 1 =>
    if bs.length ≤ 52 then [{ seq := 0, lane := l, first := first, last := true, count := bs.length, payload := bs }]
    else { seq := 0, lane := l, first := first, last := false, count := 52, payload := bs.take 52 }
      :: cutLus l false (bs.drop 52) fuel

def Dev.sendBytes (d : Dev) (n : Nv) (k l : Nat) (bs : List Byte) : Dev :=
  d.sendLane n k l (cutLus l true bs (bs.length / 52 + 1))

/-- The 12 bytes of an X entry (R403). -/
def Copy.entry (c : Copy) : List Byte := leBytes 8 c.word.toNat ++ [c.tag, BitVec.ofNat 8 c.vc, 0, 0]

/-- A trunk endpoint sends a copy on its link. -/
def Dev.sendX (d : Dev) (n : Nv) (k : Nat) (c : Copy) : Dev :=
  (d.trkCount R.TRK_X_TX k 1).sendLane n k 0 [{ seq := 0, lane := 0, first := false, last := false, count := 1, payload := c.entry }]

/-! ### Tokens (Table 19-3) -/

def Token.bytes (t : Token) : List Byte :=
  leBytes 4 (t.kind % 16 + t.sdev % 64 * 2 ^ 4 + t.ddev % 64 * 2 ^ 10 + t.world % 4096 * 2 ^ 16 + t.flags % 16 * 2 ^ 28)
    ++ leBytes 4 (t.step % 65536 + t.round % 65536 * 2 ^ 16) ++ wordBytes t.a ++ wordBytes t.b ++ wordBytes t.c ++ wordBytes t.d

def Token.ofBytes (bs : List Byte) : Token :=
  let w := fun i => recWord bs (4 * i)
  { kind := fld (w 0) 0 4, sdev := fld (w 0) 4 6, ddev := fld (w 0) 10 6, world := fld (w 0) 16 12, flags := fld (w 0) 28 4,
    step := fld (w 1) 0 16, round := fld (w 1) 16 16, a := w 2, b := w 3, c := w 4, d := w 5 }

/-- Send a token on a link. -/
def Dev.tokenOn (d : Dev) (n : Nv) (k : Nat) (t : Token) : Dev :=
  d.sendLane n k 4 [{ seq := 0, lane := 4, first := false, last := false, count := 1, payload := t.bytes }]

/-- The link of TRK_ROUTE toward a device, if it is valid. -/
def Dev.route (d : Dev) (dev : Nat) : Option Nat :=
  let r := d.rd (R.TRK_ROUTE + 4 * dev)
  if bit r 31 then some (fld r 0 3) else none

/-- A token of this device. -/
def Dev.mkToken (d : Dev) (kind ddev world step : Nat) : Token :=
  { kind := kind, sdev := d.device, ddev := ddev, world := world, flags := 0, step := step, round := 0, a := 0, b := 0,
    c := 0, d := 0 }

/-- Kinds of a step that are sent once, and so wait for the system to form: RELEASE, QUIET, DONE, ABANDON, FAULT and MOD. -/
def keptToken (kind : Nat) : Bool := [6, 9, 10, 11, 12, 13].contains kind

/-- Send a token toward its device: nothing of a step goes out before the system is FORMED (R411). -/
def Dev.sendToken (d : Dev) (n : Nv) (t : Token) : Dev :=
  let later := if keptToken t.kind then { d with sys := { d.sys with waitT := d.sys.waitT ++ [t] } } else d
  match d.route t.ddev with
  | some k => if d.formed && d.trunkHeld n k then d.tokenOn n k t else later
  | none => later

/-- The system has formed: the tokens that waited go out, in their order. -/
def Dev.sendWaiting (d : Dev) (n : Nv) : Dev :=
  d.sys.waitT.foldl (fun d t => d.sendToken n t) { d with sys := { d.sys with waitT := [] } }

/-- The members of world `w` (R398). -/
def Dev.memberMask (d : Dev) (w : Nat) : BitVec 64 := word64 (d.rd (R.TRK_SW + 8 * w + 4)) (d.rd (R.TRK_SW + 8 * w))

/-- World `w` is a system world on this device (R398). -/
def Dev.sysWorld (d : Dev) (w : Nat) : Bool :=
  let m := d.memberMask w
  m.getLsbD d.device && m != (1#64 <<< d.device)

/-- The other members of a system world. -/
def Dev.otherMembers (d : Dev) (w : Nat) : List Nat :=
  (List.range 64).filter (fun i => (d.memberMask w).getLsbD i && i != d.device)

/-- Send a token of a kind to every other member of a world. -/
def Dev.toMembers (d : Dev) (n : Nv) (w : Nat) (f : Token → Token) (kind step : Nat) : Dev :=
  (d.otherMembers w).foldl (fun d m => d.sendToken n (f (d.mkToken kind m w step))) d

end Sys2Proof.Machine
end

