-- ==== Sys2Proof/Machine/Express.lean ====
section
/-! DEFINITION. The Express network (chapter 7): Junction tables and routing, buffers and credits, local delivery, spike
recording (R176), edge routers and edge tables. -/

namespace Sys2Proof.Machine

/-! ### Counters -/

/-- Count in an Express counter of a station, with its bit of STN_XP_OVF (R170). -/
def Dev.xp (d : Dev) (p off bitNo : Nat) : Dev := d.sCount p off 1 R.STN_XP_OVF bitNo (some 3)
def Dev.xpUnrouted (d : Dev) (p : Nat) : Dev := d.xp p R.STN_XP_UNROUTED 1
/-- Count in an edge counter of the Interchange, with its bit of XCH_EDGE_OVF (R171). -/
def Dev.edgeCount (d : Dev) (reg bitNo : Nat) : Dev := d.count reg 1 R.XCH_EDGE_OVF bitNo
def Dev.edgeUnrouted (d : Dev) : Dev := d.edgeCount R.XCH_EDGE_UNROUTED 4

/-- Interchange credit counters of a world (R133). -/
def Dev.xchCreated (d : Dev) (w b k : Nat) : Dev :=
  d.updWld w (fun x => { x with created := x.created.set zeroNat b (satAdd 32 (x.created.get zeroNat b) k) })
def Dev.xchConsumed (d : Dev) (w b k : Nat) : Dev :=
  d.updWld w (fun x => { x with consumed := x.consumed.set zeroNat b (satAdd 32 (x.consumed.get zeroNat b) k) })
/-- Add one to LOST of both banks of every live world (R134, R169). -/
def Dev.xchLostAll (d : Dev) : Dev :=
  d.liveIds.foldl (fun d w =>
    if (d.wld w).live then
      d.updWld w (fun x => { x with lost := ((x.lost.set zeroNat 0 (satAdd 32 (x.lost.get zeroNat 0) 1)).set zeroNat 1
        (satAdd 32 (x.lost.get zeroNat 1) 1)) })
    else d) d

/-- Decoder sampling traffic on VC3 counts in no credit counter (R133). -/
def Copy.counted (c : Copy) : Bool := c.vc != 3
def Copy.bank (c : Copy) : Nat := c.tag.toNat % 2

/-- Credits of a copy at a station that serves its world in slot `m`. -/
def Dev.cCreated (d : Dev) (p m : Nat) (c : Copy) (k : Nat) : Dev := if c.counted && k != 0 then d.created p m c.bank k else d
def Dev.cConsumed (d : Dev) (p m : Nat) (c : Copy) : Dev := if c.counted then d.consumed p m c.bank 1 else d
/-- Credits of a copy at the Interchange. -/
def Dev.iConsumed (d : Dev) (c : Copy) : Dev := if c.counted then d.xchConsumed c.world c.bank 1 else d
def Dev.iCreated (d : Dev) (c : Copy) (k : Nat) : Dev := if c.counted && k != 0 then d.xchCreated c.world c.bank k else d

/-! ### Buffers (R165) -/

def noCopies (_ : Nat) : List Copy := []
def Dev.buf (d : Dev) (p port vc : Nat) : List Copy := (d.stn p).bufs.get noCopies (4 * port + vc)
def Dev.setBuf (d : Dev) (p port vc : Nat) (l : List Copy) : Dev :=
  d.updStn p (fun s => { s with bufs := s.bufs.set noCopies (4 * port + vc) l })
def edgeKey (e q vc : Nat) : Nat := (64 * e + q) * 4 + vc
def Dev.ebuf (d : Dev) (e q vc : Nat) : List Copy := d.edgeBuf.get noCopies (edgeKey e q vc)
def Dev.setEbuf (d : Dev) (e q vc : Nat) (l : List Copy) : Dev := { d with edgeBuf := d.edgeBuf.set noCopies (edgeKey e q vc) l }

/-- Keep STN_XP_BUF: the peak occupancy of the five input buffers of a channel. -/
def Dev.bufPeak (d : Dev) (n : Nv) (p vc : Nat) : Dev :=
  if n.enabled p then
    let k := ((List.range 5).map (fun port => (d.buf p port vc).length)).sum
    d.updSW p R.STN_XP_BUF (fun w => setFld w (8 * vc) 5 (max k (fld w (8 * vc) 5)))
  else d

/-- Where an output port leads: an input port of another station, or a position of an edge router (0 west, 1 east, 2 north,
3 south). -/
inductive Place1 where
  | stn (p port : Nat)
  | edge (e q : Nat)
deriving DecidableEq, Repr

def outPlace (p : Nat) : Port → Place1
  | .n => if p / 48 = 0 then .edge 2 (p % 48) else .stn (p - 48) 2
  | .s => if p / 48 = 47 then .edge 3 (p % 48) else .stn (p + 48) 0
  | .e => if p % 48 = 47 then .edge 1 (p / 48) else .stn (p + 1) 3
  | .w => if p % 48 = 0 then .edge 0 (p / 48) else .stn (p - 1) 1
  | .l => .stn p 4

def Dev.room (d : Dev) (q : Place1) (vc : Nat) : Bool :=
  match q with
  | .stn p port => decide ((d.buf p port vc).length < 4)
  | .edge e r => decide ((d.ebuf e r vc).length < 8)

/-- FLITS_OVF and FULL_OVF of a position, as XCH_EDGE_OVF shows them to a master that has selected it (Table 7-12). -/
def Dev.edgeOvf (d : Dev) (pos : Nat) : Nat := d.edgeCnt.get zeroNat (pos * 4 + 3)
def Dev.setEdgeOvf (d : Dev) (pos v : Nat) : Dev := { d with edgeCnt := d.edgeCnt.set zeroNat (pos * 4 + 3) v }

/-- Count at a position of the west or east edge router (R171): kind 0 FLITS, 1 FULL, each with its overflow bit. -/
def Dev.edgePos (d : Dev) (e q kind : Nat) : Dev :=
  if e < 2 then
    let key := (64 * e + q) * 4 + kind
    let c := d.edgeCnt.get zeroNat key
    let d := { d with edgeCnt := d.edgeCnt.set zeroNat key (satAdd 32 c 1) }
    if satHits 32 c 1 then d.setEdgeOvf (64 * e + q) (d.edgeOvf (64 * e + q) ||| 2 ^ kind) else d
  else d

/-- Keep the peak occupancy of an edge position. -/
def Dev.edgePeak (d : Dev) (e q : Nat) : Dev :=
  if e < 2 then
    let key := (64 * e + q) * 4 + 2
    let k := ((List.range 4).map (fun vc => (d.ebuf e q vc).length)).sum
    { d with edgeCnt := d.edgeCnt.set zeroNat key (max k (d.edgeCnt.get zeroNat key)) }
  else d

/-- Put a copy into an input buffer that has room. -/
def Dev.put (d : Dev) (n : Nv) (q : Place1) (c : Copy) : Dev :=
  let c := { c with left := none }
  match q with
  | .stn p port => (d.setBuf p port c.vc (d.buf p port c.vc ++ [c])).bufPeak n p c.vc
  | .edge e r => ((d.setEbuf e r c.vc (d.ebuf e r c.vc ++ [c])).edgePos e r 0).edgePeak e r

/-! ### Junction entries (R154, R155) -/

def jOff (j : Nat) : Nat := 0x68000 + 16 * j

/-- A Junction or edge entry as a match sees it. -/
structure Match where
  valid : Bool
  key : Word
  mask : Word
  mod : Bool
deriving DecidableEq, Repr

def Match.hits (e : Match) (key : Word) (mod : Bool) : Bool :=
  e.valid && (key &&& e.mask) == (e.key &&& e.mask) && e.mod == mod

def Dev.jMatch (d : Dev) (p j : Nat) : Match :=
  let w := d.sW p (jOff j + 8)
  { valid := bit w 31, key := d.sW p (jOff j), mask := d.sW p (jOff j + 4), mod := bit w 29 }

/-- The valid entry of lowest index that matches, among DEF entries or the others: a valid one has a nonzero word 0x8. -/
def Dev.jFind (d : Dev) (p : Nat) (c : Copy) (dflt : Bool) : Option Nat :=
  (d.listed p 0x68008 0x6C008 16).find? (fun j => bit (d.sW p (jOff j + 8)) 30 == dflt && (d.jMatch p j).hits c.key c.isMod)

/-- The ports of a PORTS field. -/
def portsOf (w : Word) : List Port :=
  (if bit w 24 then [Port.n] else []) ++ (if bit w 25 then [Port.e] else []) ++ (if bit w 26 then [Port.s] else [])
    ++ (if bit w 27 then [Port.w] else []) ++ (if bit w 28 then [Port.l] else [])

def portOf (k : Nat) : Port := match k with | 0 => .n | 1 => .e | 2 => .s | _ => .w

/-- How a Junction routes a copy (R155, R159): by an entry, by a fall-back port, or to consumption. -/
inductive Routing where
  | entry (j : Nat) (dflt : Bool)
  | fallback (q : Port)
  | consume
deriving DecidableEq, Repr

def Dev.routing (d : Dev) (p : Nat) (c : Copy) : Routing :=
  match d.jFind p c false with
  | some j => .entry j false
  | none =>
    if c.fb then .consume
    else match d.jFind p c true with
      | some j => .entry j true
      | none =>
        let mask := d.sW p R.STN_SEC_KEY_MASK
        if mask ≠ 0 ∧ c.key &&& mask = d.sW p R.STN_SEC_KEY_BASE &&& mask then .consume
        else
          let def_ := d.sW p R.STN_SEC_DEF
          if bit def_ 31 then .fallback (portOf (fld def_ 0 3)) else .fallback .w

/-- The output set without the arrival port (R156); a local emission arrives on no compass port. -/
def dropArrival (a : Port) (l : List Port) : List Port := if a = .l then l else l.filter (· != a)

/-- Look a copy up: its route, with the directory index for the local port (R84), and the counts of a DEF entry or of a
fall-back. -/
def Dev.lookup (d : Dev) (p : Nat) (a : Port) (c : Copy) : Route × Dev :=
  match d.routing p c with
  | .entry j dflt =>
    let w := d.sW p (jOff j + 8)
    let dir := fld w 0 15 + fld (c.key &&& ~~~(d.sW p (jOff j + 4))) 0 12
    ({ ports := dropArrival a (portsOf w), held := [], entry := some j, dir := dir }, if dflt then d.xp p R.STN_XP_DEF 2 else d)
  | .fallback q =>
    let l := dropArrival a [q]
    ({ ports := l, held := [], entry := none, dir := 0 }, if l = [] then d else d.xp p R.STN_XP_FALLBACK 3)
  | .consume => ({ ports := [], held := [], entry := none, dir := 0 }, d)

/-! ### Consumption and loss (R133, R134, R169) -/

/-- A notice to the Interchange. -/
def Dev.notice (d : Dev) (x : Option (Nat × Nat)) : Dev := { d with notices := d.notices ++ [x] }

/-- A station consumes a copy: in its own credits if it serves the world, else by notice. -/
def Dev.consumeAt (d : Dev) (p : Nat) (c : Copy) : Dev :=
  match d.slotOf p c.world with
  | some m => d.cConsumed p m c
  | none => if c.counted then d.notice (some (c.world, c.bank)) else d

/-- A copy whose CHECK fails at mesh position `p` (R169). -/
def Dev.checkFail (d : Dev) (n : Nv) (p : Nat) (c : Copy) : Dev :=
  let d := d.notice none
  if !n.enabled p then d
  else
    let d := (d.xp p R.STN_XP_CHK_FAIL 0).stnIrq p 3
    let d := match d.slotOf p c.world with
      | some m => d.cConsumed p m c
      | none => d
    (List.range 16).foldl (fun d m =>
      if (d.slotWorld p m).isSome then
        (d.setLost p m 0 (satAdd 32 (d.lostOf p m 0) 1)).setLost p m 1 (satAdd 32 (d.lostOf p m 1) 1)
      else d) d

/-! ### Spike recording (R176) -/

/-- The collector entry of lowest index that matches a copy. -/
def Dev.collector (d : Dev) (p : Nat) (c : Copy) : Option Word :=
  ((List.range 16).map (fun k => d.sW p (R.STN_STR_COLL + 4 * k))).find? (fun e =>
    let b := fld c.key 6 6
    bit e 31 && d.slotWorld p (fld e 26 4) == some c.world && fld e 18 8 == fld c.key 12 8
      && decide (fld e 12 6 ≤ b ∧ b ≤ fld e 12 6 + fld e 6 6))

/-- Count in a streaming counter of a station (R193): 0 PAGES, 1 BAD, 2 LATE, 3 NOBUF, 4 UNREC. -/
def Dev.strCount (d : Dev) (p k : Nat) : Dev :=
  let d := d.sCount p (R.STN_STR_PAGES + 4 * k) 1 R.STN_STR_OVF k (some 4)
  if k = 1 then d.stnIrq p 4 else d

/-- Record a spike by a collector entry. -/
def Dev.record (d : Dev) (p : Nat) (e : Word) (c : Copy) : Dev :=
  let b := fld e 0 6 + fld c.key 6 6 - fld e 12 6
  if 63 < b then d.strCount p 4
  else
    let i := fld c.key 0 6
    d.updSW p (R.STN_STR_SPK + 4 * (2 * b + i / 32)) (· ||| w32 (2 ^ (i % 32)))

/-! ### Local delivery (R132, R153, R176) -/

/-- Deliver a copy at the local port, if the place it goes to has room; none while it has to wait. -/
def Dev.deliverLocal (d : Dev) (p : Nat) (c : Copy) (dir : Nat) : Option Dev :=
  match d.slotOf p c.world with
  | none => some ((d.xpUnrouted p).consumeAt p c)
  | some m =>
    if c.stepTag ≠ d.slotStep p m % 4 then some ((d.lateDrop p m 1).cConsumed p m c)
    else if c.isMod then some (d.updStn p (fun s => { s with mods := s.mods ++ [c] }))
    else if c.vc ≠ 1 ∧ c.vc ≠ 2 then some ((d.xpUnrouted p).cConsumed p m c)
    else
      match d.collector p c with
      | some e =>
        if bit e 30 then
          if d.arbRoom p then some ((d.record p e c).arbPush p (.event c dir m)) else none
        else some ((d.record p e c).cConsumed p m c)
      | none => if d.arbRoom p then some (d.arbPush p (.event c dir m)) else none

/-! ### A Junction at work (R132, R155, R156, R165) -/

/-- What a station does with a good copy that it has not looked up: wait for the step it is tagged for, drop it, or route
it. -/
inductive Admit where
  | wait
  | drop (m : Nat)
  | route (m : Option Nat)
deriving DecidableEq, Repr

/-- Slot `m` has opened no step since GO: step 0 is still to come. -/
def Dev.unopened (d : Dev) (p m : Nat) : Bool :=
  !(d.stn p).opened.get noOcc m &&
    (match (d.stn p).release.get (fun _ => none) m with
     | some (t, _) => t == d.slotStep p m
     | none => true)

/-- The test of STEP_TAG (R132); a transit station does not examine it (R134).  Before the opening pass of step 0 the step
to come is step 0. -/
def Dev.admission (d : Dev) (p : Nat) (c : Copy) : Admit :=
  match d.slotOf p c.world with
  | none => .route none
  | some m =>
    let s := d.slotStep p m
    if d.unopened p m then (if c.stepTag = s % 4 then .wait else .drop m)
    else if c.stepTag = s % 4 ∨ c.stepTag = (s + 3) % 4 then .route (some m)
    else if c.stepTag = (s + 1) % 4 then .wait
    else .drop m

/-- The input to serve next in fixed round robin, from `start` on, among those that satisfy a test. -/
def nextInput (start : Nat) (f : Nat → Bool) : Option Nat := ((List.range 5).map (fun i => (start + i) % 5)).find? f

/-- Whether an output can take a copy now. -/
def Dev.takes (d : Dev) (p : Nat) (q : Port) (c : Copy) (dir : Nat) : Bool :=
  if q = .l then (d.deliverLocal p c dir).isSome else d.room (outPlace p q) c.vc

/-- The input holds a copy of a channel at its head that has been routed to output `q`, which can take it. -/
def Dev.claims (d : Dev) (p : Nat) (q : Port) (vc i : Nat) : Bool :=
  match d.buf p i vc with
  | c :: _ => (match c.left with
    | some r => r.ports.contains q && d.takes p q c r.dir
    | none => false)
  | [] => false

/-- Whether output `q` takes a copy from input `i`: it can, no lower channel waits for it, and within the channel the round
robin over N, E, S, W and local has come to that input (R22, R165). -/
def Dev.wins (d : Dev) (p : Nat) (q : Port) (i : Nat) (c : Copy) (dir : Nat) : Bool :=
  d.takes p q c dir
    && !(List.range c.vc).any (fun v => (List.range 5).any (d.claims p q v))
    && nextInput ((d.stn p).served.get zeroNat (4 * q.idx + c.vc)) (fun k => k == i || d.claims p q c.vc k) == some i

/-- Output `q` has served an input on a channel. -/
def Dev.markServed (d : Dev) (p : Nat) (q : Port) (vc i : Nat) : Dev :=
  d.updStn p (fun s => { s with served := s.served.set zeroNat (4 * q.idx + vc) ((i + 1) % 5) })

/-- Send the copy at the head of input `i` to the ports of its route that take it; `r` keeps the others. -/
def Dev.sendPorts (d : Dev) (n : Nv) (p i : Nat) (c : Copy) (r : Route) : List Port → Dev × List Port
  | [] => (d, [])
  | q :: qs =>
    let sent : Option Dev :=
      if !d.wins p q i c r.dir then none
      else if q = .l then d.deliverLocal p c r.dir
      else some (d.put n (outPlace p q) c)
    match sent with
    | some d =>
      let d := d.markServed p q c.vc i
      let d := if n.enabled p ∧ ¬ c.thru then
          let d := d.xp p (R.STN_XP_OUT + 4 * q.idx) 4
          match r.entry with
          | some j => d.updSW p (jOff j + 12) (fun w => w32 (satAdd 32 w.toNat 1))
          | none => d
        else d
      d.sendPorts n p i c r qs
    | none =>
      let (d, l) := d.sendPorts n p i c r qs
      (d, q :: l)

/-- Count the edge positions whose full buffer holds a copy of this station back, each once (R171). -/
def Dev.countFull (d : Dev) (p : Nat) (c : Copy) (r : Route) : Dev × Route :=
  r.ports.foldl (fun (x : Dev × Route) q => match outPlace p q with
    | .edge e y =>
      if x.1.room (.edge e y) c.vc || x.2.held.contains q then x
      else (x.1.edgePos e y 1, { x.2 with held := x.2.held ++ [q] })
    | _ => x) (d, r)

/-- Serve the copy at the head of a buffer by its route: what remains stays at the head (R165). -/
def Dev.serve (d : Dev) (n : Nv) (p : Nat) (port : Port) (c : Copy) (r : Route) : Dev :=
  let tail := (d.buf p port.idx c.vc).tail
  let (d, r) := d.countFull p c r
  let (d, l) := d.sendPorts n p port.idx c r r.ports
  if l = [] then d.setBuf p port.idx c.vc tail
  else d.setBuf p port.idx c.vc ({ c with left := some { r with ports := l } } :: tail)

/-- The port opposite an arrival port (R14). -/
def oppositeOf : Port → Port
  | .n => .s | .s => .n | .e => .w | .w => .e | .l => .l

/-- A Junction's first treatment of a copy that has passed CHECK. -/
def Dev.firstLook (d : Dev) (n : Nv) (p : Nat) (port : Port) (c : Copy) : Dev :=
  let pop := fun (d : Dev) => d.setBuf p port.idx c.vc (d.buf p port.idx c.vc).tail
  let go := fun (d : Dev) (r : Route) => d.serve n p port c r
  if !n.enabled p then go d { ports := [oppositeOf port], held := [], entry := none, dir := 0 }
  else if c.thru then go d { ports := [.e], held := [], entry := none, dir := 0 }
  else match d.admission p c with
    | .wait => d
    | .drop m => (pop d).lateDrop p m 1 |>.cConsumed p m c
    | .route m =>
      let (r, d) := d.lookup p port c
      if r.ports = [] then ((pop d).xpUnrouted p).consumeAt p c
      else
        let d := match m with
          | some m => d.cCreated p m c (r.ports.length - 1)
          | none => d
        go d r

/-- A copy with the bits that its link flipped (R152). -/
def Copy.hit (c : Copy) (err : LinkError) : Copy :=
  { c with word := c.word ^^^ err.setWidth 64, tag := c.tag ^^^ (err >>> 64).setWidth 8 }

/-- JUNCTION_ARRIVAL: the copy at the head of an input buffer. -/
def Dev.junction (d : Dev) (n : Nv) (p : Nat) (port : Port) (vc : Nat) (err : LinkError) : Dev :=
  match d.buf p port.idx vc with
  | [] => d
  | c :: rest =>
    match c.left with
    | some r => d.serve n p port c r
    | none =>
      let c := c.hit err
      if !c.good then (d.setBuf p port.idx vc rest).checkFail n p c
      else d.firstLook n p port c

/-! ### Copies received from trunk links (R403) -/

/-- The row at which a received copy enters: key[19:12] mod the GRID_H of the live plan. -/
def Dev.gridH (d : Dev) (n : Nv) : Nat := match d.tpl.plan with | some q => q.gridH | none => n.gridH

/-- Move copies received on link `k` into the E inputs at the east edge while there is room; the last of a link unit
frees its place in the receive buffer. -/
def Dev.injectX (d : Dev) (n : Nv) (k : Nat) : Nat → Dev
  | 0 => d
  | fuel + 1 =>
    match (d.trunk k).inX with
    | [] => d
    | (c, last) :: rest =>
      let y := fld c.key 12 8 % max 1 (d.gridH n)
      let q := Place1.stn (posOf 47 y) 1
      if d.room q c.vc then
        let d := (d.put n q c).edgePos 1 y 0
        let d := d.updTrunk k (fun x =>
          { x with inX := rest, freed := x.freed.set zeroNat 0 (x.freed.get zeroNat 0 + if last then 1 else 0) })
        d.injectX n k fuel
      else d

def Dev.injectAllX (d : Dev) (n : Nv) : Dev :=
  (List.range 8).foldl (fun d k => d.injectX n k (d.trunk k).inX.length) d

/-! ### Edge tables (R161 to R164) -/

/-- Word `i` of edge entry `e` of table `j`. -/
def Dev.edgeW (d : Dev) (j e i : Nat) : Word := d.edgeTab.get (fun _ => (0 : Word)) ((32768 * j + e) * 4 + i)
def Dev.setEdgeW (d : Dev) (j e i : Nat) (v : Word) : Dev :=
  { d with edgeTab := d.edgeTab.set (fun _ => (0 : Word)) ((32768 * j + e) * 4 + i) v }

def Dev.edgeMatch (d : Dev) (j e : Nat) : Match :=
  let w := d.edgeW j e 3
  { valid := bit w 31, key := d.edgeW j e 0, mask := d.edgeW j e 1, mod := bit w 30 }

/-- The entries of table `j` that are not all zero, ascending: no other is valid. -/
def Dev.edgeEntries (d : Dev) (j : Nat) : List Nat :=
  (d.edgeTab.filter (fun q => q.1 / 4 / 32768 == j && q.1 % 4 == 3)).map (fun q => q.1 / 4 % 32768)

/-- The valid edge entry of lowest index that matches. -/
def Dev.edgeFind (d : Dev) (c : Copy) : Option Nat :=
  let j := fld c.key 20 2
  (d.edgeEntries j).find? (fun e => (d.edgeMatch j e).hits c.key c.isMod)

/-- What an edge lookup makes of a copy: rows of re-injected copies, a decoder, a trunk link with its row, and whether an
output was taken away (R404). -/
structure EdgeOut where
  rows : List Nat
  dec : Option Nat
  tk : Option (Nat × Nat)
  refused : Bool
  miss : Bool
deriving DecidableEq, Repr

def Dev.edgeLookup (d : Dev) (n : Nv) (c : Copy) (row : Nat) (noTrunk : Bool) : EdgeOut :=
  match d.edgeFind c with
  | some e =>
    let j := fld c.key 20 2
    let w3 := d.edgeW j e 3
    let mask := (d.edgeW j e 2).toNat + fld w3 0 16 * 2 ^ 32
    let tk := bit w3 27
    let rows := onesBelow (min 48 (d.gridH n)) mask
    { rows := if bit w3 29 then rows else [],
      dec := if bit w3 28 then some (fld w3 16 8) else none,
      tk := if tk && !noTrunk then some (fld w3 24 3, rows.head?.getD 0) else none,
      refused := tk && noTrunk, miss := false }
  | none =>
    let f := d.rd R.XCH_EDGE_DEF
    { rows := [], dec := none, tk := if bit f 31 && !noTrunk then some (fld f 0 3, row) else none,
      refused := bit f 31 && noTrunk, miss := true }

/-- The W input of row `y`. -/
def westIn (y : Nat) : Place1 := .stn (posOf 0 y) 3

/-- A copy re-injected, with FB set, or sent to a trunk link, with THRU and TRK set too (R163, R164). -/
def Copy.reinject (c : Copy) : Copy := mkCopy c.word (c.stepTag + 4) c.vc
def Copy.toTrunk (c : Copy) (k : Nat) : Copy := mkCopy c.word (c.stepTag + 4 + 8 + 16 * k) c.vc

/-- Whether every place the outputs go to has room: two copies for one row need two places. -/
def Dev.edgeRoom (d : Dev) (o : EdgeOut) (vc : Nat) : Bool :=
  let ys := o.rows ++ (match o.tk with | some (_, y) => [y] | none => [])
  ys.all (fun y => decide ((d.buf (posOf 0 y) 3 vc).length + (ys.filter (· == y)).length ≤ 4))

/-- Carry out an edge lookup whose outputs have room (R163). -/
def Dev.edgeOutputs (d : Dev) (n : Nv) (c : Copy) (o : EdgeOut) : Dev :=
  let k := o.rows.length + (if o.dec.isSome then 1 else 0) + (if o.tk.isSome then 1 else 0)
  let d := if o.miss then d.edgeCount R.XCH_EDGE_MISS 2 else d
  let d := if o.refused || (!o.miss && k == 0) then d.edgeUnrouted else d
  if k = 0 then d.iConsumed c
  else
    let d := d.iCreated c (k - 1)
    let d := o.rows.foldl (fun d y => (d.put n (westIn y) c.reinject).edgePos 0 y 0) d
    let d := match o.tk with
      | some (t, y) => (d.put n (westIn y) (c.toTrunk t)).edgePos 0 y 0
      | none => d
    match o.dec with
    | some q => (d.decAccept q c).iConsumed c
    | none => d

/-- A copy discarded for CHECK at an edge router or the Interchange (R169). -/
def Dev.edgeCheckFail (d : Dev) : Dev := (d.edgeCount R.XCH_EDGE_CHK_FAIL 3).xchLostAll

/-- WEST_EDGE_ARRIVAL: the copy at the head of a west position. -/
def Dev.westArrival (d : Dev) (n : Nv) (row vc : Nat) (err : LinkError) : Dev :=
  match d.ebuf 0 row vc with
  | [] => d
  | c :: rest =>
    let c := c.hit err
    let pop := d.setEbuf 0 row vc rest
    if !c.good then pop.edgeCheckFail
    else
      let o := d.edgeLookup n c row c.fb
      if d.edgeRoom o c.vc then pop.edgeOutputs n c o else d

/-- OFF_GRID_ARRIVAL: a copy at the north, south or east edge that has no destination there (R160). -/
def Dev.offGrid (d : Dev) (e q vc : Nat) (err : LinkError) : Dev :=
  match d.ebuf e q vc with
  | [] => d
  | c :: rest =>
    let c := c.hit err
    let pop := d.setEbuf e q vc rest
    if !c.good then pop.edgeCheckFail
    else if e = 1 ∧ c.thru then d
    else (pop.edgeUnrouted).iConsumed c

/-- EAST_EDGE_THRU: a THRU copy at the east edge goes to its trunk link, or is consumed (R164).  The endpoint of a link that is
up takes the copy, and finds its CHECK wrong (R403); elsewhere the edge router does (R169). -/
def Dev.eastThru (d : Dev) (n : Nv) (row vc : Nat) (err : LinkError) : Dev :=
  match d.ebuf 1 row vc with
  | [] => d
  | c :: rest =>
    let c := c.hit err
    let pop := d.setEbuf 1 row vc rest
    if !c.good then if c.thru && d.trunkUp n c.trk then (pop.trkCount R.TRK_CHK_FAIL c.trk 1).xchLostAll else pop.edgeCheckFail
    else if !c.thru then d
    else if d.trunkUp n c.trk then pop.sendX n c.trk c
    else (pop.edgeUnrouted).iConsumed c

/-! ### Writes to tables of a live world (R51, R54) -/

/-- A refused configuration write at a station, or at the Interchange: counted, and CFG_REFUSED set. -/
def Dev.refuseCfg (d : Dev) (p : Option Nat) : Dev :=
  let d := match p with
    | some p => d.updSW p stnCfgRefused (fun c => w32 (satAdd 32 c.toNat 1))
    | none => d
  (d.count0 R.TPL_COLLIDE_CNT 1).orBits R.TPL_STATUS (2 ^ 20)

/-- A match of the world field alone (R51). -/
def Match.admits (e : Match) (w : Nat) : Bool :=
  e.valid && ((w32 (w * 2 ^ 20) ^^^ e.key) &&& e.mask &&& 0xFFF00000#32) == 0

/-- Whether a live world that is not held stands in the way of a change between two entries. -/
def Dev.collides (d : Dev) (a b : Match) : Bool :=
  d.worldIds.any (fun w => d.active w && (a.admits w || b.admits w))

/-- The worlds of the plan that is loaded or live. -/
def Dev.planWorlds (d : Dev) : List Nat := match d.tpl.plan with | some q => q.worlds.map (·.id) | none => []

/-- A Junction entry of an enabled station that admits a world of the plan which the station does not serve must name
exactly one compass port and not the local port (R134). -/
def Dev.badTransit (d : Dev) (p : Nat) (e : Match) (w8 : Word) : Bool :=
  let one := (portsOf w8).length == 1 && !(portsOf w8).contains .l
  e.valid && !one && d.planWorlds.any (fun w => e.admits w && (d.slotOf p w).isNone)

end Sys2Proof.Machine
end

