-- ==== Sys2Proof/Machine/TokenOps.lean ====
section
/-! DEFINITION. The Token Office (R343 to R346): requests, fit, grants and refusals, as operations that the requesters use. -/

namespace Sys2Proof.Machine

/-- Class of a requester (Table 16-6). -/
def tokClass (q : Nat) : Nat :=
  if q < 12 then 0 else if q < 17 then 1 else if q = 17 then 2 else if q = 18 then 3 else if q = 19 then 4
  else if q = 20 then 5 else 6

abbrev rqQnt : Nat := 12
def rqPrj (u : Nat) : Nat := 13 + u
abbrev rqXch : Nat := 17
abbrev rqLoader : Nat := 18
abbrev rqTrain : Nat := 19
abbrev rqMarch : Nat := 20
abbrev rqAvs : Nat := 21

/-- Cost of a request on rail `r`: 0 VDD_FAB, 1 VDD_CORE, 2 VDD_SRAM, 3 VDDQ_GD. -/
def TokReq.on (q : TokReq) (r : Nat) : Nat := fld q.cost (24 - 8 * r) 8

/-- THROTTLE (R351). -/
def Dev.throttled (d : Dev) : Bool := bit (d.rd R.PWR_THERM_STATE) 31 && bit (d.rd R.PWR_THERM_CFG) 31

/-- V_r and the budget B_r, scaled while THROTTLE is set (R351). -/
def Dev.reserve (d : Dev) (r : Nat) : Nat := d.f (R.PWR_TOK_RESV + 4 * r) 0 16
def Dev.budget (d : Dev) (r : Nat) : Nat :=
  let b := d.f (R.PWR_TOK_BUDGET + 4 * r) 0 16
  let v := d.reserve r
  if d.throttled then ((v : Int) + Int.fdiv (((b : Int) - v) * (d.f R.PWR_THERM_CFG 16 7 : Nat)) 100).toNat else b

/-- U_r and N_r. -/
def Dev.inUse (d : Dev) (r : Nat) : Nat := (d.tok.grants.map (·.on r)).sum
def Dev.inUseOther (d : Dev) (r : Nat) : Nat := ((d.tok.grants.filter (fun q => q.cls != 0)).map (·.on r)).sum

/-- A request fits (R344). -/
def Dev.tokFits (d : Dev) (q : TokReq) : Bool :=
  (List.range 4).all (fun r => decide (d.inUse r + q.on r ≤ d.budget r) &&
    (q.cls == 0 || decide (d.inUseOther r + q.on r + d.reserve r ≤ d.budget r)))

/-- A request is refused at once (R345). -/
def Dev.tokHopeless (d : Dev) (q : TokReq) : Bool :=
  (List.range 4).any (fun r => decide (d.budget r < q.on r) || (q.cls != 0 && decide (d.budget r < q.on r + d.reserve r)))

/-- Keep PWR_TOK_USE: U_r and its peak. -/
def Dev.tokUse (d : Dev) : Dev :=
  (List.range 4).foldl (fun d r =>
    d.upd (R.PWR_TOK_USE + 4 * r) (fun w => setFld (setFld w 0 16 (d.inUse r)) 16 16 (max (d.inUse r) (fld w 16 16)))) d

/-- Count a refusal of a class and raise source 100. -/
def Dev.tokRefuse (d : Dev) (k : Nat) : Dev := (d.count0 (R.PWR_TOK_REFUSED + 4 * k) 1).irq1 100

/-- A requester asks for a grant; false when it is refused at once. -/
def Dev.tokAsk (d : Dev) (q : Nat) : Dev × Bool :=
  if d.tok.queue.any (fun x => x.req == q) || d.tok.grants.any (fun x => x.req == q) then (d, true)
  else
    let k := tokClass q
    let r : TokReq := { req := q, cls := k, cost := d.rd (R.PWR_TOK_COST + 4 * k), at_ := d.now }
    if d.tokHopeless r then (d.tokRefuse k, false)
    else ({ d with tok := { d.tok with queue := d.tok.queue ++ [r] } }, true)

/-- A holder returns its grant. -/
def Dev.tokReturn (d : Dev) (q : Nat) : Dev :=
  { d with tok := { d.tok with grants := d.tok.grants.filter (fun x => x.req != q) } }.tokUse

/-- A request leaves the queue. -/
def Dev.tokWithdraw (d : Dev) (q : Nat) : Dev :=
  { d with tok := { d.tok with queue := d.tok.queue.filter (fun x => x.req != q) } }

/-- A reset that stops a requester: its request and its grant are gone (R344). -/
def Dev.tokStop (d : Dev) (q : Nat) : Dev := (d.tokWithdraw q).tokReturn q

/-- The request that a grant chance serves: the fitting request of lowest priority number, in a class the earliest. -/
def Dev.tokPick (d : Dev) : Option TokReq :=
  (List.range 7).findSome? (fun k => d.tok.queue.find? (fun q => q.cls == k && d.tokFits q))

/-- Grant a request. -/
def Dev.tokGrant (d : Dev) (q : TokReq) : Dev :=
  let d := { d with tok := { queue := d.tok.queue.filter (fun x => x.req != q.req), grants := d.tok.grants ++ [q] } }
  let wait := min (d.now - q.at_) 0xFFFFFFFF
  (d.upd (R.PWR_TOK_WMAX + 4 * q.cls) (fun w => w32 (max w.toNat wait))).tokUse

end Sys2Proof.Machine
end

