-- ==== Sys2Proof/Machine/March.lean ====
section
/-! DEFINITION. The march test engine (R285 to R289): selections, conditions, runs and soft repair. -/

namespace Sys2Proof.Machine

/-! ### Groups (R20, R38) -/

/-- The plan that is live. -/
def Dev.livePlan (d : Dev) : Option Plan := if bit (d.rd R.TPL_STATUS) 24 then d.tpl.plan else none

/-- The enabled stations' mesh positions. -/
def Nv.positions (n : Nv) : List Nat := (List.range 2304).filter n.enabled

/-- The stations of a group as the windows of R20 see it; none for a group that no live plan defines. -/
def Dev.groupStations (d : Dev) (n : Nv) (g : Nat) : Option (List Nat) :=
  if g = 0 then some n.positions
  else d.livePlan.map (fun p => (onesBelow 2304 (p.groups.getD (g - 1) 0)).filterMap d.posOfRank)

/-! ### Contents of memories under test -/

/-- Store a word at a station offset, memory or table. -/
def Dev.putStation (d : Dev) (p off : Nat) (v : Word) : Dev := if off < 0x60000 then d.setSM p off v else d.setSW p off v

/-- A station's memories and tables read zero. -/
def Dev.stationZero (d : Dev) (p : Nat) : Dev :=
  { d with stnM := d.stnM.clear (skey p 0) (skey p 0x60000), stnW := d.stnW.clear (skey p 0x60000) (skey p 0x70000) }

/-- A free word at each of a list of places, by a store operation. -/
def Dev.freeAt (d : Dev) (places : List Nat) (put : Dev → Nat → Word → Dev) : Dev :=
  let c := d.freeCtr
  places.foldl (fun (d : Dev) a => put d a (Config.freeWord c a)) { d with freeCtr := c + 1 }

/-- Byte range of memory MEM of a station (Table 13-11). -/
def memRange (mem : Nat) : Nat × Nat :=
  [(0, 0x40000), (0x40000, 0x10000), (0x50000, 0xC000), (0x60000, 0x2000), (0x62000, 0x2000), (0x64000, 0x4000),
   (0x68000, 0x4000), (0x6C000, 0x100)].getD mem (0, 0)

/-- The word offsets of a range. -/
def wordsIn (r : Nat × Nat) : List Nat := (List.range (r.2 / 4)).map (fun i => r.1 + 4 * i)

/-- The bits of a table word that hold what is written; the others are reserved or read only. -/
def tableMask (off : Nat) : Nat :=
  if off < 0x62000 then
    match off % 32 / 4 with
    | 1 => 0xFFFF0FFF | 2 => 0x0F1F7FFF | 3 => 0xFFFF0FFF | _ => 0xFFFFFFFF
  else if off < 0x64000 then if off < 0x62800 then 0xFFFFFFFF else 0
  else if off < 0x64800 then
    match off % 32 / 4 with
    | 0 => 0xFFE0FFFF | 1 => 0xFFFFFFFF | 2 => 0xFFFFFFFF | 3 => 0xFFFFFFFF | _ => 0
  else if off < 0x68000 then if off < 0x66800 then 0xFFFFFFFF else 0
  else if off < 0x6C000 then
    match off % 16 / 4 with
    | 2 => 0xFF007FFF | 3 => 0 | _ => 0xFFFFFFFF
  else match regRow off with
    | some r => r.rw
    | none => 0

/-- The bits that a word of a station's memories and tables has (R9): read-only HITS, PEND and MOD_T with its PEND bits among
them; reserved bits read as zero whatever the memory held. -/
def storedMask (off : Nat) : Nat :=
  if off < 0x50000 then 0xFFFFFFFF
  else if off < 0x60000 then if off / 4 % 3 = 2 then 0x6FFFFFFF else 0xFFFFFFFF
  else if 0x68000 ≤ off ∧ off < 0x6C000 ∧ off % 16 = 12 then 0xFFFFFFFF
  else if 0x6C000 ≤ off ∧ off % 16 = 8 then 0x3FFFF
  else if 0x6C000 ≤ off ∧ off % 16 = 12 then 0xFFFFFFFF
  else tableMask off

/-- The contents of a station's memory are undefined. -/
def Dev.stationOpen (d : Dev) (p mem : Nat) : Dev :=
  d.freeAt (wordsIn (memRange mem)) (fun d a v => d.putStation p a (v &&& w32 (storedMask a)))

/-- The places of an edge table. -/
def edgeKeys (t : Nat) : List Nat := (List.range 131072).map (fun i => 131072 * t + i)
def zeroAt (_ : Nat) : Word := 0

/-- A unit's contents read zero. -/
def unitZero (target unit : Nat) (x : Mem × Dev) : Mem × Dev :=
  match target with
  | 2 => ({ x.1 with depot := x.1.depot.filter (fun q => depotBank q.1 != unit),
                     depotErr := x.1.depotErr.filter (fun q => depotBank (4 * q.1) != unit) }, x.2)
  | 3 => (x.1, { x.2 with edgeTab := x.2.edgeTab.clear (131072 * unit) (131072 * unit + 131072) })
  | _ => (x.1, x.2.stationZero unit)

/-- The contents of memory `mem` of a unit are undefined. -/
def memOpen (target unit mem : Nat) (x : Mem × Dev) : Mem × Dev :=
  match target with
  | 2 =>
    let c := x.2.freeCtr
    let words := (List.range 4194304).filter (fun i => depotBank (4 * i) == unit)
    (words.foldl (fun (m : Mem) i => m.depotPut (4 * i) (wordBytes (Config.freeWord c i))) x.1, { x.2 with freeCtr := c + 1 })
  | 3 => (x.1, x.2.freeAt (edgeKeys unit) (fun d k v => { d with edgeTab := d.edgeTab.set zeroAt k v }))
  | _ => (x.1, x.2.stationOpen unit mem)

/-- The contents of a whole unit are undefined. -/
def unitOpen (target unit : Nat) (x : Mem × Dev) : Mem × Dev :=
  if target = 2 ∨ target = 3 then memOpen target unit 0 x
  else (List.range 8).foldl (fun y mem => memOpen target unit mem y) x

/-! ### START and CANCEL (R286, R289) -/

def Dev.mbtState (d : Dev) : Nat := d.f R.MBT_STATUS 0 3
def Dev.setMbtState (d : Dev) (s : Nat) : Dev := d.setF R.MBT_STATUS 0 3 s

/-- The algorithm: 0 March C−, 1 transparent. -/
def Dev.mbtAlg (d : Dev) : Nat := if d.f R.MBT_CFG 30 2 = 1 then 1 else 0

/-- The units that MBT_SEL names: stations by mesh position, banks or tables; none for a selection that is invalid. -/
def Dev.mbtUnits (d : Dev) (n : Nv) : Option (List Nat) :=
  let sel := d.rd R.MBT_SEL
  let us := match d.f R.MBT_CFG 24 4 with
    | 0 => d.groupStations n (fld sel 0 8)
    | 1 => if d.rankHeld n (fld sel 0 12) then (d.posOfRank (fld sel 0 12)).map (fun p => [p]) else none
    | 2 => some (onesBelow 32 sel.toNat)
    | 3 => some (onesBelow 4 sel.toNat)
    | _ => none
  us.bind (fun l => if l = [] then none else some l)

/-- Every world that a station serves is held. -/
def Dev.stationHeld (d : Dev) (p : Nat) : Bool :=
  (List.range 16).all (fun m => match d.slotWorld p m with | some w => !d.active w | none => true)

/-- The condition of Table 13-10. -/
def Dev.mbtAllowed (d : Dev) (us : List Nat) : Bool :=
  let st := d.f R.TPL_STATUS 0 4
  match d.f R.MBT_CFG 24 4 with
  | 2 => true
  | 3 => st == 0 || (d.mbtAlg == 1 && st == 3)
  | _ => st == 0 || (d.mbtAlg == 1 && (st == 3 || (st == 6 && us.all d.stationHeld)))

/-- The run ends; a REASON other than 0 means that it ended without testing what was asked. -/
def Dev.mbtEnd (d : Dev) (reason : Nat) : Dev :=
  let d := ((d.setMbtState 0).setF R.MBT_STATUS 8 8 reason).orBits R.MBT_STATUS (2 ^ 17 + if reason = 0 then 0 else 2 ^ 18)
  { d.tokStop rqMarch with mbt := none }

/-- START. -/
def Dev.mbtBegin (d : Dev) (n : Nv) : Dev :=
  if d.mbtState ≠ 0 then d.orBits R.MBT_STATUS (2 ^ 19)
  else
    let d := (d.setF R.MBT_STATUS 8 8 0).andNot R.MBT_STATUS (2 ^ 16)
    match d.mbtUnits n with
    | none => d.mbtEnd 2
    | some us =>
      if !d.mbtAllowed us then d.mbtEnd 1
      else
        let d := { d.setMbtState 2 with mbt := some {
          target := d.f R.MBT_CFG 24 4, units := us, alg := d.mbtAlg, repair := d.mbtAlg = 0 ∧ bit (d.rd R.MBT_CFG) 28,
          began := d.now, stopping := false } }
        let (d, ok) := d.tokAsk rqMarch
        if ok then d else d.mbtEnd 3

/-- MBT_START (R289). -/
def execMbtStart (s : State) : Host.Outcome State Fault Refusal := onDev (fun n _ d => d.mbtBegin n) s

/-- The grant has come: the run begins. -/
def Dev.mbtGranted (d : Dev) : Dev :=
  match d.mbt with
  | some r => { d.setMbtState 3 with mbt := some { r with began := d.now } }
  | none => d

/-- Clear the results of an earlier run; the maps of failed stations and banks stay until a COLD or WARM reset (R290). -/
def Dev.mbtClear (d : Dev) : Dev := d.resetRegs R.MBT_FAIL_CNT R.MBT_FAIL_MAP

/-- The results of the run that ends: how long it lasted, and no failing instance yet. -/
def Dev.mbtResults (d : Dev) (r : MarchRun) : Dev := d.mbtClear.wr R.MBT_TIME (satWord ((d.now - r.began) / 100))

/-- CANCEL.  A run that it ends has ended without testing (Table 13-13), and shows no failing instance. -/
def mbtStop (x : Mem × Dev) : Mem × Dev :=
  match x.2.mbt with
  | none => x
  | some r =>
    if x.2.mbtState < 3 then (x.1, x.2.mbtEnd 4)
    else if r.alg = 1 then (x.1, { x.2 with mbt := some { r with stopping := true } })
    else
      let y := r.units.foldl (fun y u => unitOpen r.target u y) x
      (y.1, (y.2.mbtResults r).mbtEnd 4)

/-! ### The end of a run (R288) -/

/-- Where the soft repairs of a failing instance are counted; an instance of the synapse store is 0x4000 words. -/
def spareKey (target : Nat) (f : MarchFail) : Nat :=
  ((if target = 2 then 2304 + f.unit.toNat else if target = 3 then 2336 + f.unit.toNat else f.unit.toNat) * 16 + f.mem.toNat) * 64
    + f.word.toNat / 0x4000

/-- Try the soft repair of a failing instance: whether it is repaired. -/
def Dev.softRepair (d : Dev) (r : MarchRun) (f : MarchFail) : Bool × Dev :=
  let k := spareKey r.target f
  let used := d.spares.get zeroNat k
  if r.repair ∧ used + f.rows.toNat ≤ 4 then (f.rerunPasses, { d with spares := d.spares.set zeroNat k (used + f.rows.toNat) })
  else (false, d)

/-- A unit's place in the fail registers: a station by its rank. -/
def Dev.markFail (d : Dev) (target unit : Nat) : Dev :=
  match target with
  | 2 => d.orBits R.MBT_DPT_FAIL (2 ^ (unit % 32))
  | 3 => d
  | _ => d.orBits (R.MBT_FAIL_MAP + 4 * (unit / 32)) (2 ^ (unit % 32))

/-- One failing instance is counted, and repaired if it can be: whether it was. -/
def Dev.failNote (d : Dev) (r : MarchRun) (f : MarchFail) : Bool × Dev :=
  let d := if d.rd R.MBT_FAIL_CNT = 0 then
      d.wr R.MBT_FIRST (w32 (f.unit.toNat * 2 ^ 20 + f.mem.toNat * 2 ^ 16 + if r.alg = 1 then 0xFFFF else f.word.toNat))
    else d
  let (ok, d) := (d.count0 R.MBT_FAIL_CNT 1).softRepair r f
  (ok, if ok then d.count0 R.MBT_REP_CNT 1 else (d.count0 R.MBT_UNREP_CNT 1).orBits R.MBT_STATUS (2 ^ 16))

/-- One failing instance of a requested run.  The contents of a memory that fails ALG 1 are undefined; every word that ALG 0
tested reads zero at the end (R285). -/
def failTake (r : MarchRun) (x : Mem × Dev) (f : MarchFail) : Mem × Dev :=
  let (ok, d) := x.2.failNote r f
  if ok then (x.1, d)
  else
    let d := d.markFail r.target f.unit.toNat
    let u := if r.target < 2 then (d.posOfRank f.unit.toNat).getD 0 else f.unit.toNat
    if r.alg = 1 then memOpen r.target u f.mem.toNat (x.1, d) else (x.1, d)

/-- A run ends with the instances that failed, in the order found. -/
def mbtFinish (fails : List MarchFail) (x : Mem × Dev) : Mem × Dev :=
  match x.2.mbt with
  | none => x
  | some r =>
    if x.2.mbtState < 3 then x
    else
      let x := (x.1, x.2.mbtResults r)
      let x := if r.alg = 0 then r.units.foldl (fun y u => unitZero r.target u y) x else x
      let x := if r.stopping then x else fails.foldl (failTake r) x
      (x.1, x.2.mbtEnd (if r.stopping then 4 else 0))

end Sys2Proof.Machine
end

