-- ==== Sys2Proof/Machine/Clocks.lean ====
section
/-! DEFINITION. Clocks (chapter 16): source switches, the XCH ratio, the loss and return of clocks, and the monitors. -/

namespace Sys2Proof.Machine

/-! ### Events that leave the device -/

/-- Status bit `k` of PIN_BC_ALERT becomes set; SMB_ALERT_N falls for a newly set one (R435). -/
def Dev.alert (d : Dev) (k : Nat) : Dev :=
  if bit (d.rd R.PIN_BC_ALERT) k then d
  else { d.orBits R.PIN_BC_ALERT (2 ^ k) with araDone := false }

/-- Set an EVT bit of CLK_STATUS and raise the clock monitor source. -/
def Dev.clkEvent (d : Dev) (k : Nat) : Dev := (d.orBits R.CLK_STATUS (2 ^ k)).irq1 102

/-! ### Switches (R332) -/

def clkSel (i : Nat) : Nat := R.CLK_SEL + 4 * i

/-- Switches that a clock has left: a stopped clock makes them hang, even if it returns (R332). -/
def Dev.clkStops (d : Dev) : Dev :=
  (List.range 4).foldl (fun (d : Dev) i =>
    if bit (d.rd (clkSel i)) 31 && !d.switchFed i then
      { d with switches := d.switches.set noSwitch i ((d.switches.get noSwitch i).1, true) }
    else d) d

/-- A write of SEL; PENDING makes it void. -/
def Dev.clkSwitch (d : Dev) (i : Nat) (v : Word) : Dev :=
  if bit (d.rd (clkSel i)) 31 then d
  else
    let old := d.f (clkSel i) 0 1
    ({ d with switches := d.switches.set noSwitch i (old, false) }.upd (clkSel i)
      (fun w => setBit (setFld w 0 1 (fld v 0 1)) 31 true)).clkStops

def execClkSwitch (i : Fin 4) (v : Word) (s : State) : Host.Outcome State Fault Refusal := onDev (fun _ _ d => d.clkSwitch i v) s

/-- The new clock drives the island: both clocks of the switch have run, and it has not hung. -/
def Dev.clkSwitched (d : Dev) (i : Nat) : Dev :=
  let w := d.rd (clkSel i)
  if bit w 31 && !bit w 30 && !(d.switches.get noSwitch i).2 && d.switchFed i then d.wr (clkSel i) (setBit w 31 false)
  else d

def execClkSwitchComplete (i : Fin 4) (s : State) : Host.Outcome State Fault Refusal := onDev (fun _ _ d => d.clkSwitched i) s

/-- A switch not complete within 10 µs. -/
def Dev.clkHang (d : Dev) (i : Nat) : Dev :=
  let w := d.rd (clkSel i)
  if bit w 31 && !bit w 30 then (d.wr (clkSel i) (setBit w 30 true)).clkEvent 29 else d

/-- The sequencer's own switch of an island, for stages 2 and 4: both sources are confirmed in CLK_MON first (R330). -/
def Dev.clkConfirmed (d : Dev) (i : Nat) : Bool := bit (d.rd R.CLK_MON) (clkSource i 0) && bit (d.rd R.CLK_MON) (clkSource i 1)
def Dev.clkSequence (d : Dev) (i : Nat) : Dev := if d.clkConfirmed i then d.setF (clkSel i) 0 1 1 else d

/-- A switch of the sequencer that hangs (R332). -/
def Dev.clkSequenceHang (d : Dev) (i : Nat) : Dev :=
  (d.upd (clkSel i) (fun w => setFld (setFld w 0 1 1) 30 2 3)).clkEvent 29

def execClkSwitchHang (i : Fin 4) (s : State) : Host.Outcome State Fault Refusal := onDev (fun _ _ d => d.clkHang i) s

/-! ### The XCH ratio (R334) -/

/-- A FLOOR as it acts: 0 as 1, and no more than the greatest ratio. -/
def floorOf (f : Nat) : Nat := min 8 (max 1 f)
def Dev.xchRatio (d : Dev) : Nat := d.f R.CLK_XCH 16 4
def Dev.xchFloor (d : Dev) : Nat := floorOf (d.f R.CLK_XCH 0 4)
/-- A class 1 grant is held. -/
def Dev.projHeld (d : Dev) : Bool := d.tok.grants.any (fun q => q.cls == 1)
def Dev.xchTarget (d : Dev) : Nat := if d.projHeld then 8 else d.xchFloor

/-- Ask for the grant that a raised FLOOR needs; one held for an earlier ramp is returned first. -/
def Dev.xchAsk (d : Dev) : Dev :=
  if d.tok.grants.any (fun q => q.req == rqXch) then d
  else
    let (d, ok) := d.tokAsk rqXch
    if ok then d else { d.orBits R.CLK_XCH (2 ^ 31) with xchWant := none }

/-- A write of CLK_XCH. -/
def Dev.xchWrite (d : Dev) (v : Word) : Dev :=
  let f := fld v 0 4
  let d := if bit v 31 then d.andNot R.CLK_XCH (2 ^ 31) else d
  if d.xchRatio < floorOf f ∧ d.xchFloor < floorOf f then { d with xchWant := some f }.xchAsk
  else { (d.setF R.CLK_XCH 0 4 f).tokWithdraw rqXch with xchWant := none }

def execXchFloorWrite (v : Word) (s : State) : Host.Outcome State Fault Refusal := onDev (fun _ _ d => d.xchWrite v) s

/-- The ramp has ended: its grant goes back, and a FLOOR that waited asks for its own. -/
def Dev.xchRamped (d : Dev) : Dev :=
  if d.tok.grants.any (fun q => q.req == rqXch) ∧ d.xchFloor ≤ d.xchRatio then
    let d := d.tokReturn rqXch
    if d.xchWant.isSome then d.xchAsk else d
  else d

/-- The grant of a ramp: the new FLOOR takes effect. -/
def Dev.xchGranted (d : Dev) : Dev :=
  let d := match d.xchWant with
    | some f => { d.setF R.CLK_XCH 0 4 f with xchWant := none }
    | none => d
  d.xchRamped

/-- One unit toward the target. -/
def Dev.xchStep (d : Dev) : Dev :=
  if d.pwrState ≠ 0 ∨ !d.islandRuns 4 then d
  else
    let r := d.xchRatio
    let t := d.xchTarget
    (d.setF R.CLK_XCH 16 4 (if r < t then r + 1 else if t < r then r - 1 else r)).xchRamped

def execXchRatioStep (s : State) : Host.Outcome State Fault Refusal := onDev (fun _ _ d => d.xchStep) s

/-! ### Loss and return of clocks (R333, R337) -/

/-- The mainband is lost: transport state is discarded, with whatever requests of the host still wait for, so that nothing of
the old link reaches the new one (R237, R250); ring state is discarded too, but not in DEEP (R350). -/
def Dev.linkLost (d : Dev) (keepRings : Bool) : Dev :=
  let late := (d.words.filter (fun x => x.host.isSome)).map (fun x => x.id)
  let mine := fun (r : FReq) => match r.owner with
    | .host _ => true
    | .word id => late.contains id
    | _ => false
  let d := d.worlds.foldl (fun (d : Dev) q => d.updWld q.1 (fun x => { x with blocked := false })) d
  let d := { (d.disown mine).wr R.XCH_LINK_STATUS 0 with
    link := Link.init, words := d.words.filter (fun x => x.host.isNone),
    sys := { d.sys with ra := d.sys.ra.set (fun _ => none) Master.transport.idx none } }
  if keepRings then d else { d.resetRegs R.XCH_RING_STATE (R.XCH_RING_PEND + 32) with rings := [] }

/-- SBCLK stops for longer than 100 ns. -/
def Dev.sbclkStop (d : Dev) : Dev :=
  { (d.upd R.CLK_STATUS (setFld · 0 4 0)).linkLost false with sbclk := false, pwr := { d.pwr with gap := some d.now } }

def execSbclkStop (s : State) : Host.Outcome State Fault Refusal := onDev (fun _ _ d => d.sbclkStop) s

/-- The PLLs lock, where stage 2 has set them up and the power state has them on (R329, Table 16-8). -/
def Dev.pllsLock (d : Dev) : Dev :=
  if 2 ≤ d.f (R.SYS_BOOT_REPORT + 8) 30 2 ∧ d.pwrState ≠ 2 then d.setF R.CLK_STATUS 0 4 15 else d

/-- SBCLK returns after a gap, which no make-up of R323 covers. -/
def Dev.sbclkReturn (d : Dev) : Dev :=
  let since := match d.pwr.gap with | some t => d.pwr.since + (d.now - t) | none => d.pwr.since
  let d := ({ d with sbclk := true, pwr := { d.pwr with gap := none, since := since } }.orBits R.CLK_STATUS (2 ^ 31)).clkEvent 30
  (List.range 4).foldl Dev.clkSwitched d.pllsLock

/-- SBCLK_RETURN (R337), for a clock that had stopped after its first start. -/
def execSbclkReturn (s : State) : Host.Outcome State Fault Refusal :=
  if s.dev.powered && !s.dev.sbclk && s.dev.boot.started then
    .next { s with dev := s.dev.sbclkReturn.settle }
  else .next s

/-- The host stops the forwarded clock without warning. -/
def Dev.fwdLost (d : Dev) : Dev :=
  let uses := d.clkOf 0 == 1
  let d := { d with fwdClk := false }.clkStops
  if uses then d.linkLost false else d

def execForwardedClockLoss (s : State) : Host.Outcome State Fault Refusal := onDev (fun _ _ d => d.fwdLost) s

/-! ### Monitors (R338, R339, R342) -/

/-- CLK_MON takes what the last two ANCLK cycles showed. -/
def Dev.monUpdate (d : Dev) (run : Nat) : Dev :=
  let old := d.rd R.CLK_MON
  let lost := (List.range 5).any (fun i => bit old (d.clkOf i) && !run.testBit (d.clkOf i))
  let d := { d.wr R.CLK_MON (w32 run) with fwdClk := run.testBit 1 }.clkStops
  if lost then d.clkEvent 27 else d

def execClkMonUpdate (running : BitVec 7) (s : State) : Host.Outcome State Fault Refusal :=
  onDev (fun _ _ d => d.monUpdate running.toNat) s

/-- CLK_FREQ[k], k = 1 to 10, in order. -/
def Dev.freqUpdate (d : Dev) (counts : List Word) : Dev :=
  (counts.take 10).zipIdx.foldl (fun (d : Dev) (v, k) => d.wr (R.CLK_FREQ + 4 * (k + 1)) v) d

def execClkFreqUpdate (counts : List Word) (s : State) : Host.Outcome State Fault Refusal :=
  onDev (fun _ _ d => d.freqUpdate counts) s

/-- REF ÷ HSM with 12 fractional bits; how the quotient is rounded to them the spec leaves open (log entry 8). -/
def kfRatio (ref hsm : Nat) (up : Bool) : Nat :=
  if hsm = 0 then 0xFFFF
  else min 0xFFFF (ref * 4096 / hsm + if up ∧ ref * 4096 % hsm ≠ 0 then 1 else 0)

/-- CLK_HSM of each site, then CLK_KF_MEAS and the limit. -/
def Dev.hsmTake (d : Dev) (n : Nv) (counts : List Half) : Dev :=
  let d := (counts.take 64).zipIdx.foldl (fun (d : Dev) (v, k) =>
    d.wr (R.CLK_HSM + 4 * k) (w32 ((n.hsmRef.getD k 0).toNat * 65536 + v.toNat))) d
  let up := Config.freeBit d.freeCtr 0
  let best := (List.range 64).foldl (fun (b : Nat × Nat) k =>
    let r := kfRatio (d.f (R.CLK_HSM + 4 * k) 16 16) (d.f (R.CLK_HSM + 4 * k) 0 16) up
    if b.1 < r then (r, k) else b) (0, 0)
  let d := { d.wr R.CLK_KF_MEAS (w32 (best.2 * 65536 + best.1)) with freeCtr := d.freeCtr + 1 }
  if d.f R.CLK_KF_LIM 0 16 < best.1 then d.clkEvent 28 else d

def execHsmUpdate (counts : List Half) (s : State) : Host.Outcome State Fault Refusal :=
  onDev (fun n _ d => d.hsmTake n counts) s

end Sys2Proof.Machine
end

