-- ==== Sys2Proof/Machine/Interrupts.lean ====
section
/-! DEFINITION. The interrupt aggregator's commands (R307 to R315): pending and enable bits, lines, what a line's rise
does at a core or at the host, and the stations' reports. -/

namespace Sys2Proof.Machine

/-- The IRQ block is closed to SB1 to SB7, their own target's registers apart (R311). -/
def irqClosed (own : Option Nat) (c : Nat) : Bool := c != 0 && own != some c

/-- Word `i` of a 256-bit set, as a mask in place. -/
def word256 (i : Nat) (v : Word) : BitVec 256 := BitVec.ofNat 256 (v.toNat <<< (32 * i))
def wordOf256 (x : BitVec 256) (i : Nat) : Word := w32 (x.toNat >>> (32 * i))

/-- A write of 1s to IRQ_PEND_SET[i]: only sources 160 to 191. -/
def Dev.irqPendSet (d : Dev) (i : Nat) (v : Word) : Dev :=
  if i = 5 then { d with irq := { d.irq with pend := d.irq.pend ||| word256 5 v } } else d
/-- A write of 1s to IRQ_PEND_CLR[i]. -/
def Dev.irqPendClr (d : Dev) (i : Nat) (v : Word) : Dev := { d with irq := { d.irq with pend := d.irq.pend &&& ~~~(word256 i v) } }

/-- IRQ_PEND_SET_WRITE (R308): only sources 160 to 191. -/
def execIrqPendSetWrite (m : Master) (i : Fin 8) (v : Word) (s : State) : Host.Outcome State Fault Refusal :=
  onDev (fun n _ d => d.writeGateFor n m (R.IRQ_PEND_SET + 4 * i) (irqClosed none) (fun d => d.irqPendSet i v)) s

/-- IRQ_PEND_CLR_WRITE (R308). -/
def execIrqPendClrWrite (m : Master) (i : Fin 8) (v : Word) (s : State) : Host.Outcome State Fault Refusal :=
  onDev (fun n _ d => d.writeGateFor n m (R.IRQ_PEND_CLR + 4 * i) (irqClosed none) (fun d => d.irqPendClr i v)) s

/-- Change the enables of a target. -/
def Dev.setEn (d : Dev) (t : Nat) (f : BitVec 256 → BitVec 256) : Dev :=
  { d with irq := { d.irq with en := d.irq.en.set zero256 t (f (d.irq.en.get zero256 t)) } }

/-- Writes of 1s to IRQ_EN_SET[i] and IRQ_EN_CLR[i]. -/
def Dev.enSet (d : Dev) (i : Nat) (v : Word) : Dev := d.setEn (i / 8) (fun e => e ||| word256 (i % 8) v)
def Dev.enClr (d : Dev) (i : Nat) (v : Word) : Dev := d.setEn (i / 8) (fun e => e &&& ~~~(word256 (i % 8) v))

/-- IRQ_EN_SET_WRITE (R311). -/
def execIrqEnSetWrite (m : Master) (i : Fin 72) (v : Word) (s : State) : Host.Outcome State Fault Refusal :=
  onDev (fun n _ d => d.writeGateFor n m (R.IRQ_EN_SET + 4 * i) (irqClosed (some (i / 8))) (fun d => d.enSet i v)) s

/-- IRQ_EN_CLR_WRITE (R311). -/
def execIrqEnClrWrite (m : Master) (i : Fin 72) (v : Word) (s : State) : Host.Outcome State Fault Refusal :=
  onDev (fun n _ d => d.writeGateFor n m (R.IRQ_EN_CLR + 4 * i) (irqClosed (some (i / 8))) (fun d => d.enClr i v)) s

/-! ### Lines (R312 to R314) -/

/-- CSR mip of core `t`: its line drives the machine external interrupt pending bit (R313). -/
def Dev.mip (d : Dev) (t : Nat) : Word := if d.irq.line.getLsbD t then 0x800#32 else 0

/-- Freight carries an access of the core, which ends before the core takes an interrupt (log entry 24). -/
def Core.onFreight (c : Core) : Bool :=
  match c.blocked with
  | some (.freight ..) => true
  | _ => false

/-- What a high line does at core `t`, if its clock branch runs: it leaves WFI, and takes the machine external interrupt if it can
(R313, R335), abandoning a channel access on which it is blocked (R294). -/
def Dev.coreLine (d : Dev) (t : Nat) : Dev :=
  let c := d.core t
  if !c.running || c.halted || c.onFreight || !d.branchOn 3 t then d
  else
    let c := if c.wfi then { c with wfi := false, pc := c.pc + 4 } else c
    let c := if (bit c.mstatus 3 || !c.machine) && bit (d.mip t &&& c.mie) 11 then c.trap true 11 0 else c
    d.setCore t c

/-- The host is sent an INT for each source of D_8 that it has not been told of (R314). -/
def Dev.hostLine (d : Dev) : Dev :=
  let new := d.irq.dset 8 &&& ~~~d.irq.told
  let ks := (List.range 256).filter (fun k => new.getLsbD k)
  let d := { d with irq := { d.irq with told := d.irq.told ||| new } }
  ks.foldl (fun d k => (d.sendInt k).andNot R.IRQ_HOST_IDLE 1) d

/-- The line of a target is high: what follows from it. -/
def Dev.lineHigh (d : Dev) (t : Nat) : Dev :=
  let d := { d with irq := { d.irq with line := d.irq.line ||| (1#9 <<< t) } }
  if t = 8 then d.hostLine else d.coreLine t

/-- The target is idle. -/
def Dev.targetIdle (d : Dev) (t : Nat) : Bool :=
  if t = 8 then bit (d.rd R.IRQ_HOST_IDLE) 0 else (d.core t).wfi

/-- IRQ_LINE_RISE: D_t is not empty and CNT or idleness lets the line rise; a line already high goes on acting. -/
def Dev.lineRise (d : Dev) (t : Nat) : Dev :=
  let cnt := d.f (R.IRQ_MOD + 4 * t) 24 8
  if d.irq.dset t = 0 then d
  else if d.irq.line.getLsbD t ∨ cnt ≤ 1 ∨ cnt ≤ d.irq.entered.get zeroNat t ∨ d.targetIdle t then d.lineHigh t
  else d

def execIrqLineRise (t : Fin 9) (s : State) : Host.Outcome State Fault Refusal :=
  onDev (fun _ _ d => d.settle.lineRise t) s

/-- IRQ_MOD_TIME_EXPIRY: TIME has passed since the first source entered D_t. -/
def execIrqModTimeExpiry (t : Fin 9) (s : State) : Host.Outcome State Fault Refusal :=
  onDev (fun _ _ d =>
    let d := d.settle
    if d.f (R.IRQ_MOD + 4 * t) 0 16 ≠ 0 ∧ d.irq.dset t ≠ 0 then d.lineHigh t else d) s

/-! ### Reports of the stations (R309) and pin settings (R310) -/

def falseAt (_ : Nat) : Bool := false

/-- STN_IRQ_REPORT: the aggregator holds, by mesh position, what each station has reported; the map shows it by rank. -/
def Dev.stnReport (d : Dev) (p : Nat) : Dev :=
  let l := d.sW p stnIrqLatch
  { d with irq := { d.irq with stnMap := (List.range 6).foldl (fun (m : PMap Bool) k =>
      m.set falseAt (k * 4096 + p) (bit l k)) d.irq.stnMap } }

def execStnIrqReport (pos : Fin 2304) (s : State) : Host.Outcome State Fault Refusal :=
  onDev (fun n _ d => if n.enabled pos then d.stnReport pos else d) s

end Sys2Proof.Machine
end

