-- ==== Sys2Proof/Machine/Blocks.lean ====
section
/-! DEFINITION. Blocks (R300 to R306): their operations, their notices, and the barrier Blocks that belong to the device. -/

namespace Sys2Proof.Machine

def blkReg (r i : Nat) : Nat := r + 16 * i
def Dev.blkCfg (d : Dev) (i : Nat) : Word := d.rd (blkReg R.BLK_CFG i)
def Dev.blkValue (d : Dev) (i : Nat) : Word := d.rd (blkReg R.BLK_VALUE i)
def Dev.blkLimit (d : Dev) (i : Nat) : Word := d.rd (blkReg R.BLK_LIMIT i)
/-- The Block belongs to the device (R305). -/
def Dev.blkDev (d : Dev) (i : Nat) : Bool := bit (d.blkCfg i) 29
def Dev.blkType (d : Dev) (i : Nat) : Nat := fld (d.blkCfg i) 30 2

/-- What an operation does (Table 14-5): the new value, whether it was limited, and whether its notice condition is met. -/
structure BlkEffect where
  value : Word
  clipped : Bool
  note : Bool
deriving DecidableEq, Repr

/-- An arrival at a barrier. -/
def arrive (v lim : Word) : BlkEffect :=
  let a := fld v 0 16 + 1
  let g := fld v 16 16
  if max 1 (fld lim 0 16) ≤ a then { value := w32 ((g + 1) % 65536 * 65536), clipped := false, note := true }
  else { value := w32 (g * 65536 + a), clipped := false, note := false }

/-- COUNTER: whether a move of the value passes LIMIT upward. -/
def counterNote (old new lim : Nat) : Bool := lim != 0 && decide (old < lim ∧ lim ≤ new)

/-- A write of `x` to BLK_OP. -/
def blkWriteOp (typ : Nat) (v lim x : Word) : BlkEffect :=
  match typ with
  | 0 =>
    let s : Int := v.toNat + sext 32 x.toNat
    let r := (max 0 (min 0xFFFFFFFF s)).toNat
    { value := w32 r, clipped := decide ((r : Int) ≠ s), note := counterNote v.toNat r lim.toNat }
  | 1 => arrive v lim
  | 2 =>
    let top := if lim = 0 then 0xFFFFFFFF else lim.toNat
    let r := min (v.toNat + x.toNat) top
    { value := w32 r, clipped := decide (top < v.toNat + x.toNat), note := v == 0 && r != 0 }
  | _ =>
    let sel := if lim = 0 then 0xFFFFFFFF#32 else lim
    { value := v ||| x, clipped := false, note := (x &&& ~~~v &&& sel) != 0 }

/-- A read of BLK_OP. -/
def blkTakeOp (typ : Nat) (v lim : Word) : BlkEffect :=
  match typ with
  | 0 =>
    let r := min (v.toNat + 1) 0xFFFFFFFF
    { value := w32 r, clipped := v == 0xFFFFFFFF#32, note := counterNote v.toNat r lim.toNat }
  | 1 => arrive v lim
  | 2 => { value := if v = 0 then v else v - 1, clipped := false, note := false }
  | _ => { value := 0, clipped := false, note := false }

/-- Carry out an operation's effect on Block `i` (R302, R304). -/
def Dev.blkEffect (d : Dev) (i : Nat) (e : BlkEffect) : Dev :=
  let c := d.blkCfg i
  let d := d.wr (blkReg R.BLK_VALUE i) e.value
  let d := if e.clipped then d.orBits (blkReg R.BLK_CFG i) (2 ^ 28) else d
  if e.note ∧ bit c 24 then d.irq1 (128 + fld c 16 5) else d

/-- An access refused because the Block belongs to the device (R305), or because a descriptor's Block is no free COUNTER
(R306). -/
def Dev.blkRefuse (d : Dev) (i : Nat) : Dev :=
  (d.count R.CHN_BLK_REFUSED 1 R.CHN_ERR 16).wr R.CHN_BLK_LAST (w32 (2 ^ 31 + i % 65536))

/-- A write of `x` to BLK_OP[i]. -/
def Dev.blkWrite (d : Dev) (i : Nat) (x : Word) : Dev :=
  if d.blkDev i then d.blkRefuse i else d.blkEffect i (blkWriteOp (d.blkType i) (d.blkValue i) (d.blkLimit i) x)

/-- A read of BLK_OP[i]: the old value, and the operation unless the Block belongs to the device. -/
def Dev.blkTake (d : Dev) (i : Nat) : Word × Dev :=
  (d.blkValue i, if d.blkDev i then d else d.blkEffect i (blkTakeOp (d.blkType i) (d.blkValue i) (d.blkLimit i)))

/-- A write of BLK_CFG[i] (R301, R305). -/
def Dev.blkCfgWrite (d : Dev) (i : Nat) (v : Word) : Dev :=
  let c := d.blkCfg i
  let new := accWrite 0xC11F0000 0x10000000 0 c v
  if d.blkDev i then
    if fld v 30 2 = fld c 30 2 ∧ !(bit v 28 && bit c 28) then d.wr (blkReg R.BLK_CFG i) new else d.blkRefuse i
  else
    let d := d.wr (blkReg R.BLK_CFG i) new
    if fld new 30 2 = fld c 30 2 then d
    else (d.wr (blkReg R.BLK_VALUE i) 0).andNot (blkReg R.BLK_CFG i) (2 ^ 28)

/-- A write of BLK_VALUE[i] or BLK_LIMIT[i]. -/
def Dev.blkPlainWrite (d : Dev) (reg i : Nat) (v : Word) : Dev :=
  if d.blkDev i then d.blkRefuse i else d.wr (blkReg reg i) v

/-- At GO the Block becomes the barrier of a world (R305): NOTE_EN and LINE keep their values. -/
def Dev.blkClaim (d : Dev) (i : Nat) : Dev :=
  let d := d.upd (blkReg R.BLK_CFG i) (fun c => setBit (setBit (setFld c 30 2 1) 29 true) 28 false)
  (d.wr (blkReg R.BLK_VALUE i) 0).wr (blkReg R.BLK_LIMIT i) 1

/-- The Block no longer belongs to the device; VALUE is kept. -/
def Dev.blkFree (d : Dev) (i : Nat) : Dev := d.andNot (blkReg R.BLK_CFG i) (2 ^ 29)

/-- The step sequencer's arrival at a world's barrier. -/
def Dev.blkArrive (d : Dev) (i : Nat) : Dev := d.blkEffect i (arrive (d.blkValue i) (d.blkLimit i))

/-! ### Commands -/

/-- BLK_OP_WRITE (R302). -/
def execBlkOpWrite (m : Master) (i : Fin 65536) (x : Word) (s : State) : Host.Outcome State Fault Refusal :=
  onDev (fun n _ d => d.writeGate n m (blkReg R.BLK_OP i) (fun d => d.blkWrite i x)) s

/-- BLK_OP_READ (R302). -/
def execBlkOpRead (m : Master) (i : Fin 65536) (s : State) : Host.Outcome State Fault Refusal :=
  onDev (fun n _ d => d.readGate n m (blkReg R.BLK_OP i) (fun d => d.blkTake i)) s

/-- BLK_CFG_WRITE (R301). -/
def execBlkCfgWrite (m : Master) (i : Fin 65536) (v : Word) (s : State) : Host.Outcome State Fault Refusal :=
  onDev (fun n _ d => d.writeGate n m (blkReg R.BLK_CFG i) (fun d => d.blkCfgWrite i v)) s

end Sys2Proof.Machine
end

