-- ==== Sys2Proof/Machine/Station.lean ====
section
/-! DEFINITION. Commands at one station: opening passes and sweeps (R68, R75), the synapse pipeline's requests (R91, R97,
R185), modulators (R115), emissions (R158), Junction arrivals (R155), and the notices of STEP_QUIET (R178, R262). -/

namespace Sys2Proof.Machine

/-! ### Sweeps (R75, R123) -/

/-- Bit `m` of SWEEP_ACTIVE, and of OPENING (Table 3-8). -/
def Dev.neState (d : Dev) (p lo m : Nat) (b : Bool) : Dev := d.updSW p R.STN_NE_STATE (fun w => setBit w (lo + m) b)

def Dev.cursor (d : Dev) (p k : Nat) : Option Nat := (d.stn p).swept.get noNat k
def Dev.setCursor (d : Dev) (p k : Nat) (c : Option Nat) : Dev :=
  d.updStn p (fun s => { s with swept := s.swept.set noNat k c })

/-- A pass of slot `m` has ended when neither its neurons nor its rows remain. -/
def Dev.sweepEnd (d : Dev) (p m : Nat) : Dev :=
  if (d.cursor p (2 * m)).isNone && (d.cursor p (2 * m + 1)).isNone then d.neState p 16 m false else d

/-- The plastic rows whose target population belongs to slot `m`. -/
def Dev.slotRows (d : Dev) (p m : Nat) : List Nat :=
  (d.plasticRows p).filter (fun a => (d.pop p (d.row p a).tpop).modSlot == m)

/-- The visit of a plastic row at step `t` (R123). -/
def Dev.sweepRow (d : Dev) (p t a : Nat) : Dev :=
  let r := d.row p a
  if r.preValid ∧ 32768 ≤ (t + 65536 - r.tPre) % 65536 then d.clearPre p a else d

/-- The visit of a neuron slot at step `t` (R75). -/
def Dev.sweepNeuron (d : Dev) (p t n : Nat) : Dev := d.update p n t .zero .sweep

/-- The neuron slot, and the plastic row, that the pass of slot `m` visits next, if it has one left. -/
def Dev.sweepNext (d : Dev) (p m : Nat) : Option Nat :=
  (d.cursor p (2 * m)).bind (fun c => (d.slotsOf p m).find? (fun n => decide (c ≤ n)))
def Dev.sweepNextRow (d : Dev) (p m : Nat) : Option Nat :=
  (d.cursor p (2 * m + 1)).bind (fun c => (d.slotRows p m)[c]?)

/-- With its last neuron or its last row visited, the pass has none left; with neither left it has ended. -/
def Dev.sweepTidy (d : Dev) (p m : Nat) : Dev :=
  let d := if (d.sweepNext p m).isNone then d.setCursor p (2 * m) none else d
  let d := if (d.sweepNextRow p m).isNone then d.setCursor p (2 * m + 1) none else d
  d.sweepEnd p m

/-- Start a pass of slot `m` from its first slot and row. -/
def Dev.sweepStart (d : Dev) (p m : Nat) : Dev :=
  (((d.setCursor p (2 * m) (some 0)).setCursor p (2 * m + 1) (some 0)).neState p 16 m true).sweepTidy p m

/-- Begin a pass of slot `m` at step `t`. -/
def Dev.sweepBegin (d : Dev) (p m t : Nat) : Dev :=
  (d.setSW p (R.STN_SWEEP_EPOCH + 4 * m) (w32 (t % 65536))).sweepStart p m

/-- The sweep pass that a SECTION reset left for slot `m` (R366): its epoch stays. -/
def Dev.sweepResume (d : Dev) (p m : Nat) : Dev := if (d.stn p).sweepDue.contains m then d.sweepStart p m else d

/-- One visit of the neurons of slot `m`: the next non-idle slot, if one remains. -/
def Dev.sweepStep (d : Dev) (p m : Nat) : Option Dev :=
  (d.sweepNext p m).map (fun n => ((d.sweepNeuron p (d.slotStep p m) n).setCursor p (2 * m) (some (n + 1))).sweepTidy p m)

/-- One visit of the plastic rows of slot `m`: one engine turn (R77). -/
def Dev.sweepRowStep (d : Dev) (p m : Nat) : Option Dev :=
  (d.sweepNextRow p m).map (fun a =>
    (((d.sweepRow p (d.slotStep p m) a).turn p 1).setCursor p (2 * m + 1) ((d.cursor p (2 * m + 1)).map (· + 1))).sweepTidy p m)

/-- Complete what remains of a late pass, counted once (R68). -/
def Dev.sweepLate (d : Dev) (p m t : Nat) : Dev :=
  if (d.sweepNext p m).isNone && (d.sweepNextRow p m).isNone then d
  else
    let d := match d.cursor p (2 * m) with
      | some c => ((d.slotsOf p m).filter (fun n => decide (c ≤ n))).foldl (fun (d : Dev) n => d.sweepNeuron p t n) d
      | none => d
    let d := match d.cursor p (2 * m + 1) with
      | some c => ((d.slotRows p m).drop c).foldl (fun (d : Dev) r => (d.sweepRow p t r).turn p 1) d
      | none => d
    (((d.ne p m 5 1).setCursor p (2 * m) none).setCursor p (2 * m + 1) none).sweepEnd p m

/-- Whether the sweeper may work for slot `m`: the slot holds a world that is not held (R76). -/
def Dev.sweeps (d : Dev) (p m : Nat) : Bool :=
  match d.slotWorld p m with
  | some w => (d.wld w).live && !(d.wld w).held
  | none => false

/-! ### Spike blocks (R176, R178) -/

/-- The spike blocks of the valid collector entries that satisfy a test. -/
def Dev.collBlocks (d : Dev) (p : Nat) (f : Nat → Bool) : List Nat :=
  (List.range 64).filter (fun b => (List.range 16).any (fun k =>
    let e := d.sW p (R.STN_STR_COLL + 4 * k)
    bit e 31 && f (fld e 26 4) && decide (fld e 0 6 ≤ b ∧ b ≤ fld e 0 6 + fld e 6 6)))

/-- The 64-bit neuron mask of a block. -/
def Dev.spikes (d : Dev) (p b : Nat) : Nat :=
  (d.sW p (R.STN_STR_SPK + 8 * b)).toNat + (d.sW p (R.STN_STR_SPK + 8 * b + 4)).toNat * 2 ^ 32

def Dev.clearBlock (d : Dev) (p b : Nat) : Dev :=
  (d.setSW p (R.STN_STR_SPK + 8 * b) 0).setSW p (R.STN_STR_SPK + 8 * b + 4) 0

/-- The blocks of slot `m` that no other slot's entries share. -/
def Dev.ownBlocks (d : Dev) (p m : Nat) : List Nat :=
  let other := d.collBlocks p (· != m)
  (d.collBlocks p (· == m)).filter (fun b => !other.contains b)

def onesCount (n x : Nat) : Nat := (onesBelow n x).length

/-- The blocks of a slot cleared at an opening pass after a SKIP advance, with their set bits counted (R143). -/
def Dev.skipSpikes (d : Dev) (p m : Nat) : Dev :=
  let bs := d.ownBlocks p m
  let k := (bs.map (fun b => onesCount 64 (d.spikes p b))).sum
  let d := bs.foldl (fun d b => d.clearBlock p b) d
  d.sCount p (R.STN_SKIP_SPK + 4 * m) k R.STN_STEP_OVF (16 + m) none

/-! ### The opening pass (R68, R135, R158) -/

/-- Whether the row arbiter holds a request of slot `m`'s world (R135). -/
def Dev.arbHolds (d : Dev) (p m : Nat) : Bool :=
  (d.stn p).arb.any (fun r => match r with
    | .event _ _ k => k == m
    | .write _ _ _ => false
    | .page desc _ _ => d.slotOf p (fld (recWord desc 0) 20 12) == some m)

/-- Remove the emission-store entries of slot `m` that are not of step `t` (R158). -/
def Dev.staleEmissions (d : Dev) (p m t : Nat) : Dev :=
  let stale := (d.stn p).emit.filter (fun e => e.wslot == m && e.copy.stepTag != t % 4)
  let d := d.updStn p (fun s => { s with emit := s.emit.filter (fun e => !(e.wslot == m && e.copy.stepTag != t % 4)) })
  let d := stale.foldl (fun d e => (d.cConsumed p m e.copy).lateDrop p m 1) d
  d.emitState p

/-- Clear the credits of bank `t mod 2` of slot `m` (R133). -/
def Dev.clearBank (d : Dev) (p m t : Nat) : Dev :=
  let b := t % 2
  ((d.setSW p (R.STN_CR_CREATED + 4 * (2 * m + b)) 0).setSW p (R.STN_CR_CONSUMED + 4 * (2 * m + b)) 0).setLost p m b 0

/-- The matured accumulators of slot `m` at step `t`: descriptors ascending, slots ascending (R68); 64 occupancy bits are scanned
in a turn (Table 3-5). -/
def Dev.matureAll (d : Dev) (p m t : Nat) : Dev :=
  (d.popsOf p m).foldl (fun d k =>
    let q := d.pop p k
    (List.range q.slotCount).foldl (fun d n => d.mature p q t n) (d.turn p ((q.slotCount + 63) / 64))) d

/-- The opening pass of step `t`.  A late sweep leaks V before a graded relay's payload is formed, in the order of R68 (log
entry 45).  Where a SKIP release opens it, a STEP_QUIET notice of the step before that waits to be served is dropped with its
samples: R143 says so of summaries only (DESIGN CHOICE, log entry 55). -/
def Dev.openStep (d : Dev) (p m t : Nat) (skip : Bool) : Dev :=
  let d := (d.staleEmissions p m t).clearBank p m t
  let d := d.updSW p (R.STN_WORLD_STEP + 4 * m) (setFld · 0 16 t)
  let d := if skip then
      (d.skipSpikes p m).updStn p (fun s => { s with quiet := s.quiet.set noNat m none })
    else d
  let d := d.foldAtOpening p m t
  let d := if t % 8192 = 0 then d.sweepLate p m t else d
  let d := (d.slotsOf p m).foldl (fun d n => d.emitPending p n t) d
  let d := if t % 8192 = 0 then d.sweepBegin p m t else d.sweepResume p m
  let d := d.updStn p (fun s => { s with sweepDue := s.sweepDue.filter (· != m) })
  let d := d.matureAll p m t
  (d.updStn p (fun s => { s with release := s.release.set (fun _ => none) m none,
                                  opened := s.opened.set noOcc m true })).neState p 0 m false

/-- The opening pass that slot `m` can run: its step and whether a SKIP advance made it.  It waits for the requests of the
step that ends, and for the station's own STEP_QUIET work (R135, R178). -/
def Dev.openDue (d : Dev) (n : Nv) (p m : Nat) : Option (Nat × Bool) :=
  ((d.stn p).release.get (fun _ => none) m).bind (fun q =>
    let quiet := ((d.stn p).quiet.get noNat m).isSome
    if n.enabled p && (d.slotWorld p m).isSome && !d.arbHolds p m && (q.2 || !quiet) then some q else none)

/-- The world slot whose opening pass the neuron engine serves first: the lowest of those that can run (R78). -/
def Dev.openFirst (d : Dev) (n : Nv) (p : Nat) : Option Nat := (List.range 16).find? (fun m => (d.openDue n p m).isSome)

/-- The sweeper has work at a station. -/
def Dev.sweepWork (d : Dev) (p : Nat) : Bool :=
  (List.range 16).any (fun m => d.sweeps p m && ((d.sweepNext p m).isSome || (d.sweepNextRow p m).isSome))

/-- The turn is the sweeper's: the others have had fifteen for each turn of a visit that it could make (R77, R78). -/
def Dev.sweepOwed (d : Dev) (p : Nat) : Bool :=
  decide (15 ≤ d.turns p) && (List.range 16).any (fun m => d.sweeps p m &&
    [d.sweepStep p m, d.sweepRowStep p m].any (fun o => o.any (fun e => decide (15 * max 1 (e.turns p - d.turns p) ≤ d.turns p))))

/-- Turns of the engine count toward the sweeper's only while it has work (R77). -/
def Dev.turnsCount (d : Dev) (p : Nat) : Dev := if d.sweepWork p then d else d.updStn p (fun s => { s with turns := 0 })

/-- OPENING_PASS (R68), in ascending world slot (R78), unless the turn is the sweeper's. -/
def Dev.openingPass (d : Dev) (n : Nv) (p m : Nat) : Dev :=
  if d.openFirst n p = some m ∧ d.sweepOwed p = false then
    match d.openDue n p m with
    | some (t, skip) => (d.openStep p m t skip).turnsCount p
    | none => d
  else d

def execOpeningPass (pos : Fin 2304) (slot : Fin 16) (s : State) : Host.Outcome State Fault Refusal :=
  onFabric (fun n _ d => d.openingPass n pos slot) s

/-- The request at the head of the arbiter's queue needs the neuron engine: its delivery takes engine turns (R78, R99). -/
def Dev.headUpdates (d : Dev) (p : Nat) : Bool :=
  match (d.stn p).arb with
  | .event c dir _ :: _ => (d.deliver p c dir).turns p != d.turns p
  | _ => false

/-- An opening pass or an update of the row arbiter waits for the neuron engine. -/
def Dev.engineWaits (d : Dev) (n : Nv) (p : Nat) : Bool := (d.openFirst n p).isSome || d.headUpdates p

/-- The turn of the sweeper for slot `m`, when it may make the visit that `f` makes: nothing else waits for the engine, or the
others have had fifteen turns for each turn of the visit (R77, R78; log entry 47). -/
def Dev.sweeperVisit (d : Dev) (n : Nv) (p m : Nat) (f : Dev → Option Dev) : Dev :=
  if n.enabled p && d.sweeps p m then
    match f d with
    | some e =>
      let k := 15 * max 1 (e.turns p - d.turns p)
      if !d.engineWaits n p || decide (k ≤ d.turns p) then e.updStn p (fun s => { s with turns := d.turns p - k }) else d
    | none => d
  else d

/-- SWEEP_VISIT (R75). -/
def execSweepVisit (pos : Fin 2304) (slot : Fin 16) (s : State) : Host.Outcome State Fault Refusal :=
  onFabric (fun n _ d => d.sweeperVisit n pos slot (fun d => d.sweepStep pos slot)) s

/-- PLASTIC_ROW_SWEEP (R123). -/
def execPlasticRowSweep (pos : Fin 2304) (slot : Fin 16) (s : State) : Host.Outcome State Fault Refusal :=
  onFabric (fun n _ d => d.sweeperVisit n pos slot (fun d => d.sweepRowStep pos slot)) s

/-! ### Emission and Junction arrivals -/

/-- The oldest entry of the emission store on a channel goes to the local input (R158). -/
def Dev.emissionSend (d : Dev) (n : Nv) (p vc : Nat) : Dev :=
  if !d.room (.stn p 4) vc then d
  else if vc = 3 then
    match (d.stn p).samples with
    | [] => d
    | c :: rest => (d.updStn p (fun s => { s with samples := rest })).put n (.stn p 4) c
  else
    match (d.stn p).emit.findIdx? (fun e => e.copy.vc == vc) with
    | none => d
    | some i =>
      match (d.stn p).emit[i]? with
      | none => d
      | some e => ((d.updStn p (fun s => { s with emit := s.emit.eraseIdx i })).emitState p).put n (.stn p 4) e.copy

/-- EMISSION_SEND (R158); sample flits go the same way on VC3 (R262). -/
def execEmissionSend (pos : Fin 2304) (vc : Fin 4) (s : State) : Host.Outcome State Fault Refusal :=
  onFabric (fun n _ d => d.emissionSend n pos vc) s

/-- JUNCTION_ARRIVAL (R155).  A copy in a local input buffer came over no link, so no link error touches it. -/
def execJunctionArrival (pos : Fin 2304) (port : Port) (vc : Fin 4) (err : LinkError) (s : State) :
    Host.Outcome State Fault Refusal :=
  onFabric (fun n _ d => (d.junction n pos port vc (if port = .l then 0 else err)).injectAllX n) s

/-! ### The row arbiter's requests -/

/-- EVENT_DELIVER (R91): the event at the head of the queue is delivered and consumed (R95).  One that needs the neuron engine
waits for the opening passes, and for the turn of the sweeper (R78). -/
def Dev.eventDeliver (d : Dev) (n : Nv) (p : Nat) : Dev :=
  match (d.stn p).arb with
  | .event c dir m :: _ =>
    if d.headUpdates p && ((d.openFirst n p).isSome || d.sweepOwed p) then d
    else (((d.deliver p c dir).arbPop p).turnsCount p).cConsumed p m c
  | _ => d

def execEventDeliver (pos : Fin 2304) (s : State) : Host.Outcome State Fault Refusal :=
  onFabric (fun n _ d => d.eventDeliver n pos) s

/-- A memory write that comes by the Signal network (R20, R21): it goes behind the requests that wait in the row arbiter, and
is done at once where none waits.  A full queue keeps it waiting at its input (R96). -/
def Dev.signalStore (d : Dev) (p off : Nat) (bytes : List Byte) : Dev :=
  if (d.stn p).arb.isEmpty then d.storeStation p off bytes else d.arbPush p (.write off bytes none)

/-- STATION_FREIGHT_WRITE (R98, R203): the write at the head of the queue, and its ACK. -/
def Dev.stationWrite (d : Dev) (n : Nv) (p : Nat) : Dev :=
  match (d.stn p).arb with
  | .write off bytes reply :: _ =>
    let d := (d.storeStation p off bytes).arbPop p
    match reply with
    | some r => d.respond n (some p) ((d.rankOf p).getD 0) r pAck 0 []
    | none => d
  | _ => d

def execStationFreightWrite (pos : Fin 2304) (s : State) : Host.Outcome State Fault Refusal :=
  onFabric (fun n _ d => d.stationWrite n pos) s

/-- MODULATOR_ARRIVAL (R115): the broadcast that waits at the local port. -/
def Dev.modulatorArrival (d : Dev) (p : Nat) : Dev :=
  match (d.stn p).mods with
  | [] => d
  | c :: rest =>
    let d := d.updStn p (fun s => { s with mods := rest })
    match d.slotOf p c.world with
    | none => (d.xpUnrouted p).consumeAt p c
    | some m =>
      if c.stepTag ≠ d.slotStep p m % 4 then (d.lateDrop p m 1).cConsumed p m c
      else
        let v := fb16 c.payload
        let d := if v.isNan then d.modDrop p else d.modArrive p m v c.modAdd (d.slotStep p m)
        d.cConsumed p m c

def execModulatorArrival (pos : Fin 2304) (s : State) : Host.Outcome State Fault Refusal :=
  onFabric (fun _ _ d => d.modulatorArrival pos) s

/-! ### Streamed pages (R175, R185) -/

/-- A weight page as it lies in the page buffer (Table 8-3). -/
structure Page where
  base : Nat
  wfmt : Nat
  gsize : Nat
  scaleKind : Nat
  delay : Nat
  cols : Nat
deriving DecidableEq, Repr

def Page.ofWord (base : Nat) (h : Word) : Page :=
  { base := base, wfmt := fld h 28 4, gsize := fld h 26 2, scaleKind := fld h 25 1, delay := fld h 20 5, cols := fld h 0 12 }

def Page.gEntries (g : Page) : Nat := 32 * 2 ^ g.gsize
def Page.groups (g : Page) : Nat := if g.gsize = 3 then 1 else (64 * g.cols + g.gEntries - 1) / g.gEntries
def Page.width (g : Page) : Nat := (fmtOf g.wfmt).bits
def Page.words (g : Page) : Nat := 4 + g.groups + (64 * g.cols * g.width + 31) / 32

/-- The predicate bad_page of R185. -/
def Dev.badPage (d : Dev) (p : Nat) (g : Page) (desc : List Byte) : Bool :=
  let q := d.pop p (fld (recWord desc 0) 8 8)
  decide (14 ≤ g.wfmt) || g.cols == 0 || decide (1024 < g.words) || !q.valid
    || decide (q.slotCount < fld (recWord desc 4) 0 12 + g.cols)
    || d.slotWorld p q.modSlot != some (fld (recWord desc 0) 20 12)

/-- Apply entry (j, c) of a page. -/
def Dev.landEntry (d : Dev) (p : Nat) (g : Page) (q : Pop) (tb t j c : Nat) : Dev :=
  let m := q.modSlot
  let i := j * g.cols + c
  let gw := d.sM p (g.base + 16 + 4 * (if g.gsize = 3 then 0 else i / g.gEntries))
  let code := d.entryBits p (g.base + 16 + 4 * g.groups) g.width i
  let d := d.synOps p m 1
  let (w, sat) := dequant code g.wfmt g.scaleKind gw
  let d := d.ne p m 4 (if sat then 1 else 0)
  if w.isNan then d.ne p m 3 1 else d.contribute p q (tb + c) t (max g.delay 1) w

/-- The procedure land of R185. -/
def Dev.land (d : Dev) (p : Nat) (desc : List Byte) (base : Nat) : Dev :=
  let h := recWord desc 0
  let q := d.pop p (fld h 8 8)
  let t := d.slotStep p q.modSlot
  let g := Page.ofWord base (d.sM p base)
  if t % 4 ≠ fld h 16 2 then d.strCount p 2
  else if d.badPage p g desc then d.strCount p 1
  else
    let tb := fld (recWord desc 4) 0 12
    let d := (onesBelow 64 (recNat desc 8 8)).foldl (fun d j =>
      (List.range g.cols).foldl (fun d c => d.landEntry p g q tb t j c) (d.synRows p q.modSlot)) d
    d.strCount p 0

/-- PAGE_LAND: the page at the head of the queue is applied and its delivery completes; it needs no neuron-engine update
(R185). -/
def Dev.pageLand (d : Dev) (n : Nv) (p : Nat) : Dev :=
  match (d.stn p).arb with
  | .page desc slot reply :: _ =>
    let d := (d.land p desc (d.pbBase p + 4096 * slot)).arbPop p
    d.respond n (some p) ((d.rankOf p).getD 0) reply pAck 0 []
  | _ => d

def execPageLand (pos : Fin 2304) (s : State) : Host.Outcome State Fault Refusal :=
  onFabric (fun n _ d => d.pageLand n pos) s

/-! ### STEP_QUIET at a station (R178, R262, R263) -/

/-- The summary of slot `m`: the block map, and the masks of the blocks with a set bit. -/
def Dev.summary (d : Dev) (p m : Nat) : List Byte :=
  let bs := (d.collBlocks p (· == m)).filter (fun b => d.spikes p b != 0)
  leBytes 8 (maskOf bs) ++ (bs.map (fun b => leBytes 8 (d.spikes p b))).flatten

/-- Send the summaries of slot `m`, then clear its blocks. -/
def Dev.sendSummaries (d : Dev) (n : Nv) (p m : Nat) : Dev :=
  let c := d.sW p (R.STN_STR_DEST + 4 * m)
  if bit c 31 then
    let w := (d.slotWorld p m).getD 0
    let body := d.summary p m
    let d := (onesBelow 12 (fld c 0 12)).foldl (fun d s =>
      d.launch n (some p) (mkPacket pSummary 0 ((d.rankOf p).getD 0) (epStreamer s) 0 0 (fld c 16 12 * 4096 + w) 0 0 body none)) d
    (d.ownBlocks p m).foldl (fun d b => d.clearBlock p b) d
  else d

/-- One sample of neuron slot index `i` of a population at step `t`. -/
def Dev.sample (d : Dev) (p w spop t : Nat) (q : Pop) (i : Nat) : Dev :=
  let r := d.ready p q (d.slot p (q.slotBase + i)) t .sweep
  let c := bf16.conv r.v none
  let d := d.ne p q.modSlot 4 (if c.sat then 1 else 0)
  let y := mkCopy (mkWord (w32 (w * 2 ^ 20 + spop * 2 ^ 12 + i)) c.code 0 false false false) (t % 4) 3
  let d := d.updStn p (fun s => { s with samples := s.samples ++ [y] })
  d.updSW p R.STN_SMP_SENT (fun k => w32 (satAdd 32 k.toNat 1))

/-- The sampler entries of slot `m` at step `t`, ascending. -/
def Dev.sampleAll (d : Dev) (p m t : Nat) : Dev :=
  match d.slotWorld p m with
  | none => d
  | some w =>
    (List.range 8).foldl (fun d k =>
      let e := d.sW p (R.STN_SMP_CFG + 4 * k)
      let q := d.pop p (fld e 19 8)
      let win := 2 ^ fld e 7 4
      if bit e 31 ∧ fld e 27 4 = m ∧ q.valid ∧ q.modSlot = m ∧ t % win = win - 1 then
        (List.range q.slotCount).foldl (fun d i => d.sample p w (fld e 11 8) t q i) d
      else d) d

/-- STEP_QUIET_ARRIVAL (R178, R262). -/
def Dev.stepQuiet (d : Dev) (n : Nv) (p m : Nat) : Dev :=
  match (d.stn p).quiet.get noNat m with
  | none => d
  | some ext =>
    let d := d.updStn p (fun s => { s with quiet := s.quiet.set noNat m none })
    (d.sendSummaries n p m).sampleAll p m (ext % 65536)

def execStepQuietArrival (pos : Fin 2304) (slot : Fin 16) (s : State) : Host.Outcome State Fault Refusal :=
  onFabric (fun n _ d => if n.enabled pos then d.stepQuiet n pos slot else d) s

end Sys2Proof.Machine
end

