-- ==== Sys2Proof/Machine/Worlds.lean ====
section
/-! DEFINITION. Worlds and time steps (chapter 6): boundaries, releases, input, credit reductions, quiescence, barriers,
overrun policies, and what the system adds to them (R413 to R418). -/

namespace Sys2Proof.Machine

/-! ### Registers of a world (Table 6-5) -/

/-- Reset values of a world's registers: only XCH_WLD_CFG has one that is not zero. -/
def wregDflt (k : Nat) : Word := if k % 64 = 1 then 0x40#32 else 0
def Dev.wreg (d : Dev) (w i : Nat) : Word := d.wregs.get wregDflt (64 * w + i)
def Dev.setWreg (d : Dev) (w i : Nat) (v : Word) : Dev := { d with wregs := d.wregs.set wregDflt (64 * w + i) v }

/-- Words of the registers, counted from XCH_WLD_SEL. -/
abbrev wCfg : Nat := 1
abbrev wOverrun : Nat := 4
abbrev wMissed : Nat := 5
abbrev wSkips : Nat := 6
abbrev wLag : Nat := 7
abbrev wNacks : Nat := 8
abbrev wLatLast : Nat := 10
abbrev wLatMax : Nat := 11

/-- Set or clear a world's bit in a map. -/
def Dev.mapSet (d : Dev) (reg w : Nat) : Dev := d.orBits (reg + 4 * (w / 32)) (2 ^ (w % 32))
def Dev.mapClear (d : Dev) (reg w : Nat) : Dev := d.andNot (reg + 4 * (w / 32)) (2 ^ (w % 32))

/-- The settings in force (R149). -/
def World.free (x : World) : Bool := bit x.cfg 31
def World.ovrIrq (x : World) : Bool := bit x.cfg 30
def World.markMode (x : World) : Bool := fld x.cfg 28 2 == 1
def World.reserve (x : World) : Nat := min (fld x.cfg 0 10) 512

/-- Set the world's bit in XCH_WLD_OVR_MAP, with the world-overrun interrupt if OVR_IRQ allows it. -/
def Dev.overNote (d : Dev) (w : Nat) : Dev :=
  let d := d.mapSet R.XCH_WLD_OVR_MAP w
  if (d.wld w).ovrIrq then d.irq1 65 else d

/-- Count in a counter of a world (R149). -/
def Dev.wcount (d : Dev) (w i k : Nat) : Dev :=
  if k = 0 then d
  else
    let c := (d.wreg w i).toNat
    let d := d.setWreg w i (w32 (satAdd 32 c k))
    if satHits 32 c k then d.overNote w else d

/-! ### Time (R130) -/

def timer0 (_ : Nat) : Timer := Timer.init
def Dev.timer (d : Dev) (c : Nat) : Timer := d.timers.get timer0 c
def Dev.setTimer (d : Dev) (c : Nat) (t : Timer) : Dev := { d with timers := d.timers.set timer0 c t }

/-- Ticks of the world's channel since C0. -/
def Dev.elapsed (d : Dev) (x : World) : Nat := ((d.timer x.timer).count - BitVec.ofNat 64 x.c0).toNat
/-- Whether boundary `k` has been reached. -/
def Dev.reached (d : Dev) (x : World) (k : Nat) : Bool := decide (x.stagger + k * x.period ≤ d.elapsed x)
/-- The first boundary not reached. -/
def Dev.nextBoundary (d : Dev) (x : World) : Nat :=
  if d.elapsed x < x.stagger then 0 else (d.elapsed x - x.stagger) / max 1 x.period + 1

/-! ### System worlds (R398, R413) -/

/-- This device is a member, and not the manager, of system world `w`. -/
def Dev.member (d : Dev) (w : Nat) : Bool := d.sysWorld w && !d.isManager
/-- This device is the manager of system world `w`. -/
def Dev.manages (d : Dev) (w : Nat) : Bool := d.sysWorld w && d.isManager

/-- The manager sends a token to every other member, and keeps it for R412. -/
def Dev.tellMembers (d : Dev) (n : Nv) (w kind step a : Nat) : Dev :=
  if d.manages w then
    (d.toMembers n w (fun t => { t with a := w32 a }) kind step).updWld w (fun x => { x with lastToken := some (kind, step, a) })
  else d

abbrev tkRelease : Nat := 6
abbrev tkProbe : Nat := 7
abbrev tkReport : Nat := 8
abbrev tkQuiet : Nat := 9
abbrev tkDone : Nat := 10
abbrev tkAbandon : Nat := 11
abbrev tkFault : Nat := 12
abbrev tkMod : Nat := 13

/-- A member tells the manager, device 0 (R409), that its barrier has completed. -/
def Dev.tellDone (d : Dev) (n : Nv) (w step : Nat) : Dev :=
  if d.member w then d.sendToken n (d.mkToken tkDone 0 w step) else d

/-! ### Faults (R144) -/

def Dev.worldFault (d : Dev) (n : Nv) (w cause : Nat) : Dev :=
  if (d.wld w).faulted then d
  else
    let d := d.updWld w (fun x => { x with faulted := true, cause := cause })
    let d := d.mapSet R.XCH_WLD_FAULT_MAP w
    d.tellMembers n w tkFault (d.wld w).step cause

def Dev.clearFault (d : Dev) (w : Nat) : Dev :=
  (d.updWld w (fun x => { x with faulted := false, cause := 0 })).mapClear R.XCH_WLD_FAULT_MAP w

/-! ### Stations and streamers of a world -/

/-- The stations of a world with the slot each holds it in. -/
def Dev.places (d : Dev) (w : Nat) : List (Nat × Nat) :=
  (d.wld w).stations.filterMap (fun p => (d.slotOf p w).map (fun m => (p, m)))

/-- Every station of the world has completed its opening pass. -/
def Dev.allOpened (d : Dev) (w : Nat) : Bool := (d.places w).all (fun q => (d.stn q.1).opened.get noOcc q.2)

def noWords (_ : Nat) : List Word := []
/-- A word of a streamer's world table entry (Table 8-7). -/
def Dev.dirWord (d : Dev) (s w i : Nat) : Word := ((d.streamer s).table.get noWords w).getD i 0
/-- The streamers that hold a valid directory entry for a world. -/
def Dev.consistOf (d : Dev) (n : Nv) (w : Nat) : List Nat := n.streamerList.filter (fun s => bit (d.dirWord s w 0) 31)

/-! ### The end of a step (R138, R143) -/

/-- The barrier Block of the present step completes: its arrival and the latency. -/
def Dev.barrierEnd (d : Dev) (w : Nat) : Dev :=
  let x := d.wld w
  let lat := min (d.now - x.releasedAt) 0xFFFFFFFF
  let d := d.updWld w (fun x => { x with done := true, phase := 0 })
  let d := d.blkArrive x.barrier
  let d := d.setWreg w wLatLast (w32 lat)
  d.setWreg w wLatMax (w32 (max lat (d.wreg w wLatMax).toNat))

/-- DONE has arrived from every other member of a system world (R415). -/
def Dev.allDone (d : Dev) (w : Nat) : Bool := (d.otherMembers w).all (d.wld w).dones.contains

/-- The system barrier completes at the manager, once its local barrier has and DONE has arrived from every member; it takes
the place of the local barrier (R413, R415).  A SKIP advance that is due ends the step in its own way (R416). -/
def Dev.systemBarrier (d : Dev) (w : Nat) : Dev :=
  let x := d.wld w
  if x.ran && !x.done && !x.skip && d.allDone w then d.barrierEnd w else d

/-- The local barrier of the present step completes: the decoders run; then its Block and DONE to the manager, or at the
manager the system barrier (R138, R415). -/
def Dev.barrierDone (d : Dev) (n : Nv) (w : Nat) : Dev :=
  let step := (d.wld w).step
  let d := d.updWld w (fun x => { x with ran := true })
  if d.manages w then (d.decRun w).systemBarrier w
  else ((d.barrierEnd w).decRun w).tellDone n w step

/-- A SKIP advance ends the step (R143): counted, with the sequencer's arrival (R305) and the decoder run (R265), if the
decoders have not run yet. -/
def Dev.skipDone (d : Dev) (n : Nv) (w : Nat) : Dev :=
  let x := d.wld w
  let d := d.updWld w (fun x => { x with ran := true, done := true, phase := 0 })
  let d := (d.blkArrive x.barrier).wcount w wSkips 1
  (if x.ran then d else d.decRun w).tellDone n w x.step

/-- Quiescence is confirmed (R138): STEP_QUIET to the world's stations and streamers. -/
def Dev.quiescence (d : Dev) (n : Nv) (w : Nat) : Dev :=
  let x := d.wld w
  let ss := d.consistOf n w
  let d := (d.places w).foldl (fun d (p, m) =>
    d.updStn p (fun s => { s with quiet := s.quiet.set noNat m (some x.ext) })) d
  let d := ss.foldl (fun d s =>
    d.updStreamer s (fun y => { y with quiet := y.quiet.set (fun _ => none) w (some (x.ext, d.now)) })) d
  let d := d.updWld w (fun x => { x with quiescent := true, consist := ss, phase := if ss = [] then x.phase else 4 })
  if ss = [] then d.barrierDone n w else d

/-- Input of the open step closes (R136). -/
def Dev.closeInput (d : Dev) (w : Nat) : Dev :=
  d.updWld w (fun x => { x with inputOpen := false, phase := if x.inputOpen then 3 else x.phase })

/-- A SKIP advance becomes due (R143): input closes, and the streamers that have not ended get STEP_ABANDON. -/
def Dev.skipBegin (d : Dev) (n : Nv) (w : Nat) : Dev :=
  let x := d.wld w
  let ss := if x.quiescent then x.consist else d.consistOf n w
  let d := ss.foldl (fun d s => d.updStreamer s (fun y => { y with abandon := y.abandon ++ [(w, x.ext)] })) d
  let d := d.updWld w (fun x => { x with inputOpen := false, phase := 5, skip := true, atOnce := true, consist := ss })
  let d := d.tellMembers n w tkAbandon x.step 0
  if d.member w ∧ ss = [] then d.skipDone n w else d

/-! ### Boundaries (R130, R141) -/

/-- The overrun policy acts on a step that has become late (Table 6-3). -/
def Dev.overrun (d : Dev) (n : Nv) (w : Nat) : Dev :=
  let x := d.wld w
  if x.faulted then d
  else match x.policy with
    | 1 => d.skipBegin n w
    | 2 => d.worldFault n w 1
    | _ => if x.stretchMax = 0 then d.worldFault n w 2 else d

/-- The boundaries below `b` have passed without effect: the next step is due at none of them (R130). -/
def World.passTo (x : World) (b : Nat) : World :=
  { x with nextB := max x.nextB b, dueB := if x.nextB ≤ x.dueB then max x.dueB b else x.dueB }

/-- Boundary `nextB` of a live world passes; outside RUN, or while the world is held, it releases nothing. -/
def Dev.boundary (d : Dev) (n : Nv) (w : Nat) : Dev :=
  let x := d.wld w
  if !x.live || !d.reached x x.nextB then d
  else if d.pwrState ≠ 0 ∨ x.held then d.updWld w (fun x => x.passTo (x.nextB + 1))
  else
    let d := d.updWld w (fun x => { x with nextB := x.nextB + 1 })
    if d.member w ∨ x.free ∨ !x.started ∨ x.done ∨ x.skip then
      if x.skip ∧ !x.done ∧ !d.member w then d.wcount w wMissed 1 else d
    else
      let d := d.wcount w wMissed 1
      if x.late then d
      else
        let d := (d.wcount w wOverrun 1).overNote w
        (d.updWld w (fun x => { x with late := true })).overrun n w

/-- STEP_BOUNDARY (R141). -/
def execStepBoundary (w : Fin 4096) (s : State) : Host.Outcome State Fault Refusal :=
  onDev (fun n _ d => d.boundary n w) s

/-- The limit of STRETCH_MAX passes (R142). -/
def Dev.stretchLimit (d : Dev) (n : Nv) (w : Nat) : Dev :=
  let x := d.wld w
  if x.live && x.started && !x.done && x.policy == 0 && x.late && x.stretchMax != 0xFFFF && !x.held
      && !d.member w && !x.free && d.pwrState == 0 && d.reached x (x.dueB + x.stretchMax) then d.worldFault n w 2
  else d

def execStretchLimitExpiry (w : Fin 4096) (s : State) : Host.Outcome State Fault Refusal :=
  onDev (fun n _ d => d.stretchLimit n w) s

/-! ### Releases (R131) -/

/-- Whether the next step of a world may be released. -/
def Dev.releasable (d : Dev) (w : Nat) : Bool :=
  let x := d.wld w
  -- a member waits for the manager's RELEASE in place of the boundary and the barrier (R413)
  let ready := !x.started || x.done || (x.skip && x.consist == []) || d.member w
  let all := !d.manages w || !x.started || d.allDone w
  let due := if d.member w then x.pendRelease.isSome else x.free || decide (x.dueB < x.nextB) || (x.skip && x.atOnce)
  x.live && !x.held && !x.faulted && d.pwrState == 0 && x.bankEmpty && ready && all && due

/-- The stations of a world receive a release. -/
def Dev.releaseStations (d : Dev) (w t : Nat) (skip : Bool) : Dev :=
  (d.places w).foldl (fun d (p, m) =>
    (d.updStn p (fun s => { s with release := s.release.set (fun _ => none) m (some (t, skip)),
                                    opened := s.opened.set noOcc m false })).neState p 0 m true) d

/-- The encoder channels of a world begin to count their events afresh (R261). -/
def Dev.encNewStep (d : Dev) (w : Nat) : Dev :=
  (List.range 256).foldl (fun d e =>
    if d.f (R.XCH_ENC_CFG + 32 * e) 0 12 = w then { d with encCnt := d.encCnt.set zeroNat e 0 } else d) d

/-- Release the next step of a world. -/
def Dev.release (d : Dev) (n : Nv) (w : Nat) : Dev :=
  let x := d.wld w
  let d := if x.skip ∧ !x.done then d.skipDone n w else d
  let t := if x.started then (x.step + 1) % 65536 else 0
  let ext := if x.started then (x.ext + 1) % 2 ^ 32 else 0
  let d := d.updWld w (fun x => { x with
    step := t, ext := ext, started := true, ran := false, done := false, skip := false, late := false, dueB := x.nextB, phase := 1,
    cfg := d.wreg w wCfg, inputOpen := true, quiescent := false, bankEmpty := false, lastRead := [], consist := [],
    releasedAt := d.now, pendRelease := none, dones := [], reports := [], lastRound := none,
    -- a modulator injected before step 0 counts in it (R140)
    created := if x.started then x.created.set zeroNat (t % 2) 0 else x.created,
    consumed := if x.started then x.consumed.set zeroNat (t % 2) 0 else x.consumed,
    lost := if x.started then x.lost.set zeroNat (t % 2) 0 else x.lost })
  let d := (d.releaseStations w t x.skip).encNewStep w
  d.tellMembers n w tkRelease t 0

/-- A release of `w` goes out: it is due, and no world of lower ID is (R131; log entry 48). -/
def Dev.releaseNow (d : Dev) (w : Nat) : Bool := d.releasable w && !d.liveIds.any (fun v => decide (v < w) && d.releasable v)

/-- STEP_RELEASE (R131). -/
def execStepRelease (w : Fin 4096) (s : State) : Host.Outcome State Fault Refusal :=
  onDev (fun n _ d => if d.releaseNow w then d.release n w else d) s

/-! ### Injection (R136, R140, R146, R162) -/

/-- Take an injected copy to the edge table; none while an output has no room. -/
def Dev.injectCopy (d : Dev) (n : Nv) (c : Copy) : Option Dev :=
  let o := d.edgeLookup n c 0 false
  if d.edgeRoom o c.vc then some ((d.iCreated c 1).edgeOutputs n c o) else none

/-- A modulator broadcast of a world (R115, R140). -/
def modCopy (w t : Nat) (v : Half) (add : Bool) : Copy :=
  mkCopy (mkWord (w32 (w * 2 ^ 20)) v.toNat 0 false true add) (t % 4) 0

/-- A world has something to inject: a modulator in its latch, or with its input open the head of its queue, if that is no
vector whose currents are still to come (R140, R146, R254). -/
def World.injects (x : World) : Bool :=
  x.live && ((x.latch.isSome && (x.inputOpen || x.held))
    || (x.inputOpen && !x.held && x.queue.head?.any (fun q => match q with | .await _ => false | _ => true)))

/-- The world whose turn it is: the next in ascending ID, from `injNext` on, that has something to inject (R146). -/
def Dev.injectNext (d : Dev) : Option Nat :=
  let ws := d.liveIds.filter (fun w => (d.wld w).injects)
  (ws.find? (fun w => decide (d.injNext ≤ w))).or ws.head?

/-- INJECT_TURN (R146): at the world's turn, the modulator in the latch, else the head of the queue.  A turn whose copy finds
no room passes (log entry 48). -/
def Dev.injectTurn (d : Dev) (n : Nv) (w : Nat) : Dev :=
  if d.injectNext ≠ some w then d
  else
    let x := d.wld w
    let d := { d with injNext := w + 1 }
    let latched := if x.inputOpen || x.held then x.latch else none
    match latched with
    | some (v, add) =>
      match d.injectCopy n (modCopy w x.step v add) with
      | some d =>
        let d := d.updWld w (fun x => { x with latch := none })
        if d.manages w then
          d.toMembers n w (fun t => { t with a := w32 (v.toNat + if add then 65536 else 0) }) tkMod x.step
        else d
      | none => d
    | none =>
      if x.inputOpen && !x.held then
        match x.queue with
        | [] => d
        | .await _ :: _ => d
        | .mark :: rest =>
          let d := d.updWld w (fun x => { x with queue := rest })
          if x.markMode then d.closeInput w else d
        | .event word vc :: rest =>
          match d.injectCopy n (mkCopy word (x.step % 4) vc) with
          | some d => d.updWld w (fun x => { x with queue := rest })
          | none => d
      else d

def execInjectTurn (w : Fin 4096) (s : State) : Host.Outcome State Fault Refusal :=
  onIsl 4 0 (fun n _ d => d.injectTurn n w) s

/-- INPUT_CLOSE: under QUEUE, when nothing of the open step's input remains (R136).  A vector that a projection unit still
holds has its place in the queue (R260). -/
def Dev.inputClose (d : Dev) (w : Nat) : Dev :=
  let x := d.wld w
  if x.live && x.inputOpen && !x.markMode && d.allOpened w && x.queue == [] && x.latch.isNone then
    d.closeInput w
  else d

def execInputClose (w : Fin 4096) (s : State) : Host.Outcome State Fault Refusal :=
  onIsl 4 0 (fun _ _ d => d.inputClose w) s

/-! ### Credit reductions (R137, R414) -/

/-- One reading of a bank on this device. -/
def Dev.reading (d : Dev) (w b : Nat) : Reading :=
  let x := d.wld w
  let ps := d.places w
  { created := (ps.map (fun q => (d.sW q.1 (R.STN_CR_CREATED + 4 * (2 * q.2 + b))).toNat)).sum + x.created.get zeroNat b,
    consumed := (ps.map (fun q => (d.sW q.1 (R.STN_CR_CONSUMED + 4 * (2 * q.2 + b))).toNat)).sum + x.consumed.get zeroNat b,
    lost := (ps.map (fun q => d.lostOf q.1 q.2 b)).sum + x.lost.get zeroNat b,
    opened := d.allOpened w }

def Reading.sat (r : Reading) : Bool := decide (0xFFFFFFFF < r.created ∨ 0xFFFFFFFF < r.consumed ∨ 0xFFFFFFFF < r.lost)
def Reading.limit (r : Reading) : Reading :=
  { r with created := min r.created 0xFFFFFFFF, consumed := min r.consumed 0xFFFFFFFF, lost := min r.lost 0xFFFFFFFF }
/-- The reading allows the bank to be quiet. -/
def Reading.ok (r : Reading) : Bool := r.opened && decide (r.consumed ≤ r.created ∧ r.created - r.consumed ≤ r.lost)
/-- Two consecutive readings confirm it. -/
def Reading.agree (a b : Reading) : Bool := a.ok && b.ok && a.created == b.created && a.consumed == b.consumed

def noReading (_ : Nat) : Option Reading := none

/-- A bank has been confirmed: quiescence of the present step, or the empty bank of the next. -/
def Dev.confirmBank (d : Dev) (n : Nv) (w b : Nat) : Dev :=
  let x := d.wld w
  if b = x.step % 2 then
    if x.started && !x.inputOpen && !x.quiescent && !x.skip then
      (d.tellMembers n w tkQuiet x.step 0).quiescence n w
    else d
  else d.updWld w (fun x => { x with bankEmpty := true })

/-- A reduction of this device alone. -/
def Dev.reduceLocal (d : Dev) (n : Nv) (w b : Nat) : Dev :=
  let x := d.wld w
  let r := d.reading w b
  let q := r.limit
  let d := d.updWld w (fun x => { x with lastRead := x.lastRead.set noReading b (some q) })
  let d := if r.sat then d.worldFault n w 3 else d
  match x.lastRead.get noReading b with
  | some p => if p.agree q then d.confirmBank n w b else d
  | none => d

/-- FLAGS of a REPORT (Table 19-3), with the bank of the round in bit 4. -/
def Dev.reportFlags (d : Dev) (w b : Nat) (r : Reading) : Nat :=
  (if r.opened then 1 else 0) + (if (d.wld w).inputOpen then 0 else 2) + (if r.sat then 4 else 0) + 16 * b

/-- When every member has reported, a PROBE round is judged (R414). -/
def Dev.judgeRound (d : Dev) (n : Nv) (w : Nat) : Dev :=
  let x := d.wld w
  let b := match x.reports with | (_, _, _, _, f) :: _ => f / 16 | [] => 0
  if x.reports = [] ∨ !((d.otherMembers w).all (fun m => x.reports.any (fun q => q.1 == m))) then d
  else
    let c : Nat := (x.reports.map (fun q => q.2.1)).sum
    let k : Nat := (x.reports.map (fun q => q.2.2.1)).sum
    let l : Nat := (x.reports.map (fun q => q.2.2.2.1)).sum
    let sat := x.reports.any (fun q => q.2.2.2.2.testBit 2) || decide (0xFFFFFFFF < c ∨ 0xFFFFFFFF < k ∨ 0xFFFFFFFF < l)
    let closed := x.reports.all (fun q => q.2.2.2.2.testBit 1)
    let good := x.reports.all (fun q => q.2.2.2.2.testBit 0) && decide (k ≤ c ∧ c - k ≤ l)
      && (closed || b != x.step % 2)
    let d := if sat then d.worldFault n w 3 else d
    let d := d.updWld w (fun x => { x with reports := [], lastRound := if good then some (b, c, k) else none })
    if good ∧ x.lastRound = some (b, c, k) then d.confirmBank n w b else d

/-- A PROBE round begins at the manager, with its own reading. -/
def Dev.probeRound (d : Dev) (n : Nv) (w b : Nat) : Dev :=
  let x := d.wld w
  let r := d.reading w b
  let q := r.limit
  let rnd := (x.round + 1) % 65536
  let d := d.updWld w (fun x => { x with
    round := rnd, reports := [(d.device, q.created, q.consumed, q.lost, d.reportFlags w b r)] })
  let d := d.toMembers n w (fun t => { t with round := rnd, flags := b }) tkProbe x.step
  d.judgeRound n w

/-- CREDIT_REDUCTION (R137): of the present bank once its input has closed, or of the next step's bank. -/
def Dev.reduce (d : Dev) (n : Nv) (w b : Nat) : Dev :=
  let x := d.wld w
  let present := decide (b = x.step % 2)
  if !x.live || !x.started || (present && (x.inputOpen || x.quiescent || x.skip)) then d
  else if d.manages w then d.probeRound n w b
  else if d.member w && present then d
  else d.reduceLocal n w b

def execCreditReduction (w : Fin 4096) (bank : Fin 2) (s : State) : Host.Outcome State Fault Refusal :=
  onIsl 4 0 (fun n _ d => d.reduce n w bank) s

/-! ### Notices (R134) -/

/-- CONSUMPTION_NOTICE: the oldest one arrives. -/
def Dev.consumptionNotice (d : Dev) : Dev :=
  match d.notices.findIdx? Option.isSome with
  | none => d
  | some i =>
    let d' := { d with notices := d.notices.eraseIdx i }
    match d.notices[i]? with
    | some (some (w, b)) => d'.xchConsumed w b 1
    | _ => d'

def execConsumptionNotice (s : State) : Host.Outcome State Fault Refusal :=
  onIsl 4 0 (fun _ _ d => d.consumptionNotice) s

/-- LOSS_NOTICE: the oldest one arrives. -/
def Dev.lossNotice (d : Dev) : Dev :=
  match d.notices.findIdx? Option.isNone with
  | none => d
  | some i => { d with notices := d.notices.eraseIdx i }.xchLostAll

def execLossNotice (s : State) : Host.Outcome State Fault Refusal :=
  onIsl 4 0 (fun _ _ d => d.lossNotice) s

/-! ### Edges (R160, R163, R164, R171) -/

/-- An edge table under march test holds its copies back (R287). -/
def Dev.edgeTested (d : Dev) (c : Copy) : Bool := d.testing 3 (fld c.key 20 2)

/-- WEST_EDGE_ARRIVAL (R163). -/
def execWestEdgeArrival (row : Fin 48) (vc : Fin 4) (err : LinkError) (s : State) : Host.Outcome State Fault Refusal :=
  onIsl 4 0 (fun n _ d =>
    if (d.ebuf 0 row vc).head?.any (fun c => d.edgeTested (c.hit err)) then d else d.westArrival n row vc err) s

/-- The number of an edge among the edge routers: 1 east, 2 north, 3 south. -/
def edgeNo : Edge → Nat
  | .east => 1 | .north => 2 | .south => 3

/-- OFF_GRID_ARRIVAL (R160). -/
def execOffGridArrival (edge : Edge) (q : Fin 48) (vc : Fin 4) (err : LinkError) (s : State) :
    Host.Outcome State Fault Refusal :=
  onDev (fun n _ d => d.offGrid (edgeNo edge) q vc err |>.injectAllX n) s

/-- EAST_EDGE_THRU (R164). -/
def execEastEdgeThru (row : Fin 48) (vc : Fin 4) (err : LinkError) (s : State) : Host.Outcome State Fault Refusal :=
  onDev (fun n _ d => d.eastThru n row vc err |>.injectAllX n) s

/-! ### The end of consists (R186, R138) -/

/-- CONSIST_END arrives at the Interchange. -/
def Dev.consistEnd (d : Dev) (n : Nv) (s w : Nat) : Dev :=
  if !(d.streamer s).ends.contains w then d
  else
    let d := d.updStreamer s (fun y => { y with ends := y.ends.erase w })
    let d := d.updWld w (fun x => { x with consist := x.consist.filter (· != s) })
    let x := d.wld w
    if !x.live || x.ran || x.consist != [] then d
    else if x.skip then (if d.member w then d.skipDone n w else d)
    else if x.quiescent then d.barrierDone n w
    else d

/-- CONSIST_END_ARRIVAL (R186). -/
def execConsistEndArrival (str : Fin 12) (w : Fin 4096) (s : State) : Host.Outcome State Fault Refusal :=
  onIsl 4 0 (fun n _ d => d.consistEnd n str w) s

end Sys2Proof.Machine
end

