-- ==== Sys2Proof/Machine/Timers.lean ====
section
/-! DEFINITION. Timer channels (chapter 15): ticks, period and compare events, captures, commands, commits and make-up. -/

namespace Sys2Proof.Machine

def tmr (r c : Nat) : Nat := r + 0x40 * c

/-! ### Settings (Tables 15-1, 15-2) -/

/-- MODE: 0 FREE, 1 PERIODIC, 2 ONE_SHOT. -/
def Dev.tmode (d : Dev) (c : Nat) : Nat := match d.f (tmr R.TMR_CFG c) 30 2 with | 0 => 0 | 2 => 2 | _ => 1
def Dev.tsrc (d : Dev) (c : Nat) : Nat := let s := d.f (tmr R.TMR_CFG c) 27 3; if 5 < s then 4 else s
def Dev.tpin (d : Dev) (c : Nat) : Nat := d.f (tmr R.TMR_CFG c) 21 4
def Dev.tomode (d : Dev) (c : Nat) : Nat := d.f (tmr R.TMR_CFG c) 10 2
/-- D of the prescaler. -/
def Dev.tdiv (d : Dev) (c : Nat) : Nat := let p := d.rd (tmr R.TMR_PRESC c); if fld p 16 16 = 0 then 65536 else p.toNat
/-- PERIOD as a number, 0 acting as 2^64. -/
def perOf (p : BitVec 64) : Nat := if p = 0 then 2 ^ 64 else p.toNat
/-- Frozen by a debug halt (R324). -/
def Dev.frozen (d : Dev) (c : Nat) : Bool :=
  bit (d.rd (tmr R.TMR_CFG c)) 16 && (List.range 8).any (fun n => bit (d.rd R.TMR_DBG) n && (d.core n).halted)
def Dev.updTimer (d : Dev) (c : Nat) (f : Timer → Timer) : Dev := d.setTimer c (f (d.timer c))

/-! ### Events (R320, R321, R326) -/

/-- The events of one moment: period, compare, wrap, capture. -/
structure TEvents where
  per : Bool
  cmp : Bool
  wrap : Bool
  cap : Bool
deriving DecidableEq, Repr

/-- Set the flags of a moment's events, move the output, and raise the source once if one of them is enabled. -/
def Dev.tevents (d : Dev) (c : Nat) (tick : Bool) (e : TEvents) : Dev :=
  let cfg := d.rd (tmr R.TMR_CFG c)
  let st := d.rd (tmr R.TMR_STATUS c)
  let st := if e.per then (if bit st 1 then setBit st 3 true else setBit st 1 true) else st
  let st := if e.cmp then setBit st 6 true else st
  let st := if e.wrap then setBit st 4 true else st
  let st := if e.cap then (if bit st 0 then setBit st 2 true else setBit st 0 true) else st
  let d := d.wr (tmr R.TMR_STATUS c) st
  let d := d.updTimer c (fun t => { t with
    out := match d.tomode c with
    | 0 => false
    | 1 => if e.per then !t.out else t.out
    | 2 => if e.per then false else if e.cmp then true else t.out
    | _ => if e.per then true else if tick then false else t.out })
  if (e.per && bit cfg 4) || (e.cap && bit cfg 5) || (e.cmp && bit cfg 6) || (e.wrap && bit cfg 7) then d.irq1 c else d

def TEvents.none : TEvents := { per := false, cmp := false, wrap := false, cap := false }

/-- What the next tick of a channel does: the new timer and its events (R316, R320). -/
def Timer.tick (t : Timer) (mode : Nat) : Timer × TEvents :=
  if mode = 0 then
    let n := t.count + 1
    ({ t with count := n }, { TEvents.none with cmp := n == t.cmp, wrap := n == 0 })
  else if perOf t.period ≤ t.count.toNat + 1 then
    ({ t with count := 0, period := t.perShadow.getD t.period, perShadow := none, running := t.running && mode != 2 },
     { TEvents.none with per := true, cmp := t.cmp == 0 })
  else ({ t with count := t.count + 1 }, { TEvents.none with cmp := t.count + 1 == t.cmp })

/-- The channel counts: it runs, the device is in RUN, no power state stopped it, and it is not frozen.  One that START starts
outside RUN counts from the return on, with nothing to make up (log entry 53). -/
def Dev.tcounts (d : Dev) (c : Nat) : Bool := (d.timer c).running && d.pwrState == 0 && !(d.timer c).slept && !d.frozen c

/-- The tick that an input event makes, if it makes one (R317).  Where A has room for several, after a write that lowers D, one is
counted: a channel takes at most one in an SBOX cycle, and the others are lost (R316, log entry 53). -/
def Dev.tnext (d : Dev) (c : Nat) : Option (Timer × TEvents) :=
  let t := d.timer c
  if d.tcounts c && decide (d.tdiv c ≤ t.acc + 65536) then
    some (({ t with acc := (t.acc + 65536) % d.tdiv c }).tick (d.tmode c))
  else none

/-- The output that OMODE 3 holds high for one tick falls after that tick's input events, the channel stopped or not (R320). -/
def Dev.tfall (d : Dev) (c : Nat) : Dev :=
  let t := d.timer c
  if t.running || d.pwrState != 0 || d.tomode c != 3 || !t.out then d
  else if d.tdiv c ≤ t.acc + 65536 then d.setTimer c { t with acc := (t.acc + 65536) % d.tdiv c, out := false }
  else d.setTimer c { t with acc := t.acc + 65536 }

/-- An input event. -/
def Dev.tinput (d : Dev) (c : Nat) : Dev :=
  if !d.tcounts c then d.tfall c
  else match d.tnext c with
    | some (t, e) => (d.setTimer c t).tevents c true e
    | none => d.updTimer c (fun t => { t with acc := t.acc + 65536 })

/-- TIMER_TICK (R316). -/
def execTimerTick (c : Fin 32) (s : State) : Host.Outcome State Fault Refusal := onIsl 3 11 (fun _ _ d => d.tinput c) s

/-- TIMER_PERIOD_EVENT (R316): the input event whose tick reaches PERIOD. -/
def execTimerPeriodEvent (c : Fin 32) (s : State) : Host.Outcome State Fault Refusal :=
  onIsl 3 11 (fun _ _ d => if (d.tnext c).any (fun q => q.2.per) then d.tinput c else d) s

/-- TIMER_COMPARE (R320): the input event whose tick makes COUNT equal CMP. -/
def execTimerCompare (c : Fin 32) (s : State) : Host.Outcome State Fault Refusal :=
  onIsl 3 11 (fun _ _ d => if (d.tnext c).any (fun q => q.2.cmp) then d.tinput c else d) s

/-- TIMER_WRAP (R316): the input event whose tick passes the top. -/
def execTimerWrap (c : Fin 32) (s : State) : Host.Outcome State Fault Refusal :=
  onIsl 3 11 (fun _ _ d => if (d.tnext c).any (fun q => q.2.wrap) then d.tinput c else d) s

/-- Whether an edge selection takes an edge: 1 rising, 2 falling, 3 both. -/
def capEdge (sel : Nat) (rising : Bool) : Bool := sel == 3 || (sel == 1 && rising) || (sel == 2 && !rising)

/-- A capture with no read in its cycle (R321). -/
def Dev.tcapture (d : Dev) (c : Nat) : Dev :=
  (d.updTimer c (fun t =>
    match t.capShadow with
    | some _ => { t with capShadow := some t.count }
    | none => { t with cap := t.count })).tevents c false { TEvents.none with cap := true }

/-- TIMER_CAPTURE_EDGE (R321). -/
def execTimerCaptureEdge (c : Fin 32) (rising : Bool) (s : State) : Host.Outcome State Fault Refusal :=
  onIsl 3 11 (fun _ _ d => if capEdge (d.f (tmr R.TMR_CFG c) 19 2) rising then d.tcapture c else d) s

/-- What a filtered edge of pin `p` does at the channels that count or capture on it (R317, R321). -/
def Dev.tpinEdge (d : Dev) (p : Nat) (rising : Bool) : Dev :=
  (List.range 32).foldl (fun d c =>
    if d.tpin c ≠ p then d
    else
      let sel := d.f (tmr R.TMR_CFG c) 25 2
      let d := if d.tsrc c = 5 ∧ (sel = 2 ∨ (if sel = 1 then !rising else rising)) then d.tinput c else d
      if capEdge (d.f (tmr R.TMR_CFG c) 19 2) rising then d.tcapture c else d) d

/-! ### Commands (R322, R325) -/

/-- A write that R325 refuses. -/
def Dev.trefuse (d : Dev) (c : Nat) : Dev := d.orBits (tmr R.TMR_STATUS c) (2 ^ 5)

def Dev.tstart (d : Dev) (c : Nat) : Dev :=
  d.updTimer c (fun t => { t with count := t.phase, acc := 0, running := true, slept := false })
def Dev.tstop (d : Dev) (c : Nat) : Dev :=
  if (d.timer c).step then d.trefuse c else d.updTimer c (fun t => { t with running := false, slept := false })
def Dev.treload (d : Dev) (c : Nat) : Dev :=
  if (d.timer c).step then d.trefuse c else d.updTimer c (fun t => { t with count := t.phase })

/-- TMR_CAPTURE (R321). -/
def execTmrCapture (c : Fin 32) (s : State) : Host.Outcome State Fault Refusal :=
  onDev (fun _ _ d => d.cmdAt (tmr R.TMR_CTRL c) (fun d => d.tcapture c)) s
/-- TMR_START (R322). -/
def execTmrStart (c : Fin 32) (s : State) : Host.Outcome State Fault Refusal :=
  onDev (fun _ _ d => d.cmdAt (tmr R.TMR_CTRL c) (fun d => d.tstart c)) s
/-- TMR_STOP (R322, R325). -/
def execTmrStop (c : Fin 32) (s : State) : Host.Outcome State Fault Refusal :=
  onDev (fun _ _ d => d.cmdAt (tmr R.TMR_CTRL c) (fun d => d.tstop c)) s
/-- TMR_RELOAD (R322, R325). -/
def execTmrReload (c : Fin 32) (s : State) : Host.Outcome State Fault Refusal :=
  onDev (fun _ _ d => d.cmdAt (tmr R.TMR_CTRL c) (fun d => d.treload c)) s

/-- The channels of a mask. -/
def maskChans (v : Word) : List Nat := onesBelow 32 v.toNat

/-- TMR_GSTART (R322). -/
def execTmrGstart (v : Word) (s : State) : Host.Outcome State Fault Refusal :=
  onDev (fun _ _ d => d.cmdAt R.TMR_GSTART (fun d => (maskChans v).foldl (fun d c => d.tstart c) d)) s
/-- TMR_GSTOP (R322, R325). -/
def execTmrGstop (v : Word) (s : State) : Host.Outcome State Fault Refusal :=
  onDev (fun _ _ d => d.cmdAt R.TMR_GSTOP (fun d => (maskChans v).foldl (fun d c => d.tstop c) d)) s

/-- The phases of a staggered group. -/
def Dev.tstagger (d : Dev) (v : Word) : Dev :=
  let cs := maskChans v
  (cs.zipIdx).foldl (fun (d : Dev) (c, j) =>
    d.updTimer c (fun t => { t with phase := BitVec.ofNat 64 (j * perOf t.period / cs.length) })) d

/-- TMR_GSTAGGER (R322). -/
def execTmrGstagger (v : Word) (s : State) : Host.Outcome State Fault Refusal :=
  onDev (fun _ _ d => d.cmdAt R.TMR_GSTAGGER (fun d => d.tstagger v)) s

/-! ### Commits (R318 to R321) -/

def hiReg : TmrReg → Nat
  | .count => R.TMR_COUNT_HI | .period => R.TMR_PERIOD_HI | .phase => R.TMR_PHASE_HI | .cmp => R.TMR_CMP_HI

/-- A master's staging register for a channel: one for all four quantities (R318), held at the address of COUNT's HI word. -/
def stageReg (c : Nat) : Nat := tmr R.TMR_COUNT_HI c

/-- TMR_HI_STAGE (R318). -/
def execTmrHiStage (m : Master) (r : TmrReg) (c : Fin 32) (v : Word) (s : State) : Host.Outcome State Fault Refusal :=
  onDev (fun n _ d => d.writeGate n m (tmr (hiReg r) c) (fun d => d.mwr m (stageReg c) v)) s

/-- Take a master's staged HI word together with a LO word. -/
def Dev.tcommit (d : Dev) (m : Master) (c : Nat) (lo : Word) : BitVec 64 × Dev :=
  (word64 (d.mrd m (stageReg c)) lo, d.mwr m (stageReg c) 0)

/-- A commit of COUNT or CMP that makes them equal is a compare event (R320). -/
def Dev.tequal (d : Dev) (c : Nat) : Dev :=
  let t := d.timer c
  if t.count = t.cmp then d.tevents c false { TEvents.none with cmp := true } else d

def Dev.tcountCommit (d : Dev) (m : Master) (c : Nat) (v : Word) : Dev :=
  if (d.timer c).step then d.trefuse c
  else
    let (x, d) := d.tcommit m c v
    (d.updTimer c (fun t => { t with count := x })).tequal c

/-- TMR_COUNT_COMMIT (R318, R325). -/
def execTmrCountCommit (m : Master) (c : Fin 32) (v : Word) (s : State) : Host.Outcome State Fault Refusal :=
  onDev (fun n _ d => d.writeGate n m (tmr R.TMR_COUNT_LO c) (fun d => d.tcountCommit m c v)) s

/-- The table of R319. -/
def Dev.tperiodCommit (d : Dev) (m : Master) (c : Nat) (v : Word) : Dev :=
  let (p, d) := d.tcommit m c v
  let t := d.timer c
  if !t.running ∨ d.tmode c = 0 then d.setTimer c { t with period := p, perShadow := none }
  else if !bit (d.rd (tmr R.TMR_CFG c)) 18 then d.setTimer c { t with perShadow := some p }
  else if t.count.toNat < perOf p then d.setTimer c { t with period := p, perShadow := none }
  else
    (d.setTimer c { t with period := p, perShadow := none, count := 0, running := d.tmode c != 2 }).tevents c false
      { TEvents.none with per := true }

/-- TMR_PERIOD_COMMIT (R319). -/
def execTmrPeriodCommit (m : Master) (c : Fin 32) (v : Word) (s : State) : Host.Outcome State Fault Refusal :=
  onDev (fun n _ d => d.writeGate n m (tmr R.TMR_PERIOD_LO c) (fun d => d.tperiodCommit m c v)) s

def Dev.tphaseCommit (d : Dev) (m : Master) (c : Nat) (v : Word) : Dev :=
  let (x, d) := d.tcommit m c v
  d.updTimer c (fun t => { t with phase := x })
def Dev.tcmpCommit (d : Dev) (m : Master) (c : Nat) (v : Word) : Dev :=
  let (x, d) := d.tcommit m c v
  (d.updTimer c (fun t => { t with cmp := x })).tequal c

/-- TMR_PHASE_COMMIT (R318). -/
def execTmrPhaseCommit (m : Master) (c : Fin 32) (v : Word) (s : State) : Host.Outcome State Fault Refusal :=
  onDev (fun n _ d => d.writeGate n m (tmr R.TMR_PHASE_LO c) (fun d => d.tphaseCommit m c v)) s

/-- TMR_CMP_COMMIT (R320). -/
def execTmrCmpCommit (m : Master) (c : Fin 32) (v : Word) (s : State) : Host.Outcome State Fault Refusal :=
  onDev (fun n _ d => d.writeGate n m (tmr R.TMR_CMP_LO c) (fun d => d.tcmpCommit m c v)) s

/-- A read of TMR_CAP_LO, with or without a capture in its cycle (R321); the high word is latched (R31). -/
def Dev.tcapRead (d : Dev) (m : Master) (c : Nat) (capture : Bool) : Word × Dev :=
  let t := d.timer c
  if capture then
    let d := d.setTimer c { t with capShadow := some t.count }
    let cfg := d.rd (tmr R.TMR_CFG c)
    let d := d.orBits (tmr R.TMR_STATUS c) 1
    let d := if bit cfg 5 then d.irq1 c else d
    (loWord t.cap, d.latch m (tmr R.TMR_CAP_HI c) (hiWord t.cap))
  else
    let v := t.capShadow.getD t.cap
    let d := (d.setTimer c { t with cap := v, capShadow := none }).andNot (tmr R.TMR_STATUS c) 1
    (loWord v, d.latch m (tmr R.TMR_CAP_HI c) (hiWord v))

/-- TMR_CAP_READ (R321). -/
def execTmrCapRead (m : Master) (c : Fin 32) (capture : Bool) (s : State) : Host.Outcome State Fault Refusal :=
  onDev (fun n _ d => d.readGate n m (tmr R.TMR_CAP_LO c) (fun d => d.tcapRead m c capture)) s

/-- A write of TMR_CFG: refused whole for a step timer if it names a MODE other than FREE (R325); OMODE 0 holds the output low
(R320). -/
def Dev.tcfgWrite (d : Dev) (c : Nat) (v : Word) : Dev :=
  if (d.timer c).step ∧ fld v 30 2 ≠ 0 then d.trefuse c
  else
    let d := d.upd (tmr R.TMR_CFG c) (fun o => accWrite 0xFFFFFCF0 0 0 o v)
    if d.tomode c = 0 then d.updTimer c (fun t => { t with out := false }) else d

/-- TMR_STATUS as read (Table 15-3). -/
def Dev.tstatus (d : Dev) (c : Nat) : Word :=
  let t := d.timer c
  setBit (setBit (setBit (setBit (d.rd (tmr R.TMR_STATUS c)) 11 t.perShadow.isSome) 10 (d.frozen c)) 9 t.step) 8
    (t.running && !t.slept && d.pwrState == 0)

/-! ### Sleep (R323) and step timers (R325) -/

/-- Every running channel stops counting. -/
def Dev.timersSleep (d : Dev) : Dev :=
  { d with timers := d.timers.map (fun q => (q.1, { q.2 with slept := q.2.running })) }

/-- Advance a channel by `k` ticks in one act; one that stops at its period event passes no count beyond it. -/
def Dev.tadvance (d : Dev) (c k : Nat) : Dev :=
  let t := d.timer c
  let n := t.count.toNat
  let reach := fun (top : Nat) => decide (n < t.cmp.toNat ∧ t.cmp.toNat ≤ n + k ∧ t.cmp.toNat < top) || decide (top + t.cmp.toNat ≤ n + k)
  if d.tmode c = 0 then
    (d.setTimer c { t with count := BitVec.ofNat 64 (n + k) }).tevents c false
      { TEvents.none with wrap := decide (2 ^ 64 ≤ n + k), cmp := reach (2 ^ 64) }
  else
    let p := perOf t.period
    if n + k < p then
      (d.setTimer c { t with count := BitVec.ofNat 64 (n + k) }).tevents c false { TEvents.none with cmp := reach (2 ^ 65) }
    else if d.tmode c = 2 then
      (d.setTimer c { t with count := 0, running := false, period := t.perShadow.getD t.period, perShadow := none }).tevents c
        false { TEvents.none with per := true, cmp := decide ((n < t.cmp.toNat ∧ t.cmp.toNat < p) ∨ t.cmp = 0) }
    else
      let q := t.perShadow.getD t.period
      let last := (n + k) % perOf q
      -- CMP is met below the old period, below the new one once the old has passed, or at the count that the advance reaches
      let met := decide (n < t.cmp.toNat ∧ t.cmp.toNat < p ∨ t.cmp.toNat < perOf q ∧ p + t.cmp.toNat ≤ n + k ∨ last = t.cmp.toNat)
      let d := d.setTimer c { t with count := BitVec.ofNat 64 last, period := q, perShadow := none }
      let d := d.tevents c false { TEvents.none with per := true, cmp := met }
      if 2 * p ≤ n + k then d.orBits (tmr R.TMR_STATUS c) (2 ^ 3) else d

/-- At the return to RUN: make up `us` microseconds of ANCLK where MAKEUP asks for it, and count again. -/
def Dev.timersWake (d : Dev) (us : Nat) (halfMhz : Nat → Nat) : Dev :=
  (List.range 32).foldl (fun d c =>
    let t := d.timer c
    if !t.slept then d
    else
      let d := d.setTimer c { t with slept := false }
      if !bit (d.rd (tmr R.TMR_CFG c)) 17 ∨ d.tsrc c = 5 ∨ d.frozen c then d
      else
        let x := t.acc + us * (if d.tsrc c = 4 then 2 else halfMhz (d.tsrc c)) * 32768
        let d := d.updTimer c (fun t => { t with acc := x % d.tdiv c })
        d.tadvance c (x / d.tdiv c)) d

/-- At GO a channel becomes the step timer of a live world (R325). -/
def Dev.tclaim (d : Dev) (c : Nat) : Dev :=
  let d := d.setF (tmr R.TMR_CFG c) 30 2 0
  let d := if (d.timer c).running then d else d.tstart c
  d.updTimer c (fun t => { t with step := true })

def Dev.tfreeAll (d : Dev) : Dev := { d with timers := d.timers.map (fun q => (q.1, { q.2 with step := false })) }

end Sys2Proof.Machine
end

