-- ==== Sys2Proof/Machine/Power.lean ====
section
/-! DEFINITION. Fabric voltage, power states, pins that wake or interrupt, and temperature (R310, R347 to R352). -/

namespace Sys2Proof.Machine

/-! ### Fabric voltage (R347) -/

/-- CONFIRMED. -/
def Dev.vfabNow (d : Dev) : Nat := d.f R.PWR_VFAB_STATE 0 10
/-- STEP as it acts. -/
def Dev.vfabUnit (d : Dev) : Nat := let u := d.f R.PWR_VFAB_CFG 16 6; if 5 ≤ u ∧ u ≤ 50 then u else 25

/-- Set a flag of PWR_VFAB_STATE: 27 DENIED, 28 ALERT, 29 CLAMP, 30 ERR. -/
def Dev.vfabFlag (d : Dev) (k : Nat) : Dev := ((d.orBits R.PWR_VFAB_STATE (2 ^ k)).irq1 103).alert 4

/-- The movement ends: its request and its grant are gone. -/
def Dev.vfabStop (d : Dev) : Dev :=
  { (d.andNot R.PWR_VFAB_STATE (2 ^ 31)).tokStop rqAvs with
    vfab := { d.vfab with stepTo := none, waiting := false, retries := 0 } }

/-- The movement stops for want of a grant. -/
def Dev.vfabDenied (d : Dev) : Dev := d.vfabStop.vfabFlag 27

/-- The next step toward the goal, or the end of the movement. -/
def Dev.vfabNext (d : Dev) : Dev :=
  let now := d.vfabNow
  let goal := d.vfab.goal
  if goal = now then d.vfabStop
  else if goal < now then
    { d with vfab := { d.vfab with stepTo := some (max goal (now - d.vfabUnit)), waiting := false, retries := 0 } }
  else
    let (d, ok) := d.tokAsk rqAvs
    if ok then { d with vfab := { d.vfab with stepTo := some (min goal (now + d.vfabUnit)), waiting := true, retries := 0 } }
    else d.vfabDenied

/-- Move VDD_FAB to a goal; a step that is being made is finished first, one that waits for its grant while the goal is lower
than before it is given up. -/
def Dev.vfabMove (d : Dev) (goal : Nat) : Dev :=
  let d := { d.orBits R.PWR_VFAB_STATE (2 ^ 31) with vfab := { d.vfab with goal := goal } }
  match d.vfab.stepTo with
  | some t =>
    if !d.vfab.waiting then d
    else if goal < t then ({ d.tokWithdraw rqAvs with vfab := { d.vfab with stepTo := none, waiting := false } } : Dev).vfabNext
    else d
  | none => d.vfabNext

/-- A write of PWR_VFAB_TARGET. -/
def Dev.vfabTarget (d : Dev) (v : Word) : Dev :=
  let t := fld v 0 10
  let goal := max 450 (min 850 t)
  let d := d.wr R.PWR_VFAB_TARGET (w32 goal)
  (if goal = t then d else d.vfabFlag 29).vfabMove goal

def execVfabTargetWrite (v : Word) (s : State) : Host.Outcome State Fault Refusal := onDev (fun _ _ d => d.vfabTarget v) s

/-- The regulator reports ready; `mv` is read back. -/
def Dev.vfabReady (d : Dev) (mv : Nat) : Dev :=
  match d.vfab.stepTo with
  | none => d
  | some dest =>
    if d.vfab.waiting then d
    else
      let d := (d.setF R.PWR_VFAB_STATE 0 10 mv).tokReturn rqAvs
      let d := { d with vfab := { d.vfab with stepTo := none, retries := 0 } }
      if dest = d.vfab.goal then d.vfabStop else d.vfabNext

def execVfabStepReady (mv : BitVec 10) (s : State) : Host.Outcome State Fault Refusal :=
  onDev (fun _ _ d => d.vfabReady mv.toNat) s

/-- A step is being made: it has its grant, or needs none. -/
def Dev.vfabStepping (d : Dev) : Bool := d.vfab.stepTo.isSome && !d.vfab.waiting

/-- A frame that fails, one of the telemetry among them, is retried up to 3 times; then, or when the ready status of a step stays
away for 50 µs, ERR stops the movement. -/
def Dev.vfabTimeout (d : Dev) (frame : Bool) : Dev :=
  if !frame ∧ !d.vfabStepping then d
  else if frame && decide (d.vfab.retries < 3) then { d with vfab := { d.vfab with retries := d.vfab.retries + 1 } }
  else d.vfabStop.vfabFlag 30

def execVfabReadyTimeout (frame : Bool) (s : State) : Host.Outcome State Fault Refusal :=
  onDev (fun _ _ d => d.vfabTimeout frame) s

def execAvsAlert (s : State) : Host.Outcome State Fault Refusal := onDev (fun _ _ d => d.vfabFlag 28) s

/-- Vout and Iout, read while no step runs. -/
def Dev.vfabMeasure (d : Dev) (vout iout : Nat) : Dev :=
  if d.vfabStepping then d
  else { d.wr R.PWR_VFAB_MEAS (w32 (iout * 65536 + vout)) with vfab := { d.vfab with retries := 0 } }

def execVfabTelemetry (vout iout : BitVec 10) (s : State) : Host.Outcome State Fault Refusal :=
  onDev (fun _ _ d => d.vfabMeasure vout.toNat iout.toNat) s

/-! ### Entering SLEEP and DEEP (R349) -/

/-- A request of the transport is unanswered: one of class B or C in progress, one of class C that waits, or an answer that has
not left (R349). -/
def Dev.hostOwed (d : Dev) : Bool :=
  d.link.jobs != [] || d.link.waitC != [] || d.link.waitR != [] || d.words.any (fun x => x.host.isSome)
    || (d.sys.ra.get (fun _ => none) Master.transport.idx).isSome

/-- Why a request is refused, 0 if it is not. -/
def Dev.pwrRefuse (d : Dev) (target : Nat) : Nat :=
  if d.pwrState ≠ 0 ∨ bit (d.rd R.PWR_STATE) 28 ∨ bit (d.rd R.PWR_STATE) 29 then 6
  else if d.worldIds.any d.active then 1
  else if d.tok.grants ≠ [] then 2
  else if d.f R.QNT_STATUS 0 3 ≠ 0 ∨ d.f R.MBT_STATUS 0 3 ≠ 0 ∨ bit (d.rd R.SYS_RST_STATUS) 31
      ∨ (bit (d.rd R.SYS_BOOT_STAGE) 28 ∧ (d.boot.rerun = some 6 ∨ d.f R.SYS_BOOT_STAGE 0 4 = 6)) then 3
  else if target = 2 ∧ (d.hostOwed ∨ d.link.held ≠ [] ∨ d.rings.any (fun q => q.2.waiting != [])) then 4
  else 0

/-- A request for SLEEP (1) or DEEP (2). -/
def Dev.pwrRequest (d : Dev) (target : Nat) : Dev :=
  let why := d.pwrRefuse target
  let d := d.setF R.PWR_STATE 8 8 why
  if why = 0 then { d.orBits R.PWR_STATE (2 ^ 28) with pwr := { d.pwr with target := target, since := d.now } } else d

def execPwrSleepReq (s : State) : Host.Outcome State Fault Refusal := onDev (fun _ _ d => d.pwrRequest 1) s
def execPwrDeepReq (s : State) : Host.Outcome State Fault Refusal := onDev (fun _ _ d => d.pwrRequest 2) s

/-- A firmware session that entry to DEEP or CANCEL ends (R384): its slot keeps an erased header. -/
def Dev.fwuFail (d : Dev) (reason : Nat) : Dev :=
  let d := ((d.setF R.FWU_STATUS 0 3 0).setF R.FWU_STATUS 8 8 reason).orBits R.FWU_STATUS (2 ^ 31 + 2 ^ 30)
  { d.irq1 105 with fwu := d.fwu.clear }

/-- Every core that is not held in reset is in WFI. -/
def Dev.coresIdle (d : Dev) : Bool := (List.range 8).all (fun n => !(d.core n).running || (d.core n).wfi)

/-- The state asked for is entered (Table 16-8). -/
def Dev.pwrEnter (d : Dev) : Dev :=
  if !bit (d.rd R.PWR_STATE) 28 || !d.coresIdle then d
  else
    let t := d.pwr.target
    let d := d.wr R.PWR_STATE (w32 (t * 2 ^ 30))
    let d := { d.timersSleep with pwr := { d.pwr with since := d.now, linked := bit (d.rd R.XCH_LINK_STATUS) 31 } }
    if t = 2 then
      let d : Dev := (((d.upd R.CLK_STATUS (fun w => setFld w 0 4 0)).clkStops).vfabMove 450).linkLost true
      if d.f R.FWU_STATUS 0 3 ≠ 0 ∧ d.f R.FWU_STATUS 0 3 ≠ 5 then d.fwuFail 10 else d
    else d

def execPwrStateEntry (s : State) : Host.Outcome State Fault Refusal := onDev (fun _ _ d => d.pwrEnter) s

/-- The cores were not all in WFI within 1 ms. -/
def Dev.pwrGiveUp (d : Dev) : Dev :=
  if bit (d.rd R.PWR_STATE) 28 then (d.andNot R.PWR_STATE (2 ^ 28)).setF R.PWR_STATE 8 8 5 else d

def execPwrEntryTimeout (s : State) : Host.Outcome State Fault Refusal := onDev (fun _ _ d => d.pwrGiveUp) s

/-! ### The return to RUN (R350) -/

/-- Twice the rate of each timer tap in MHz (Table 16-1). -/
def tapHalfMhz (src : Nat) : Nat := [500, 750, 600, 275].getD src 0

/-- A core in WFI resumes at the instruction after it. -/
def Dev.coresResume (d : Dev) : Dev :=
  (List.range 8).foldl (fun (d : Dev) n =>
    if (d.core n).wfi then d.updCore n (fun c => { c with wfi := false, pc := c.pc + 4 }) else d) d

/-- The mainband trains again after DEEP (R350).  No operand of the wake says how: which modules train, and the host's rate,
are free (log entry 51). -/
def Dev.trainFree (d : Dev) : Dev :=
  let (w, d) := d.freeWord
  let tr : TrainOutcome := { modulesX64 := BitVec.ofNat 4 (fld w 0 4), modulesX32 := BitVec.ofNat 4 (fld w 4 4),
                             repaired := BitVec.ofNat 4 (fld w 8 4), hostRate := BitVec.ofNat 2 (fld w 12 2) }
  d.wr R.XCH_LINK_STATUS ((d.trainStatus tr).getD 0)

/-- What the return does, in order.  A link that was not there before DEEP does not train; `pwr.linked` says whether it was. -/
def Dev.pwrReturn (d : Dev) (cause : Nat) : Dev :=
  let deep := d.pwrState == 2
  let us := (d.now - d.pwr.since) / 100
  let d := (d.setF R.PWR_STATE 30 2 0).orBits R.PWR_STATE (2 ^ cause)
  let d := if deep then (d.vfabMove (d.f R.PWR_VFAB_TARGET 0 10)).pllsLock else d
  let d := if deep && d.pwr.linked then d.trainFree else d
  let d := (d.timersWake us tapHalfMhz).coresResume
  -- a line that stayed high drives the interrupt bit of a core that has its clock again (R313)
  let d := (List.range 8).foldl (fun (d : Dev) t => if d.irq.line.getLsbD t then d.coreLine t else d) d
  -- boundaries that the make-up reaches passed outside RUN: they release nothing and count toward nothing (R130)
  d.liveIds.foldl (fun (d : Dev) w => d.updWld w (fun x => x.passTo (d.nextBoundary x))) d

/-- Pin `p` may wake the device: in DEEP only through a filter that uses ANCLK (R350). -/
def Dev.pinWakes (d : Dev) (p : Nat) : Bool :=
  bit (d.rd R.PWR_WAKE_PINS) p && (d.pwrState != 2 || bit (d.rd (R.IRQ_PIN_CFG + 4 * p)) 10)

/-- Link `k` is kept up in SLEEP, or listens for a wake in SLEEP or DEEP (Table 16-3). -/
def Dev.linkListens (d : Dev) (k : Nat) : Bool :=
  bit (d.rd ((if d.pwrState = 2 then R.CLK_EN_DEEP else R.CLK_EN_SLEEP) + 8)) k

/-- Whether a cause returns the device from its present state (Table 16-9). -/
def Dev.wakes (d : Dev) (cause : Nat) : Bool :=
  d.pwrState != 0 && !bit (d.rd R.PWR_STATE) 29 && (cause == 0 || bit (d.rd R.PWR_WAKE_EN) cause) && (cause != 1 || d.pwrState == 1)
    && (cause != 2 || d.rd R.PWR_WAKE_TIME != 0) && (cause != 3 || (List.range 16).any d.pinWakes)
    && (cause != 4 || d.pwrState == 1 || (List.range 8).any d.linkListens) && decide (cause < 7)

def Dev.wake (d : Dev) (cause : Nat) : Dev := if d.wakes cause then d.pwrReturn cause else d

/-- The neighbour on link `k` wakes the device (R421): in DEEP only where the link's branch listens. -/
def Dev.wakeLink (d : Dev) (k : Nat) : Dev := if d.pwrState = 2 && !d.linkListens k then d else d.wake 4

def execPwrWakeReq (s : State) : Host.Outcome State Fault Refusal := onDev (fun _ _ d => d.wake 0) s
def execWakeCauseEvent (cause : Fin 7) (s : State) : Host.Outcome State Fault Refusal := onDev (fun _ _ d => d.wake cause) s
def execPwrWakeTimeExpiry (s : State) : Host.Outcome State Fault Refusal := onDev (fun _ _ d => d.wake 2) s

/-! ### Pins (R310, R431) -/

/-- The level of a GPIO pin, by its function; EXTEST drives the pins from bits [15:0] of the boundary-scan register (R436). -/
def Dev.pinRaw (d : Dev) (p : Nat) : Bool :=
  let out := bit (d.rd R.PIN_OUT) p
  if d.jtag.drives then d.jtag.bscan.getLsbD p
  else match d.f (R.PIN_CFG + 4 * p) 0 2 with
  | 0 => d.pins.getLsbD p
  | 1 => out
  | 2 => (List.range 32).any (fun c => d.f (tmr R.TMR_CFG c) 12 4 == p && d.tomode c != 0 && (d.timer c).out)
  | _ => out && d.pins.getLsbD p

/-- The device itself sets the level of pin `p`: by EXTEST, as an output or a timer's, or as an open drain held low. -/
def Dev.pinDriven (d : Dev) (p : Nat) : Bool :=
  let func := d.f (R.PIN_CFG + 4 * p) 0 2
  d.jtag.drives || func == 1 || func == 2 || (func == 3 && !bit (d.rd R.PIN_OUT) p)

/-- A filter's output changes: the source, the timers and the wake (R310, R317, R321, R350). -/
def Dev.pinChange (d : Dev) (p : Nat) (level : Bool) : Dev :=
  if d.irq.pinOut.getLsbD p == level then d
  else
    let flip : BitVec 16 := 1#16 <<< p
    let q := d.irq.pinOut &&& ~~~flip ||| (if level then flip else 0)
    let r := d.pins &&& ~~~flip ||| (if level then flip else 0)
    let d := { d with irq := { d.irq with pinOut := q }, pins := if d.pinDriven p then d.pins else r }
    let mode := d.f (R.IRQ_PIN_CFG + 4 * p) 8 2
    let raised := if mode = 0 ∨ mode = 2 then level else !level
    let d := if raised ∧ 2 ≤ mode then d.irq1 (32 + p) else d
    let d := d.tpinEdge p level
    if raised && d.pinWakes p then d.wake 3 else d

/-- PIN_EDGE (R310): a pin that the device drives shows its own level alone (R431). -/
def execPinEdge (p : Fin 16) (level : Bool) (s : State) : Host.Outcome State Fault Refusal :=
  onDev (fun _ _ d => if d.pinDriven p && level != d.pinRaw p then d else d.pinChange p level) s

/-- The samples of a filter after which its output follows the pin, in idle steps of 10 ns: cycles of ANCLK at 1 MHz, or of SBOX
at 1 GHz (R310). -/
def Dev.pinSteps (d : Dev) (p : Nat) : Nat :=
  let cfg := d.rd (R.IRQ_PIN_CFG + 4 * p)
  let filt := max 1 (fld cfg 0 8)
  if bit cfg 10 then 100 * filt else (filt + 9) / 10

/-- The filter of pin `p` samples the pin for one idle step: a level that the device drives reaches its output, the source, the
timers and the wake as one from the board does (R310, R431). -/
def Dev.pinSample (d : Dev) (p : Nat) : Dev :=
  let seen := d.irq.pinSeen.get zeroNat p
  let put := fun (d : Dev) (k : Nat) => { d with irq := { d.irq with pinSeen := d.irq.pinSeen.set zeroNat p k } }
  if d.pinRaw p = d.irq.pinOut.getLsbD p then put d 0
  else if !bit (d.rd (R.IRQ_PIN_CFG + 4 * p)) 10 && !d.branchOn 3 10 then d
  else if seen + 1 < d.pinSteps p then put d (seen + 1)
  else (put d 0).pinChange p (d.pinRaw p)

/-- Some filter is at work. -/
def Dev.pinsMove (d : Dev) : Bool :=
  d.irq.pinSeen != [] || (List.range 16).any (fun p => d.pinRaw p != d.irq.pinOut.getLsbD p)

def Dev.pinsSample (d : Dev) : Dev := (List.range 16).foldl (fun (d : Dev) p => d.pinSample p) d

/-- IRQ_PIN_CFG_WRITE (R310): a change restarts the filter from the pin's present level and raises no event. -/
def Dev.pinCfgWrite (d : Dev) (p : Nat) (v : Word) : Dev :=
  let old := d.rd (R.IRQ_PIN_CFG + 4 * p)
  if accWrite 0x7FF 0 0 old v = old then d else
  let flip : BitVec 16 := 1#16 <<< p
  let q := d.irq.pinOut &&& ~~~flip ||| (if d.pinRaw p then flip else 0)
  { d.upd (R.IRQ_PIN_CFG + 4 * p) (fun o => accWrite 0x7FF 0 0 o v) with
    irq := { d.irq with pinOut := q, pinSeen := d.irq.pinSeen.set zeroNat p 0 } }

def execIrqPinCfgWrite (m : Master) (p : Fin 16) (v : Word) (s : State) : Host.Outcome State Fault Refusal :=
  onDev (fun n _ d => d.writeGateFor n m (R.IRQ_PIN_CFG + 4 * p) (irqClosed none) (fun d => d.pinCfgWrite p v)) s

/-! ### Temperature (R351, R352) -/

/-- A sensor's reading in units of 0.25 °C. -/
def tempOf (t : Nat) : Int := sext 12 t

/-- The hottest sensor, the first of those that are equal: its number and reading. -/
def hottest (temps : List Nat) : Nat × Nat :=
  match temps with
  | [] => (0, 0)
  | t :: ts => (ts.zipIdx.foldl (fun (b : Nat × Nat) (x, i) => if tempOf b.2 < tempOf x then (i + 1, x) else b) (0, t))

/-- THERMAL_TRIP. -/
def Dev.trip (d : Dev) : Dev :=
  if bit (d.rd R.PWR_STATE) 29 then d else ((d.orBits R.PWR_STATE (2 ^ 29)).alert 1).vfabMove 450

/-- PWR_TEMP_MAX has changed: WARN and its event. -/
def Dev.warnCheck (d : Dev) (t : Int) : Dev :=
  let limit : Int := 4 * (d.f R.PWR_THERM_CFG 0 8 : Nat)
  if bit (d.rd R.PWR_THERM_STATE) 31 then
    if t ≤ limit - 20 then d.andNot R.PWR_THERM_STATE (2 ^ 31) else d
  else if limit ≤ t then (((d.orBits R.PWR_THERM_STATE (2 ^ 31 + 2 ^ 30)).irq1 101).alert 0).wake 6
  else d

def Dev.tempTake (d : Dev) (temps : List Nat) : Dev :=
  let d := temps.zipIdx.foldl (fun (d : Dev) (t, k) => d.wr (R.PWR_TEMP + 4 * k) (w32 t)) d
  let h := hottest temps
  let d := (d.wr R.PWR_TEMP_MAX (w32 (h.1 * 65536 + h.2))).warnCheck (tempOf h.2)
  if 460 ≤ tempOf h.2 then d.trip else d

/-- TEMP_SAMPLE: the readings of sensors 0 to 63. -/
def execTempSample (temps : List (BitVec 12)) (s : State) : Host.Outcome State Fault Refusal :=
  onDev (fun _ _ d => if temps.length = 64 then d.tempTake (temps.map (·.toNat)) else d) s

end Sys2Proof.Machine
end

