-- ==== Sys2Proof/Machine/Quantiser.lean ====
section
/-! DEFINITION. The quantiser (R212 to R223): statistics and scales, conversion, pages and matrices, and its jobs. -/

namespace Sys2Proof.Machine

/-! ### Scales (R214, R215) -/

/-- The stored scale of SCALE_KIND 0: rounded toward +infinity onto the FP16 grid, with whether it was clipped. -/
def scaleUp16 (v : FVal) : Nat × Bool :=
  match v with
  | .fin _ m _ =>
    if m = 0 then (1, false)
    else
      let c := fp16.conv v none
      if c.sat then (0x7BFF, true)
      else
        let k := if (fp16.decode c.code).le v && !(fp16.decode c.code).eq v then c.code + 1 else c.code
        if 0x7BFF < k then (0x7BFF, true) else (max 1 k, false)
  | _ => (0x7BFF, true)

/-- The stored scale of SCALE_KIND 1: the exponent 127 + ⌈log₂ v⌉. -/
def scaleUp8 (v : FVal) : Nat × Bool :=
  match v with
  | .fin _ m e =>
    if m = 0 then (0, false)
    else
      let l : Int := (m.log2 : Int) + e + (if m = 2 ^ m.log2 then 0 else 1)
      let x := 127 + l
      if 254 < x then (254, true) else (x.toNat, false)
  | _ => (254, true)

def scaleUp (kind : Nat) (v : FVal) : Nat × Bool := if kind = 0 then scaleUp16 v else scaleUp8 v
/-- ONE of R214. -/
def scaleOne (kind : Nat) : Nat := if kind = 0 then 0x3C00 else 127

/-- The scale and zero point of a group, with the count of a clipped scale. -/
structure GroupParam where
  scale : Nat
  zero : Int
  sat : Nat
deriving DecidableEq, Repr

def GroupParam.word (g : GroupParam) : Word := w32 (g.scale + ((g.zero % 256 + 256) % 256).toNat * 65536)
def GroupParam.value (kind : Nat) (g : GroupParam) : FVal := groupScale kind g.word

def FVal.finite : FVal → Bool
  | .fin _ _ _ => true
  | _ => false
def FVal.abs : FVal → FVal
  | .fin _ m e => .fin false m e
  | .inf _ => .inf false
  | .nan n => .nan n
def fvMax (a b : FVal) : FVal := if a.le b then b else a
def fvMin (a b : FVal) : FVal := if a.le b then a else b

def Fmt.isUint : Fmt → Bool
  | .uint _ => true
  | _ => false

/-- Round to an integer, ties to even. -/
def rneInt (v : FVal) : Int := (convInt (-(2 ^ 200 : Nat)) (2 ^ 200 : Nat) v none).1

/-- The function group_params of R214. -/
def groupParams (f : Fmt) (asym : Bool) (kind : Nat) (xs : List FVal) : GroupParam :=
  let g := xs.filter FVal.finite
  let one : GroupParam := { scale := scaleOne kind, zero := 0, sat := 0 }
  let a := (g.map FVal.abs).foldl fvMax .zero
  let plain := fun (v : FVal) =>
    let (s, c) := scaleUp kind v
    ({ scale := s, zero := 0, sat := if c then 1 else 0 } : GroupParam)
  if g = [] then one
  else match f with
    | .fp p => if a.isZero then one else plain (fdiv a (p.decode p.maxCode))
    | _ =>
      if f.isUint || asym then
        let lo := g.foldl fvMin .zero
        let hi := g.foldl fvMax .zero
        let range := fsub hi lo
        if range.isZero then one
        else
          let p := plain (fdiv range (.ofInt (f.hi - f.lo)))
          let z := f.lo - rneInt (fdiv lo (p.value kind))
          { p with zero := if f.isUint then max 0 (min 255 z) else max (-128) (min 127 z) }
      else if a.isZero then one
      else plain (fdiv a (.ofInt f.hi))

/-! ### Conversion (R216, R217) -/

/-- Counts and generator of a conversion in progress. -/
structure Quant where
  rng : Word
  sat : Nat
  nan : Nat
deriving DecidableEq, Repr

/-- The zero code of R216.  Where z lies outside the code range of WFMT (after a scale that was clipped) the spec says z and no more:
the low bits of z are stored (DESIGN CHOICE, log entry 55). -/
def zeroCode (f : Fmt) (z : Int) : Nat := if f.isInt then ((z % (2 ^ f.bits : Nat)).toNat) else 0

/-- What a stored code counts in the sums: signed for INTn, unsigned for UINTn (R219). -/
def codeInt (f : Fmt) (c : Nat) : Int := if f.isUint then (c : Int) else sext f.bits c

/-- The function convert of R216, with the code's value for the sums. -/
def convert (f : Fmt) (s : FVal) (z : Int) (rnd : Bool) (q : Quant) (x : FVal) : Nat × Int × Quant :=
  if x.isNan then (zeroCode f z, codeInt f (zeroCode f z), { q with nan := q.nan + 1 })
  else
    let v := fdiv x s
    let draw := rnd && v.finite
    let rng := if draw then xorshift q.rng else q.rng
    let r := if draw then some (rng.toNat / 65536) else none
    match f with
    | .fp p =>
      let c := p.conv v r
      (c.code, 0, { rng := rng, sat := q.sat + (if c.sat then 1 else 0), nan := q.nan + (if c.nan then 1 else 0) })
    | _ =>
      let (k, ovf, _) := convInt (-(2 ^ 200 : Nat)) (2 ^ 200 : Nat) v r
      let k' := k + z
      let limited := ovf || decide (k' < f.lo ∨ f.hi < k')
      let c := max f.lo (min f.hi k')
      ((c % (2 ^ f.bits : Nat)).toNat, c, { q with rng := rng, sat := q.sat + (if limited then 1 else 0) })

/-! ### A job (R212, R213, R221) -/

/-- The job registers. -/
structure QJob where
  src : Nat
  rows : Nat
  cols : Nat
  stride : Nat
  srcFmt : Nat
  wfmt : Nat
  kind : Nat
  gsize : Nat
  gmode : Nat
  scaleKind : Nat
  asym : Bool
  rnd : Bool
  sumEn : Bool
  dst : Nat
  grp : Nat
  sum : Nat
  page0 : Nat
  psb : Nat
  psr : Nat
  pdelay : Nat
  pcols : Nat
  tag : Nat
deriving DecidableEq, Repr

/-- An address held in a LO and a HI register. -/
def Dev.addr40 (d : Dev) (lo : Nat) : Nat := (d.rd lo).toNat + d.f (lo + 4) 0 8 * 2 ^ 32

def Dev.qjob (d : Dev) : QJob :=
  let f := d.rd R.QNT_FMT
  { src := d.addr40 R.QNT_SRC_LO, rows := d.f R.QNT_SHAPE 16 16 + 1, cols := d.f R.QNT_SHAPE 0 12 + 1,
    stride := (d.rd R.QNT_STRIDE).toNat, srcFmt := fld f 28 4, wfmt := fld f 24 4, kind := fld f 23 1, gsize := fld f 21 2,
    gmode := fld f 19 2, scaleKind := fld f 18 1, asym := bit f 17, rnd := bit f 16, sumEn := bit f 15,
    dst := d.addr40 R.QNT_DST_LO, grp := d.addr40 R.QNT_GRP_LO, sum := d.addr40 R.QNT_SUM_LO,
    page0 := d.f R.QNT_PAGE0 0 25, psb := d.f R.QNT_PSTRIDE 16 16, psr := d.f R.QNT_PSTRIDE 0 16,
    pdelay := d.f R.QNT_PAGE_CFG 24 5, pcols := d.f R.QNT_PAGE_CFG 0 12, tag := (d.rd R.QNT_TAG).toNat }

def QJob.elem (j : QJob) : Nat := if j.srcFmt = 0xE then 4 else 2
def QJob.fmt (j : QJob) : Fmt := fmtOf j.wfmt
def QJob.nb (j : QJob) : Nat := (j.rows + 63) / 64
def QJob.ncr (j : QJob) : Nat := (j.cols + j.pcols - 1) / max 1 j.pcols
def QJob.srcLen (j : QJob) : Nat := (j.rows - 1) * j.stride + j.cols * j.elem
def QJob.groups (j : QJob) : Nat := if j.gmode = 0 then j.rows else if j.gmode = 1 then j.cols else 1
def QJob.codeBytes (j : QJob) : Nat := (j.rows * j.cols + 3) / 4 * 4
/-- Block and column range of page number `k`, and its page index. -/
def QJob.pageOf (j : QJob) (k : Nat) : Nat := j.page0 + k / max 1 j.ncr * j.psb + k % max 1 j.ncr * j.psr

/-- A range lies wholly in Depot memory or in the usable GDDR6 window (R212). -/
def Dev.rangeOk (d : Dev) (n : Nv) (a len : Nat) : Bool :=
  decide (a + len ≤ 0x1000000) || decide (gddrBase ≤ a ∧ a + len ≤ gddrBase + d.gddrSize n)

def overlaps (a n b m : Nat) : Bool := decide (a < b + m ∧ b < a + n)

/-- The words a page of R175 takes. -/
def pageWords (gsize cols width : Nat) : Nat :=
  4 + (if gsize = 3 then 1 else (64 * cols + 32 * 2 ^ gsize - 1) / (32 * 2 ^ gsize)) + (64 * cols * width + 31) / 32

/-- The REASON of the first check that fails, zero when none does (R222, Table 10-3). -/
def Dev.qntCheck (d : Dev) (n : Nv) (j : QJob) : Nat :=
  let wOk := if j.kind = 0 then decide (j.wfmt < 14) else (j.wfmt == 4 || j.wfmt == 6 || j.wfmt == 10 || j.wfmt == 11)
  let outs := (if j.kind = 0 then [] else [(j.dst, j.codeBytes), (j.grp, 4 * j.groups)])
    ++ (if j.sumEn then [(j.sum, 4 * (j.rows + j.cols))] else [])
  let pages := if j.kind = 0 then (List.range (j.nb * j.ncr)).map (fun k => (gddrBase + 4096 * j.pageOf k, 4096)) else []
  if j.srcFmt < 12 ∨ 14 < j.srcFmt then 1
  else if !wOk || (j.sumEn && !j.fmt.isInt) then 2
  else if j.src % j.elem ≠ 0 ∨ j.stride % j.elem ≠ 0 ∨ j.stride < j.cols * j.elem then 3
  else if j.kind = 0 ∧ (j.pcols = 0 ∨ 1024 < pageWords j.gsize j.pcols j.fmt.bits
      ∨ ¬ ((1 ≤ j.psr ∧ j.psr * j.ncr ≤ j.psb) ∨ (1 ≤ j.psb ∧ j.psb * j.nb ≤ j.psr))) then 4
  else if !(d.rangeOk n j.src j.srcLen) || outs.any (fun q => q.1 % 4 != 0 || !d.rangeOk n q.1 q.2)
      || pages.any (fun q => !d.rangeOk n q.1 q.2) then 5
  else if (outs ++ pages).any (fun q => overlaps j.src j.srcLen q.1 q.2) then 6
  else 0

/-! ### Elements, pages, matrices -/

/-- Bytes of a device address: of Depot memory, or gathered from GDDR6. -/
def fetchBytes (m : Mem) (g : Gather) (a len : Nat) : List Byte :=
  if a < 0x1000000 then readBytes zeroByte m.depot a len else readBytes zeroByte g.got a len

/-- Element (r, c) of the source (R212). -/
def QJob.element (j : QJob) (m : Mem) (g : Gather) (r c : Nat) : FVal :=
  (fmtOf j.srcFmt).value (leNat (fetchBytes m g (j.src + r * j.stride + c * j.elem) j.elem))

/-- Pack codes of `w` bits, first code lowest, into bytes. -/
def packCodes (w : Nat) (cs : List Nat) : Nat := (cs.foldr (fun c acc => c % 2 ^ w + acc * 2 ^ w) 0)

/-- A code stored for an element of the tensor: its row and column, the code, and its value for the sums. -/
structure Stored where
  row : Nat
  col : Nat
  code : Nat
  val : Int
deriving DecidableEq, Repr

def zeroInt (_ : Nat) : Int := 0
/-- Add stored codes to the sums: columns first, then rows (R219). -/
def addSums (cols : Nat) (acc : PMap Int) (xs : List Stored) : PMap Int :=
  xs.foldl (fun a x =>
    let a := a.set zeroInt x.col (a.get zeroInt x.col + x.val)
    a.set zeroInt (cols + x.row) (a.get zeroInt (cols + x.row) + x.val)) acc

/-- The entries of page `k`: each an element (row, column) or padding, in ascending entry index. -/
def QJob.pageEntries (j : QJob) (k : Nat) : List (Option (Nat × Nat)) :=
  let b := k / max 1 j.ncr
  let r := k % max 1 j.ncr
  let cols := min j.pcols (j.cols - r * j.pcols)
  (List.range (64 * cols)).map (fun i =>
    let row := 64 * b + i / max 1 cols
    if row < j.rows then some (row, r * j.pcols + i % max 1 cols) else none)

/-- Cut a list into groups of `n`. -/
def groupsOf {α : Type} (n : Nat) : Nat → List α → List (List α)
  | 0, _ => []
  | fuel + 1, l => if l.isEmpty then [] else l.take n :: groupsOf n fuel (l.drop n)

/-- The entries of page `k` by groups. -/
def QJob.pageGroups (j : QJob) (k : Nat) : List (List (Option (Nat × Nat))) :=
  let es := j.pageEntries k
  groupsOf (if j.gsize = 3 then es.length else 32 * 2 ^ j.gsize) es.length es

/-- The first pass over page `k`: the scale and zero point of each group. -/
def QJob.pageParams (j : QJob) (m : Mem) (g : Gather) (k : Nat) : List GroupParam :=
  (j.pageGroups k).map (fun grp =>
    groupParams j.fmt j.asym j.scaleKind (grp.filterMap (fun e => e.map (fun rc => j.element m g rc.1 rc.2))))

/-- The second pass over page `k` with the group words of the first: its 4,096 bytes, the stored codes, and the counts. -/
def QJob.page (j : QJob) (m : Mem) (g : Gather) (ps : List Word) (q : Quant) (k : Nat) : List Byte × List Stored × Quant :=
  let f := j.fmt
  let step := fun (acc : List Nat × List Stored × Quant) (grp : List (Option (Nat × Nat)) × Word) =>
    let (cs, ss, q) := acc
    let s := groupScale j.scaleKind grp.2
    let z := zeroPoint f grp.2
    let (cs', ss', q) := grp.1.foldl (fun (a : List Nat × List Stored × Quant) e =>
      match e with
      | none => (a.1 ++ [zeroCode f z], a.2.1, a.2.2)
      | some (r, c) =>
        let (code, v, q) := convert f s z j.rnd a.2.2 (j.element m g r c)
        (a.1 ++ [code], a.2.1 ++ [{ row := r, col := c, code := code, val := v }], q)) ([], [], q)
    (cs ++ cs', ss ++ ss', q)
  let (cs, ss, q) := ((j.pageGroups k).zip ps).foldl step ([], [], q)
  let cols := min j.pcols (j.cols - k % max 1 j.ncr * j.pcols)
  let w0 := w32 (j.wfmt * 2 ^ 28 + j.gsize * 2 ^ 26 + j.scaleKind * 2 ^ 25 + j.pdelay * 2 ^ 20 + cols)
  let head := wordBytes w0 ++ wordBytes (w32 (j.tag + k)) ++ [0, 0, 0, 0]
  let rest := (ps.map wordBytes).flatten
    ++ leBytes ((64 * cols * f.bits + 31) / 32 * 4) (packCodes f.bits cs)
  let rest := rest ++ List.replicate (4080 - rest.length) 0
  (head ++ wordBytes (crc32c (head ++ [0, 0, 0, 0] ++ rest)) ++ rest, ss, q)

/-- The group of element (r, c) of a matrix (Table 10-1). -/
def QJob.groupOf (j : QJob) (r c : Nat) : Nat := if j.gmode = 0 then r else if j.gmode = 1 then c else 0

/-- The elements of a matrix, row-major. -/
def QJob.elements (j : QJob) : List (Nat × Nat) :=
  (List.range j.rows).flatMap (fun r => (List.range j.cols).map (fun c => (r, c)))

/-- The first pass of a KIND 1 job. -/
def QJob.matrixParams (j : QJob) (m : Mem) (g : Gather) : List GroupParam :=
  (List.range j.groups).map (fun k => groupParams j.fmt j.asym j.scaleKind
    ((j.elements.filter (fun e => j.groupOf e.1 e.2 == k)).map (fun e => j.element m g e.1 e.2)))

/-- The second pass of a KIND 1 job: code bytes, stored codes, and the counts. -/
def QJob.matrix (j : QJob) (m : Mem) (g : Gather) (ps : List Word) (q : Quant) : List Byte × List Stored × Quant :=
  let f := j.fmt
  let (ss, q) := j.elements.foldl (fun (a : List Stored × Quant) e =>
    let w := ps.getD (j.groupOf e.1 e.2) 0
    let (code, v, q) := convert f (groupScale j.scaleKind w) (zeroPoint f w) j.rnd a.2 (j.element m g e.1 e.2)
    (a.1 ++ [{ row := e.1, col := e.2, code := code, val := v }], q)) ([], q)
  let cs := ss.map (fun x => BitVec.ofNat 8 x.code)
  (cs ++ List.replicate (j.codeBytes - cs.length) 0, ss, q)

/-- The bytes of the sums (R219). -/
def QJob.sumBytes (j : QJob) (acc : PMap Int) : List Byte :=
  ((List.range (j.cols + j.rows)).map (fun i => leBytes 4 ((acc.get zeroInt i % (2 ^ 32 : Nat)).toNat))).flatten

/-! ### Running a job (R222, R223) -/

def Dev.qntState (d : Dev) : Nat := d.f R.QNT_STATUS 0 3
def Dev.setQntState (d : Dev) (s : Nat) : Dev := d.setF R.QNT_STATUS 0 3 s

/-- A job ends with a REASON: DONE, and ERROR unless it completed; the grant is returned and source 67 raised. -/
def Dev.qntEnd (d : Dev) (reason : Nat) : Dev :=
  let d := ((d.setQntState 0).setF R.QNT_STATUS 8 8 reason).orBits R.QNT_STATUS (2 ^ 17 + if reason = 0 then 0 else 2 ^ 18)
  (({ d with qnt := Qnt.init }.tokWithdraw rqQnt).tokReturn rqQnt).irq1 67

/-- QNT_START (R222). -/
def Dev.qntStart (d : Dev) (n : Nv) : Dev :=
  if d.qntState ≠ 0 then d.orBits R.QNT_STATUS (2 ^ 19)
  else
    let r := d.qntCheck n d.qjob
    let d := d.wr R.QNT_PROGRESS 0
    if r ≠ 0 then d.qntEnd r
    else
      let d := d.setQntState 2
      let (d, ok) := d.tokAsk rqQnt
      if ok then d else d.qntEnd 7

/-- A READ or WRITE of GDDR6 for the quantiser or a projection unit, cut at 4 KiB (R203). -/
def Dev.gddrReqs (d : Dev) (n : Nv) (owner : Owner) (wr : Bool) (a : Nat) (len : Nat) (bytes : List Byte) : List FReq :=
  (splitAt4K a len).filterMap (fun q => (d.endpointOf n q.1).map (fun e =>
    { ep := epHost, typ := if wr then pWrite else pRead, dst := e, addr := q.1, rdst := 0, rcount := if wr then 0 else q.2,
      data := (bytes.drop (q.1 - a)).take (if wr then q.2 else 0), owner := owner, place := 0, rdev := none }))

/-- The word-aligned cover of a range. -/
def alignCover (a len : Nat) : Nat × Nat := (a / 4 * 4, (a + len + 3) / 4 * 4 - a / 4 * 4)

/-- Read what the Interchange DMA needs from Depot memory: an uncorrectable word is a fatal freight error of the unit
(R279). -/
def xdmaScan (x : Mem × Dev) (a len : Nat) : Bool × (Mem × Dev) :=
  if depotSize ≤ a then (true, x)
  else
    let (ok, (m, d)) := depotScan x a len
    (ok, (m, if ok then d else d.frtFatal epHost))

/-- The source ranges that one pass reads: the rows of page `k`, or of the whole tensor for KIND 1 (R212, R220). -/
def QJob.passRanges (j : QJob) (k : Nat) : List (Nat × Nat) :=
  if j.kind = 0 then
    let b := k / max 1 j.ncr
    let c := k % max 1 j.ncr * j.pcols
    (List.range (min 64 (j.rows - 64 * b))).map (fun i =>
      (j.src + (64 * b + i) * j.stride + c * j.elem, min j.pcols (j.cols - c) * j.elem))
  else (List.range j.rows).map (fun r => (j.src + r * j.stride, j.cols * j.elem))

/-- Begin pass `p` of the page or tensor in hand: what lies in GDDR6 is asked of Freight. -/
def Dev.qntRead (d : Dev) (n : Nv) (p : Nat) : Dev :=
  let j := d.qjob
  let reqs := if j.src < depotSize then []
    else (j.passRanges (d.rd R.QNT_PROGRESS).toNat).flatMap (fun r =>
      let (a, l) := alignCover r.1 r.2
      d.gddrReqs n .qnt false a l [])
  { d.setQntState (3 + p) with qnt := { d.qnt with gather := { Gather.init with left := reqs.length }, pass := p } }.ask n reqs

/-- What lies in Depot memory is read where it stands, as a pass comes to it: whether no word failed (R279). -/
def QJob.scan (j : QJob) (k : Nat) (x : Mem × Dev) : Bool × (Mem × Dev) :=
  if j.src < depotSize then
    (j.passRanges k).foldl (fun (a : Bool × (Mem × Dev)) r => let (ok, y) := xdmaScan a.2 r.1 r.2; (a.1 && ok, y)) (true, x)
  else (true, x)

/-- The grant has come: the first pass begins (R222). -/
def Dev.qntGranted (d : Dev) (n : Nv) : Dev := { d with qnt := Qnt.init }.qntRead n 0

/-- Count in QNT_SAT and QNT_NAN. -/
def Dev.qntCount (d : Dev) (q : Quant) : Dev :=
  ((d.count R.QNT_SAT q.sat R.QNT_STATUS 31).count R.QNT_NAN q.nan R.QNT_STATUS 30).wr R.QNT_RNG q.rng

/-- Carry out the writes that wait, in order: into Depot memory at once, into GDDR6 one range at a time. -/
def Dev.qntWrites (n : Nv) : Nat → Mem × Dev → Mem × Dev
  | 0, s => s
  | fuel + 1, (m, d) =>
    match d.qnt.todo with
    | [] => (m, d)
    | (a, bs) :: rest =>
      let d := { d with qnt := { d.qnt with todo := rest } }
      if a < 0x1000000 then Dev.qntWrites n fuel (m.depotPut a bs, d)
      else
        let reqs := d.gddrReqs n .qnt true a bs.length bs
        (m, { d with qnt := { d.qnt with out := reqs.length } }.ask n reqs)

/-- The sums wait to be written, when the job asks for them (R222). -/
def Dev.qntSums (d : Dev) (j : QJob) : Dev :=
  let d := d.setQntState 5
  if j.sumEn then { d with qnt := { d.qnt with todo := [(j.sum, j.sumBytes d.qnt.acc)] } } else d

/-- The first pass has been read: the scales stand, and the second pass begins. -/
def Dev.qntStats (d : Dev) (n : Nv) (j : QJob) (m : Mem) (k : Nat) : Dev :=
  let ps := if j.kind = 0 then j.pageParams m d.qnt.gather k else j.matrixParams m d.qnt.gather
  let d := d.qntCount { rng := d.rd R.QNT_RNG, sat := (ps.map (·.sat)).sum, nan := 0 }
  { d with qnt := { d.qnt with params := ps.map GroupParam.word } }.qntRead n 1

/-- The second pass has been read: codes are formed and wait to be written. -/
def Dev.qntCodes (d : Dev) (j : QJob) (m : Mem) (k : Nat) : Dev :=
  let q := d.qnt
  let c0 : Quant := { rng := d.rd R.QNT_RNG, sat := 0, nan := 0 }
  let (todo, ss, c) := if j.kind = 0 then
      let (bs, ss, c) := j.page m q.gather q.params c0 k
      ([(gddrBase + 4096 * j.pageOf k, bs)], ss, c)
    else
      let (cs, ss, c) := j.matrix m q.gather q.params c0
      ([(j.dst, cs), (j.grp, (q.params.map wordBytes).flatten)], ss, c)
  let d := d.qntCount c
  let d := if j.kind = 0 then d else d.wr R.QNT_PROGRESS (w32 j.rows)
  { d with qnt := { d.qnt with pass := 2, acc := addSums j.cols q.acc ss, todo := todo } }

/-- What was formed has been written: the next page, or the sums. -/
def Dev.qntNext (d : Dev) (n : Nv) (j : QJob) (k : Nat) : Dev :=
  if j.kind = 0 then
    let d := d.wr R.QNT_PROGRESS (w32 (k + 1))
    if d.qnt.cancel then d.qntEnd 9
    else if k + 1 < j.nb * j.ncr then d.qntRead n 0
    else d.qntSums j
  else d.qntSums j

/-- What a job is about to write touches a Depot bank under test (R287). -/
def Dev.todoWaits (d : Dev) : Bool := d.qnt.todo.any (fun q => d.banksTested q.1 q.2.length)
/-- So does the source that it reads. -/
def Dev.qntWaits (d : Dev) (j : QJob) : Bool :=
  d.todoWaits || (decide (d.qnt.pass < 2) && d.banksTested j.src j.srcLen)

/-- One stride of a job: nothing while a read or a write is unanswered, after a failure, or once the sums wait. -/
def Dev.qntTurn (n : Nv) (x : Mem × Dev) : Mem × Dev :=
  let (m, d) := x
  let q := d.qnt
  let j := d.qjob
  let k := (d.rd R.QNT_PROGRESS).toNat
  if d.qntState < 3 ∨ d.qntState = 5 ∨ q.gather.left ≠ 0 ∨ q.out ≠ 0 ∨ q.gather.failed then (m, d)
  else if d.qntWaits j then (m, d.bankHold 8)
  else if q.todo ≠ [] then Dev.qntWrites n (q.todo.length + 1) (m, d)
  else if q.pass = 2 then (m, d.qntNext n j k)
  else
    let (ok, (m, d)) := j.scan k (m, d)
    (m, if !ok then { d with qnt := { d.qnt with gather := { d.qnt.gather with failed := true } } }
        else if q.pass = 0 then d.qntStats n j m k
        else d.qntCodes j m k)

/-- Take a job on as far as it can go without an answer from Freight: a page's statistics, codes and write, and the next
page's first pass. -/
def Dev.qntAdvance (n : Nv) (x : Mem × Dev) : Mem × Dev := Nat.repeat (Dev.qntTurn n) 6 x

/-- The sums go out once every page or code has been written (R222). -/
def Dev.qntSumsGo (n : Nv) (x : Mem × Dev) : Mem × Dev :=
  if x.2.qntState = 5 ∧ x.2.qnt.out = 0 ∧ x.2.todoWaits then (x.1, x.2.bankHold 8)
  else if x.2.qntState = 5 ∧ x.2.qnt.out = 0 then Dev.qntWrites n (x.2.qnt.todo.length + 1) x else x

/-- QNT_JOB_END: every write has been acknowledged, or a read or write failed (R222). -/
def Dev.qntJobEnd (d : Dev) : Dev :=
  let q := d.qnt
  if d.qntState < 3 ∨ q.gather.left ≠ 0 ∨ q.out ≠ 0 then d
  else if q.gather.failed then d.qntEnd 8
  else if d.qntState = 5 ∧ q.todo = [] then d.qntEnd 0
  else d

/-- QNT_CANCEL (R223). -/
def Dev.qntCancel (d : Dev) : Dev :=
  if d.qntState = 0 then d
  else if d.qjob.kind = 0 ∧ d.qntState = 4 ∧ d.qnt.out ≠ 0 then { d with qnt := { d.qnt with cancel := true } }
  else
    (d.disown (fun r => r.owner == .qnt)).qntEnd 9

def execQntStart (s : State) : Host.Outcome State Fault Refusal := onIsl 4 1 (fun n _ d => d.qntStart n) s
def execQntCancel (s : State) : Host.Outcome State Fault Refusal := onIsl 4 1 (fun _ _ d => d.qntCancel) s
def execQntJobEnd (s : State) : Host.Outcome State Fault Refusal :=
  onIslM 4 1 (fun n x => let (m, d) := Dev.qntSumsGo n (Dev.qntAdvance n x); (m, d.qntJobEnd)) s

end Sys2Proof.Machine
end

