-- ==== Sys2Proof/Machine/Projection.lean ====
section
/-! DEFINITION. Projection units (R224 to R228): loading a matrix, batches, and the currents they give. -/

namespace Sys2Proof.Machine

def prjReg (r u : Nat) : Nat := r + 0x100 * u
abbrev prjLoaded : Nat := 2 ^ 29
abbrev prjLoading : Nat := 2 ^ 28

/-- Count in a unit's counter; a saturation sets OVF and raises the quantiser interrupt (Table 10-7). -/
def Dev.prjCount (d : Dev) (u reg k : Nat) : Dev :=
  if k = 0 then d
  else
    let a := prjReg reg u
    let c := (d.rd a).toNat
    let d := d.count a k (prjReg R.QNT_PRJ_STATUS u) 31
    if satHits 32 c k then d.irq1 67 else d

/-- A LOAD has failed (R224). -/
def Dev.prjLoadFail (d : Dev) (u : Nat) : Dev :=
  ((d.andNot (prjReg R.QNT_PRJ_STATUS u) prjLoading).orBits (prjReg R.QNT_PRJ_STATUS u) (2 ^ 27)).irq1 67

/-- A LOAD begins: LOADED is cleared, shape, formats and ranges are checked, and what lies in GDDR6 is read (R224). -/
def Dev.prjLoadStart (d : Dev) (n : Nv) (u : Nat) : Dev :=
  let st := prjReg R.QNT_PRJ_STATUS u
  let sh := d.rd (prjReg R.QNT_PRJ_SHAPE u)
  let f := d.rd (prjReg R.QNT_PRJ_FMT u)
  let k := fld sh 16 12 + 1
  let m := fld sh 0 12 + 1
  let w := d.addr40 (prjReg R.QNT_PRJ_WSRC_LO u)
  let p := d.addr40 (prjReg R.QNT_PRJ_PSRC_LO u)
  let c := d.addr40 (prjReg R.QNT_PRJ_SSRC_LO u)
  let ranges := [(w, k * m), (p, 4 * m), (c, 4 * m)]
  let okFmt := fun (x : Nat) => x == 4 || x == 6
  let d := d.andNot st prjLoaded
  if 262144 < m * k ∨ !okFmt (fld f 28 4) ∨ !okFmt (fld f 24 4) ∨ ranges.any (fun q => !d.rangeOk n q.1 q.2) then
    d.prjLoadFail u
  else
    let reqs := ranges.flatMap (fun q =>
      if q.1 < 0x1000000 then []
      else let (a, l) := alignCover q.1 q.2; d.gddrReqs n (.prj u) false a l [])
    let shape : Matrix := { Matrix.init with k := k, m := m, wfmt := fld f 28 4, ifmt := fld f 24 4, scaleKind := fld f 23 1 }
    let d := (d.orBits st prjLoading).setPrj u
      { d.prj u with loading := shape, src := (w, p, c), gather := { Gather.init with left := reqs.length } }
    d.ask n reqs

/-- Whether a batch is in progress: it has run and not ended. -/
def Dev.prjBusy (d : Dev) (u : Nat) : Bool := (d.prj u).queue.head?.any (fun b => b.result.isSome)
def Dev.prjIsLoading (d : Dev) (u : Nat) : Bool := bit (d.rd (prjReg R.QNT_PRJ_STATUS u)) 28

/-- Carry out the commands that wait, LOAD (1) or UNLOAD (2), oldest first, as long as neither a batch nor a LOAD is in
progress; at most `k` of them. -/
def Dev.prjServe (n : Nv) (u : Nat) : Nat → Dev → Dev
  | 0, d => d
  | k + 1, d =>
    if d.prjBusy u || d.prjIsLoading u then d
    else match (d.prj u).waiting with
    | [] => d
    | cmd :: rest =>
      let d := d.setPrj u { d.prj u with waiting := rest }
      Dev.prjServe n u k (if cmd = 1 then d.prjLoadStart n u else d.andNot (prjReg R.QNT_PRJ_STATUS u) prjLoaded)

/-- A batch or a LOAD has ended: the commands that waited for it follow. -/
def Dev.prjGo (d : Dev) (n : Nv) (u : Nat) : Dev := Dev.prjServe n u (d.prj u).waiting.length d

/-- A LOAD (1) or UNLOAD (2): it waits until the batch in progress, or the LOAD in progress, has ended. -/
def Dev.prjCmd (d : Dev) (n : Nv) (u cmd : Nat) : Dev :=
  (d.setPrj u { d.prj u with waiting := (d.prj u).waiting ++ [cmd] }).prjGo n u

/-- PRJ_LOAD (R224). -/
def execPrjLoad (u : Fin 4) (s : State) : Host.Outcome State Fault Refusal := onIsl 4 (2 + u) (fun n _ d => d.prjCmd n u 1) s
/-- PRJ_UNLOAD (R224). -/
def execPrjUnload (u : Fin 4) (s : State) : Host.Outcome State Fault Refusal := onIsl 4 (2 + u) (fun n _ d => d.prjCmd n u 2) s

/-- The value of a code of INT8 or UINT8. -/
def codeVal (fmt : Nat) (b : Nat) : Int := if fmt = 4 then sext 8 b else (b % 256 : Nat)

/-- The columns sums the unit forms over the codes it loads. -/
def Matrix.colSums (x : Matrix) : List Int :=
  (List.range x.m).map (fun c => (List.range x.k).foldl (fun (a : Int) r => a + codeVal x.wfmt (x.codes.getD (r * x.m + c) 0).toNat) 0)

/-- A scale that a group word gives is NaN, infinite, or an E8 exponent of 255. -/
def badScale (kind : Nat) (w : Word) : Bool :=
  if kind = 1 then fld w 0 8 == 255 else fld w 10 5 == 31

/-- The matrix read is complete: its scales and sums are checked (R224).  A read that failed fails the LOAD. -/
def Dev.prjLoadEnd (n : Nv) (u : Nat) (s : Mem × Dev) : Mem × Dev :=
  let x := s.2.prj u
  if !s.2.prjIsLoading u ∨ x.gather.left ≠ 0 then s
  else if s.2.banksTested x.src.1 (x.loading.k * x.loading.m) || s.2.banksTested x.src.2.1 (4 * x.loading.m)
      || s.2.banksTested x.src.2.2 (4 * x.loading.m) then (s.1, s.2.bankHold 8)
  else
    let st := prjReg R.QNT_PRJ_STATUS u
    let q := x.loading
    let (w, p, c) := x.src
    let (ok1, s) := xdmaScan s w (q.k * q.m)
    let (ok2, s) := xdmaScan s p (4 * q.m)
    let (ok3, (m, d)) := xdmaScan s c (4 * q.m)
    let y : Matrix := { q with
      codes := fetchBytes m x.gather w (q.k * q.m), groups := wordsOf (fetchBytes m x.gather p (4 * q.m)),
      sums := wordsOf (fetchBytes m x.gather c (4 * q.m)) }
    let bad := x.gather.failed || !(ok1 && ok2 && ok3) || y.groups.any (badScale q.scaleKind)
      || (y.colSums.map (fun (i : Int) => w32 (i % ((2 ^ 32 : Nat) : Int)).toNat)) != y.sums
    let d := d.setPrj u { x with gather := Gather.init, matrix := if bad then x.matrix else y }
    let d := if bad then d.prjLoadFail u else (d.andNot st prjLoading).orBits st prjLoaded
    (m, d.prjGo n u)

/-- PRJ_LOAD_END (R224). -/
def execPrjLoadEnd (u : Fin 4) (s : State) : Host.Outcome State Fault Refusal := onIslM 4 (2 + u) (fun n x => Dev.prjLoadEnd n u x) s

/-! ### Batches (R225, R226, R227) -/

/-- An item of the injection queue that takes one of its entries: an event or a mark, not the place of currents to come. -/
def QItem.entry : QItem → Bool
  | .await _ => false
  | _ => true

/-- Entries of an injection queue in use (R136, R146). -/
def Dev.queueUsed (d : Dev) (w : Nat) : Nat := ((d.wld w).queue.filter QItem.entry).length

/-- Put an item into an injection queue, behind all of it or just before the place that currents have there (R254), and keep
the queue's peak. -/
def Dev.queueAt (d : Dev) (w : Nat) (place : Option Nat) (i : QItem) : Dev :=
  let d := d.updWld w (fun x => { x with queue := match place with
    | none => x.queue ++ [i]
    | some id => x.queue.takeWhile (· != .await id) ++ i :: x.queue.dropWhile (· != .await id) })
  let n := d.queueUsed w
  d.updWld w (fun x => { x with peak := max x.peak n })
def Dev.queuePut (d : Dev) (w : Nat) (i : QItem) : Dev := d.queueAt w none i

/-- The events of a vector have been generated, or it generates none: its place goes. -/
def Dev.placeGone (d : Dev) (v : PVec) : Dev :=
  d.updWld v.world (fun x => { x with queue := x.queue.filter (· != .await v.place) })
def Dev.placesGone (d : Dev) (vs : List PVec) : Dev := vs.foldl Dev.placeGone d

/-- QNT_PRJ_LAT_MAX: a batch has ended (Table 10-4). -/
def Dev.prjLat (d : Dev) (u : Nat) (b : Batch) : Dev :=
  d.upd (prjReg R.QNT_PRJ_LAT_MAX u) (fun w => satWord (max w.toNat (d.now - b.since)))

/-- The unit leaves idle: it asks for a projection-batch grant; a refusal ends every queued batch (R225). -/
def Dev.prjDeny (d : Dev) (u : Nat) : Dev :=
  let x := d.prj u
  let k := x.queue.length
  let d := d.setPrj u { x with queue := [], grant := 0 }
  let d := x.queue.foldl (fun (d : Dev) b => d.prjLat u b) d
  let d := d.placesGone (x.queue.flatMap (·.vecs))
  if k = 0 then d else (d.prjCount u R.QNT_PRJ_DENIED k).irq1 67

def Dev.prjAsk (d : Dev) (u : Nat) : Dev :=
  if (d.prj u).grant ≠ 0 then d
  else
    let (d, ok) := d.tokAsk (rqPrj u)
    if ok then d.setPrj u { d.prj u with grant := 1 } else d.prjDeny u

/-- A vector joins the forming batch, or opens one; none when the unit holds 16 batches and the forming batch is full (R260). -/
def Dev.prjSubmit (d : Dev) (u : Nat) (v : PVec) : Option Dev :=
  let x := d.prj u
  match x.queue.reverse with
  | b :: rest =>
    if b.result.isNone ∧ b.vecs.length < 64 then
      some ((d.setPrj u { x with queue := (rest.reverse) ++ [{ b with vecs := b.vecs ++ [v] }] }).prjAsk u)
    else if x.queue.length < 16 then
      some ((d.setPrj u { x with queue := x.queue ++ [{ vecs := [v], since := d.now, result := none }] }).prjAsk u)
    else none
  | [] => some ((d.setPrj u { x with queue := [{ vecs := [v], since := d.now, result := none }] }).prjAsk u)

/-- The currents of one vector, with the saturations it counts (R226, R227). -/
def Matrix.currents (x : Matrix) (gain : Word) (vals : List Word) : List Word × Nat :=
  let xs := vals.map f32
  let f := fmtOf x.ifmt
  let p := groupParams f false 0 xs
  let sx := p.value 0
  let (qs, c) := xs.foldl (fun (a : List Int × Quant) v =>
    let (code, _, q) := convert f sx p.zero false a.2 v
    (a.1 ++ [codeVal x.ifmt code], q)) (([] : List Int), ({ rng := 0, sat := 0, nan := 0 } : Quant))
  let sumX := qs.foldl (fun (a : Int) i => a + i) 0
  let zw := fun (g : Word) => zeroPoint (fmtOf x.wfmt) g
  (List.range x.m).foldl (fun (a : List Word × Nat) c =>
    let g := x.groups.getD c 0
    let acc := (qs.zipIdx).foldl (fun (s : Int) (q, k) => s + codeVal x.wfmt (x.codes.getD (k * x.m + c) 0).toNat * q) 0
    let sw := sext 32 (x.sums.getD c 0).toNat
    let cc := acc - p.zero * sw - zw g * sumX + (x.k : Int) * zw g * p.zero
    let (v1, s1) := satF (fmul (fp32.round (.ofInt cc)) (groupScale x.scaleKind g))
    let (v2, s2) := satF (fmul v1 sx)
    let (v3, s3) := satF (fmul v2 (f32 gain))
    (a.1 ++ [toF32 v3], a.2 + s1 + s2 + s3)) ([], c.sat + c.nan)

/-- The currents of a vector that does not have K values: the spec states none (log entry 6). -/
def Dev.freeCurrents (d : Dev) (m : Nat) : List Word × Dev :=
  ((List.range m).map (fun i => Config.freeWord d.freeCtr i), { d with freeCtr := d.freeCtr + 1 })

/-- PRJ_BATCH_RUN (R225, R227): the batch at the head of the queue. -/
def Dev.prjRun (d : Dev) (u : Nat) : Dev :=
  let x := d.prj u
  match x.queue with
  | [] => d
  | b :: rest =>
    if b.result.isSome ∨ d.prjIsLoading u then d
    else if !bit (d.rd (prjReg R.QNT_PRJ_STATUS u)) 29 then
      (((d.setPrj u { x with queue := rest }).prjLat u b).placesGone b.vecs).prjCount u R.QNT_PRJ_NOMAT 1 |>.irq1 67
    else if x.grant ≠ 2 then d
    else
      let gain := d.rd (prjReg R.QNT_PRJ_GAIN u)
      let (out, sat, d) := b.vecs.foldl (fun (a : List (List Word) × Nat × Dev) v =>
        if v.vals.length = x.matrix.k then
          let (cs, k) := x.matrix.currents gain v.vals
          (a.1 ++ [cs], a.2.1 + k, a.2.2)
        else
          let (cs, d) := a.2.2.freeCurrents x.matrix.m
          (a.1 ++ [cs], a.2.1, d)) ([], 0, d)
      (d.setPrj u { x with queue := { b with result := some out } :: rest }).prjCount u R.QNT_PRJ_SAT sat

def execPrjBatchRun (u : Fin 4) (s : State) : Host.Outcome State Fault Refusal := onIsl 4 (2 + u) (fun _ _ d => d.prjRun u) s

/-- PRJ_TOKEN_IDLE (R225): the grant of a unit without a batch is returned. -/
def Dev.prjTokenIdle (d : Dev) (u : Nat) : Dev :=
  let x := d.prj u
  if x.queue = [] ∧ x.grant ≠ 0 then (d.setPrj u { x with grant := 0 }).tokStop (rqPrj u) else d

def execPrjTokenIdle (u : Fin 4) (s : State) : Host.Outcome State Fault Refusal := onIsl 4 (2 + u) (fun _ _ d => d.prjTokenIdle u) s

end Sys2Proof.Machine
end

