-- ==== Sys2Proof/Machine/Encoders.lean ====
section
/-! DEFINITION. Encoder channels (R252 to R261), and the registers of encoders and decoders whose writes reset a channel. -/

namespace Sys2Proof.Machine

def encReg (r e : Nat) : Nat := r + 0x20 * e

/-- FP32 bits of a value, infinities kept. -/
def f32Bits (v : FVal) : Word :=
  match v with
  | .inf n => w32 (fp32.signBit n + 0x7F800000)
  | v => toF32 v

/-- The floor of a value that is not negative; none for an infinity or a NaN. -/
def FVal.floorNat : FVal → Option Nat
  | .fin _ m e => some (if 0 ≤ e then m * 2 ^ e.toNat else m / 2 ^ (-e).toNat)
  | _ => none

/-- The settings a message is encoded under (R252): CFG, MAP, PA and LIM; and the place of its events in the injection queue,
if they come later (R254). -/
structure EncCfg where
  chan : Nat
  place : Option Nat
  cfg : Word
  map : Word
  pa : Word
  lim : Word
deriving DecidableEq, Repr

def EncCfg.code (q : EncCfg) : Nat := fld q.cfg 28 3
def EncCfg.world (q : EncCfg) : Nat := fld q.cfg 0 12
def EncCfg.delay (q : EncCfg) : Nat := fld q.cfg 18 5
def EncCfg.pfmt (q : EncCfg) : Fmt := fmtOf (fld q.cfg 23 4)
def EncCfg.nval (q : EncCfg) : Nat := fld q.map 0 11

def Dev.encCfg (d : Dev) (e : Nat) : EncCfg :=
  { chan := e, place := none, cfg := d.rd (encReg R.XCH_ENC_CFG e), map := d.rd (encReg R.XCH_ENC_MAP e), pa := d.rd (encReg R.XCH_ENC_PA e),
    lim := d.rd (encReg R.XCH_ENC_LIM e) }

def Dev.encClip (d : Dev) (e k : Nat) : Dev := d.edCount (encReg R.XCH_ENC_CLIP e) k 2
def Dev.encNan (d : Dev) (k : Nat) : Dev := d.edCount R.XCH_ENC_NAN k 0

/-! ### State words (R252) -/

def encBase0 (_ : Nat) : Word := 0
def Dev.encState (d : Dev) (e k : Nat) : FVal :=
  f32 (((d.encSt.get (fun _ => none) (1024 * e + k))).getD (d.encBase.get encBase0 e))
def Dev.setEncState (d : Dev) (e k : Nat) (v : FVal) : Dev :=
  { d with encSt := d.encSt.set (fun _ => none) (1024 * e + k) (some (f32Bits v)) }

/-- Set the state of a channel as its code states (Table 12-1). -/
def Dev.encReset (d : Dev) (e : Nat) : Dev :=
  let base := if (d.encCfg e).code = 2 then d.rd (encReg R.XCH_ENC_BIAS e) else 0
  { d with encSt := d.encSt.clear (1024 * e) (1024 * (e + 1)), encBase := d.encBase.set encBase0 e base }

/-! ### Events (R254, R261) -/

/-- The moment's limits let a channel generate an event; `resv` entries are kept for a mark. -/
def Dev.encMay (d : Dev) (q : EncCfg) (resv : Nat) : Bool :=
  let top := fld q.lim 16 16
  decide ((top = 0 ∨ d.encCnt.get zeroNat q.chan < top) ∧ d.queueUsed q.world + resv < 512) && (d.wld q.world).live

/-- Generate an event to offset `j`: binary, or with a payload converted to PFMT. -/
def Dev.encEvent (d : Dev) (q : EncCfg) (resv j delay : Nat) (v : Option FVal) : Dev :=
  if !d.encMay q resv then d.encClip q.chan 1
  else
    let key := w32 (q.world * 2 ^ 20 + fld q.map 24 8 * 2 ^ 12 + (fld q.map 12 12 + j) % 4096)
    let vc := if bit q.cfg 27 then 2 else 1
    let d := { d with encCnt := d.encCnt.set zeroNat q.chan (d.encCnt.get zeroNat q.chan + 1) }
    match v with
    | none => d.queueAt q.world q.place (.event (mkWord key 0 delay true false false) vc)
    | some x =>
      let c := q.pfmt.conv x none
      let d := d.edCount R.XCH_ENC_SAT (if c.sat then 1 else 0) 1
      let d := d.encNan (if c.nan then 1 else 0)
      d.queueAt q.world q.place (.event (mkWord key c.code delay false false false) vc)

/-! ### Codes (R255 to R260) -/

/-- RATE (R256).  The spec does not say what min gives of a NaN in RMAX: 1.0 is taken (DESIGN CHOICE, log entry 55). -/
def Dev.encRate (d : Dev) (q : EncCfg) (resv k : Nat) (y : FVal) : Dev :=
  let r := fvMin (fvMax y .zero) (fvMin (f32 q.pa) .one)
  let acc := fadd (d.encState q.chan k) r
  if FVal.one.le acc then (d.setEncState q.chan k (fsub acc .one)).encEvent q resv k q.delay none
  else d.setEncState q.chan k acc

/-- LATENCY (R257). -/
def Dev.encLatency (d : Dev) (q : EncCfg) (resv k : Nat) (y : FVal) : Dev :=
  if y.le (f32 q.pa) then d
  else
    let late := fmul (fsub .one (fvMin y .one)) (.fin false (fld q.lim 0 5) 0)
    match late with
    | .nan _ =>
      let (w, d) := d.freeWord
      d.encEvent q resv k (fld w 0 5) none
    | v => d.encEvent q resv k (min 31 (max 0 (q.delay + (convInt 0 31 v none).1)).toNat) none

/-- DELTA (R258). -/
def Dev.encDelta (d : Dev) (q : EncCfg) (resv k : Nat) (gx : FVal) : Dev :=
  let theta := f32 q.pa
  let ref := d.encState q.chan k
  let dl := fsub gx ref
  if !theta.finite ∨ theta.isZero ∨ theta.neg ∨ dl.isNan then d.encNan 1
  else
    let ratio := fdiv dl.abs theta
    let n := (ratio.floorNat).getD (2 ^ 32 + 15)
    if n = 0 then d
    else
      let m := min n 15
      let move := fmul (.fin dl.neg m 0) theta
      let d := d.setEncState q.chan k (fadd ref move)
      let d := d.encClip q.chan (n - m)
      d.encEvent q resv (if dl.neg then 2 * k + 1 else 2 * k) q.delay (some (.fin false m 0))

/-- Entry `u` of response table `g` (R259). -/
def Dev.gtbl (d : Dev) (g u : Nat) : Nat := d.f (R.XCH_ENC_GTBL + 4 * (32 * g + u / 2)) (16 * (u % 2)) 16

/-- POPULATION (R259). -/
def Dev.encPopulation (d : Dev) (q : EncCfg) (pb : Word) (resv k : Nat) (y : FVal) : Dev :=
  let np := max 1 (min 64 (fld q.lim 8 8))
  let pa := f32 q.pa
  let h := if np = 1 then f32 pb else fdiv (fsub (f32 pb) pa) (.fin false (np - 1) 0)
  (List.range np).foldl (fun d i =>
    let mu := fadd pa (fmul (.fin false i 0) h)
    let r := fdiv (fmul (fsub y mu).abs (.fin false 8 0)) h.abs
    let (u, d) :=
      if h.isZero || h.isNan then (63, d)
      else match r with
        | .nan _ => let (w, d) := d.freeWord; (fld w 0 6, d)
        | v => (min 63 ((v.floorNat).getD 63), d)
    let a := fb16 (d.gtbl (fld q.lim 6 2) u)
    if a.isZero then d else d.encEvent q resv (k * np + i) q.delay (some a)) d

/-- Encode value `k` of a message under a code other than CURRENT. -/
def Dev.encValue (d : Dev) (q : EncCfg) (gain bias pb : Word) (resv : Nat) (x : Word) (k : Nat) : Dev :=
  let gx := fmul (f32 x) (f32 gain)
  let y := fadd gx (f32 bias)
  if (f32 x).isNan ∨ y.isNan then d.encNan 1
  else match q.code with
    | 1 => d.encLatency q resv k y
    | 2 => d.encDelta q resv k gx
    | 3 => d.encPopulation q pb resv k y
    | _ => d.encRate q resv k y

/-- An accepted VAL_IN generates its events (R254), or its vector goes to the projection unit and keeps a place for them in
the queue (R260); `mark`: it carries END_STEP. -/
def Dev.encode (d : Dev) (e : Nat) (vals : List Word) (mark : Bool) : Dev :=
  let q := d.encCfg e
  let gain := d.rd (encReg R.XCH_ENC_GAIN e)
  let bias := d.rd (encReg R.XCH_ENC_BIAS e)
  let pb := d.rd (encReg R.XCH_ENC_PB e)
  if q.code = 4 then
    let d := d.encNan (vals.filter (fun x => (f32 x).isNan || (fadd (fmul (f32 x) (f32 gain)) (f32 bias)).isNan)).length
    let v : PVec := { enc := e, cfg := q.cfg, map := q.map, pa := q.pa, lim := q.lim, world := q.world, place := d.accNext,
                      vals := vals }
    let put := fun (d : Dev) => if mark then d.queuePut q.world .mark else d
    match (put ({ d with accNext := d.accNext + 1 }.queuePut q.world (.await v.place))).prjSubmit (fld q.cfg 16 2) v with
    | some d => d
    | none => put (d.encClip e q.nval)
  else
    let resv := if mark then 1 else 0
    let d := (vals.zipIdx).foldl (fun (d : Dev) (x, k) => d.encValue q gain bias pb resv x k) d
    if mark then d.queuePut q.world .mark else d

/-! ### Currents return (R228, R260) -/

/-- The events of one vector's currents, at its place in the queue; none when the world has lost its queue meanwhile. -/
def Dev.encCurrents (d : Dev) (v : PVec) (cs : List Word) : Dev :=
  let q : EncCfg := { chan := v.enc, place := some v.place, cfg := v.cfg, map := v.map, pa := v.pa, lim := v.lim }
  if !(d.wld v.world).queue.contains (.await v.place) then d
  else
    ((cs.zipIdx).foldl (fun (d : Dev) (i, c) =>
      let x := f32 i
      if (f32 q.pa).le x.abs then d.encEvent q 0 c q.delay (some x) else d) d).placeGone v

/-- Pass the currents of a batch on, vector by vector. -/
def Dev.passCurrents (d : Dev) (vs : List PVec) (cs : List (List Word)) : Dev :=
  (vs.zip cs).foldl (fun (d : Dev) q => d.encCurrents q.1 q.2) d

/-- PRJ_BATCH_END (R228). -/
def Dev.prjEnd (d : Dev) (n : Nv) (u : Nat) : Dev :=
  match (d.prj u).queue with
  | [] => d
  | b :: _ =>
    match b.result with
    | none => d
    | some out =>
      let d := d.passCurrents b.vecs out
      let d := d.setPrj u { d.prj u with queue := (d.prj u).queue.tail }
      ((d.prjCount u R.QNT_PRJ_VECS b.vecs.length).prjLat u b).prjGo n u

def execPrjBatchEnd (u : Fin 4) (s : State) : Host.Outcome State Fault Refusal := onIsl 4 (2 + u) (fun n _ d => d.prjEnd n u) s

/-! ### Channel settings (R252, R265) and the wait of R266 -/

/-- A write of XCH_ENC_CFG[e] or XCH_DEC_CFG[c]. -/
def Dev.encCfgWrite (d : Dev) (e : Nat) (v : Word) : Dev :=
  (d.upd (encReg R.XCH_ENC_CFG e) (fun o => accWrite 0xFFFF0FFF 0 0 o v)).encReset e
def Dev.decCfgWrite (d : Dev) (c : Nat) (v : Word) : Dev :=
  (d.upd (decReg R.XCH_DEC_CFG c) (fun o => accWrite 0xFFEFFFFF 0 0 o v)).decReset c

/-- ENC_CFG_WRITE (R252). -/
def execEncCfgWrite (m : Master) (e : Fin 256) (v : Word) (s : State) : Host.Outcome State Fault Refusal :=
  onDev (fun n _ d => d.writeGate n m (encReg R.XCH_ENC_CFG e) (fun d => d.encCfgWrite e v)) s

/-- DEC_CFG_WRITE (R265). -/
def execDecCfgWrite (m : Master) (c : Fin 256) (v : Word) (s : State) : Host.Outcome State Fault Refusal :=
  onDev (fun n _ d => d.writeGate n m (decReg R.XCH_DEC_CFG c) (fun d => d.decCfgWrite c v)) s

/-- MEMBRANE_WAIT_EXPIRY (R266). -/
def execMembraneWaitExpiry (c : Fin 256) (s : State) : Host.Outcome State Fault Refusal :=
  onIsl 4 0 (fun _ _ d => match (d.dec c).wait with
    | w :: _ => d.decMembrane c (d.decCfg c) w
    | [] => d) s

end Sys2Proof.Machine
end

