-- ==== Sys2Proof/Machine/Streaming.lean ====
section
/-! DEFINITION. Weight streaming at a page streamer (chapter 8): summaries, walks, the merge table, DRAM reads, deliveries
and the end of a walk. -/

namespace Sys2Proof.Machine

/-! ### Consists in GDDR6 (R179) -/

/-- Offset in GDDR6 of the world directory of a streamer. -/
def Dev.consistBase (d : Dev) (s : Nat) : Nat := d.f (R.STM_CONSIST_BASE + 0x100 * s) 0 24 * 65536 % 2 ^ 37

def Mem.gddrWord (m : Mem) (a : Nat) : Word := w32 (leNat (m.gddrBytes a 4))

/-- Fields of a world table entry (Table 8-7). -/
def Dev.dirPeriod (d : Dev) (s w : Nat) : Nat := fld (d.dirWord s w 0) 16 8 + 1
def Dev.dirNsum (d : Dev) (s w : Nat) : Nat := fld (d.dirWord s w 0) 0 12
def Dev.dirAct (d : Dev) (s w : Nat) : Nat := fld (d.dirWord s w 1) 12 17
def Dev.dirNsrc (d : Dev) (s w : Nat) : Nat := fld (d.dirWord s w 1) 0 12
def Dev.dirList (d : Dev) (s w : Nat) : Nat := (d.dirWord s w 2).toNat

/-- The consist of extended step `ext`: its offset in GDDR6 and its length in entries. -/
def Dev.consistAt (d : Dev) (m : Mem) (s w ext : Nat) : Nat × Nat :=
  let base := d.consistBase s
  let a := base + 64 * d.dirList s w + 8 * (ext % d.dirPeriod s w)
  (base + 64 * (m.gddrWord a).toNat, fld (m.gddrWord (a + 4)) 0 16)

/-- At GO a streamer copies its world directory (R179) and clears the block maps (R180). -/
def Dev.loadDirectory (d : Dev) (m : Mem) (s : Nat) : Dev :=
  let base := d.consistBase s
  let rows := (List.range 4096).filterMap (fun w =>
    let ws := (List.range 4).map (fun i => m.gddrWord (base + 16 * w + 4 * i))
    if ws.all (· == 0) then none else some (w, ws))
  d.updStreamer s (fun x => { x with table := rows, act := [], sums := [], ended := [] })

/-! ### The activity store (R180) -/

def zero64 (_ : Nat) : BitVec 64 := 0
def noNats (_ : Nat) : List Nat := []
def noWalk (_ : Nat) : Option Walk := none
def noQuiet (_ : Nat) : Option (Nat × Nat) := none
def noExt (_ : Nat) : Option Nat := none

def Dev.act (d : Dev) (s k : Nat) : BitVec 64 := (d.streamer s).act.get zero64 k
def Dev.sumsOf (d : Dev) (s w : Nat) : List Nat := (d.streamer s).sums.get noNats w
def Dev.walk (d : Dev) (s w : Nat) : Option Walk := (d.streamer s).walks.get noWalk w
def Dev.setWalk (d : Dev) (s w : Nat) (x : Option Walk) : Dev :=
  d.updStreamer s (fun y => { y with walks := y.walks.set noWalk w x })

/-- Clear the block maps of a world, and forget its summaries. -/
def Dev.clearMaps (d : Dev) (s w : Nat) : Dev :=
  let b := d.dirAct s w
  let n := d.dirNsrc s w
  d.updStreamer s (fun y => { y with
    sums := y.sums.set noNats w [],
    act := (List.range n).foldl (fun a k => a.set zero64 (b + 65 * k) 0) y.act })

/-- Store a summary (R180): the block map, and the masks in ascending order of their blocks. -/
def Dev.storeSummary (d : Dev) (s w k : Nat) (data : List Byte) : Dev :=
  let at_ := d.dirAct s w + 65 * k
  let map := recNat data 0 8
  let bs := onesBelow 64 map
  let a := (d.streamer s).act.set zero64 at_ (BitVec.ofNat 64 map)
  let a := ((List.range bs.length).zip bs).foldl (fun a (i, b) =>
    a.set zero64 (at_ + 1 + b) (BitVec.ofNat 64 (recNat data (8 + 8 * i) 8))) a
  d.updStreamer s (fun y => { y with act := a, sums := y.sums.set noNats w (y.sums.get noNats w ++ [k]) })

/-- A summary at a streamer. -/
def Dev.takeSummary (d : Dev) (s : Nat) (q : Packet) : Dev :=
  let w := q.addr % 4096
  let k := q.addr / 4096 % 4096
  if !bit (d.dirWord s w 0) 31 ∨ d.dirNsrc s w ≤ k ∨ 131071 < d.dirAct s w + 65 * k + 64 ∨ (d.sumsOf s w).contains k then
    d.stm s R.STM_ACT_OVF 10 1 false
  else d.storeSummary s w k q.data

/-- SUMMARY_ARRIVAL (R180). -/
def Dev.summaryArrival (d : Dev) (s : Nat) : Dev :=
  match (d.streamer s).inbox with
  | [] => d
  | q :: rest => (d.updStreamer s (fun y => { y with inbox := rest })).takeSummary s q

def execSummaryArrival (str : Fin 12) (s : State) : Host.Outcome State Fault Refusal :=
  onIsl 1 str (fun n _ d => if n.streamerOn str then d.summaryArrival str else d) s

/-! ### Grants (R183) -/

/-- The streaming grant is refused: nothing of the walks in progress is issued. -/
def Dev.streamDenied (d : Dev) (s : Nat) : Dev :=
  let x := d.streamer s
  let k := ((x.reads ++ x.dram).map (fun (r : PageRead) => r.reqs.length)).sum
    + (x.walks.map (fun q => match q.2 with | some y => y.len - y.next | none => 0)).sum
  let d := d.stm s R.STM_PG_DENIED 6 k true
  d.updStreamer s (fun y => { y with
    reads := [], dram := [], grant := 0,
    walks := y.walks.map (fun q => (q.1, q.2.map (fun v => { v with next := v.len }))) })

/-- A streamer that leaves idle asks for a grant. -/
def Dev.streamAsk (d : Dev) (s : Nat) : Dev :=
  if (d.streamer s).grant ≠ 0 then d
  else
    let (d, ok) := d.tokAsk s
    if ok then d.updStreamer s (fun y => { y with grant := 1 }) else d.streamDenied s

/-! ### Walks (R181) -/

/-- Begin the walk of a world whose STEP_QUIET is held; the indices `missing` read as zero throughout it. -/
def Dev.walkStart (d : Dev) (m : Mem) (s w ext since : Nat) (missing : List Nat) : Dev :=
  let (base, len) := d.consistAt m s w ext
  let d := d.updStreamer s (fun y => { y with quiet := y.quiet.set noQuiet w none })
  let d := d.setWalk s w (some { step := ext, base := base, len := len, next := 0, since := since, missing := missing })
  d.streamAsk s

/-- Whether a walk of `w` may begin: STEP_QUIET held, and no walk of it in progress. -/
def Dev.walkDue (d : Dev) (s w : Nat) : Option (Nat × Nat) :=
  match (d.streamer s).quiet.get noQuiet w, d.walk s w with
  | some (ext, since), none => if (d.streamer s).abandon.contains (w, ext) then none else some (ext, since)
  | _, _ => none

/-- WALK_BEGIN: NSUM summaries have arrived. -/
def execWalkBegin (str : Fin 12) (w : Fin 4096) (s : State) : Host.Outcome State Fault Refusal :=
  onIsl 1 str (fun n m d =>
    match d.walkDue str w with
    | some (ext, since) =>
      if n.streamerOn str ∧ d.dirNsum str w ≤ (d.sumsOf str w).length then d.walkStart m str w ext since [] else d
    | none => d) s

/-- The summary indices of a world that have not arrived. -/
def Dev.missingSums (d : Dev) (s w : Nat) : List Nat := (List.range (d.dirNsrc s w)).filter (fun k => !(d.sumsOf s w).contains k)

/-- SUM_WAIT_EXPIRY: the walk begins without the missing summaries, and one that comes later changes nothing for it (R181). -/
def execSumWaitExpiry (str : Fin 12) (w : Fin 4096) (s : State) : Host.Outcome State Fault Refusal :=
  onIsl 1 str (fun n m d =>
    match d.walkDue str w with
    | some (ext, since) =>
      let k := d.dirNsum str w - (d.sumsOf str w).length
      if n.streamerOn str ∧ 0 < k then
        (d.stm str R.STM_SUM_MISSING 9 k true).walkStart m str w ext since (d.missingSums str w)
      else d
    | none => d) s

/-- What the merge table does with a request (R182). -/
inductive Merge where
  | joined (i : Nat)
  | opened
  | wait
deriving DecidableEq, Repr

def Dev.mergeOf (d : Dev) (s page : Nat) : Merge :=
  let rs := (d.streamer s).reads
  match rs.findIdx? (fun r => r.page == page && decide (r.reqs.length < 64)) with
  | some i => .joined i
  | none => if rs.length < 64 then .opened else .wait

/-- Pass a request to the merge table. -/
def Dev.enterMerge (d : Dev) (s : Nat) (q : PageReq) : Dev :=
  let older := fun (rs : List PageRead) => rs.map (fun r => { r with after := r.after + 1 })
  match d.mergeOf s q.page with
  | .joined i =>
    (d.updStreamer s (fun y => { y with reads := (List.range y.reads.length).zip (older y.reads) |>.map (fun (j, r) =>
      if j = i then { r with reqs := r.reqs ++ [q] } else r) })).stm s R.STM_PG_MERGED 2 1 false
  | .opened => d.updStreamer s (fun y => { y with reads := older y.reads ++
      [{ page := q.page, reqs := [q], after := 0, opened := d.now, reread := false }] })
  | .wait => d

/-- The request an entry forms, or the counter that a foreign or gated entry counts in. -/
inductive EntryKind where
  | foreign
  | gated
  | request (q : PageReq)
deriving DecidableEq, Repr

def Dev.walkEntryKind (d : Dev) (n : Nv) (m : Mem) (s w : Nat) (x : Walk) : EntryKind :=
  let a := x.base + 16 * x.next
  let w0 := m.gddrWord a
  let w1 := m.gddrWord (a + 4)
  let w2 := m.gddrWord (a + 8)
  let page := fld w0 0 25
  let at_ := d.dirAct s w + 65 * fld w1 16 12
  let blk := fld w1 0 6
  if (n.pageHome page).1 ≠ some s ∨ !d.pageUsable n page then .foreign
  else if x.missing.contains (fld w1 16 12) || !(d.act s at_).getLsbD blk then .gated
  else .request { page := page, world := w, tag := x.step % 4, tpop := fld w2 24 8, tbase := fld w2 12 12,
                  rank := fld w2 0 12, mask := d.act s (at_ + 1 + blk) }

/-- The walk whose turn it is: round robin by ascending world ID (R181).  DESIGN CHOICE (log entry 30): the rule names no first
turn; after reset it is that of the lowest ID above 0. -/
def Dev.walkTurn (d : Dev) (s : Nat) : Option Nat :=
  let x := d.streamer s
  let ws := (x.walks.filter (fun q => match q.2 with | some y => decide (y.next < y.len) | none => false)).map (·.1)
  match ws.find? (fun w => decide (x.last < w)) with
  | some w => some w
  | none => ws.head?

/-- WALK_ENTRY (R181): one entry of the walk whose turn it is; a walk that the merge table holds back keeps its entry. -/
def Dev.walkEntry (d : Dev) (n : Nv) (m : Mem) (s w : Nat) : Dev :=
  match d.walk s w with
  | none => d
  | some x =>
    if d.walkTurn s ≠ some w then d
    else
      let d := d.updStreamer s (fun y => { y with last := w })
      let next := fun (d : Dev) => d.setWalk s w (some { x with next := x.next + 1 })
      match d.walkEntryKind n m s w x with
      | .foreign => next (d.stm s R.STM_PG_FOREIGN 8 1 false)
      | .gated => next (d.stm s R.STM_PG_GATED 1 1 false)
      | .request q =>
        match d.mergeOf s q.page with
        | .wait => d
        | _ => next (d.enterMerge s q)

def execWalkEntry (str : Fin 12) (w : Fin 4096) (s : State) : Host.Outcome State Fault Refusal :=
  onIsl 1 str (fun n m d => if n.streamerOn str then d.walkEntry n m str w else d) s

/-! ### Reads (R182, R184, R189, R191) -/

/-- READ_CLOSE: the first open read that 64 further requests have passed; with no such read, or when no walk is in
progress, the one that opened first. -/
def Dev.readClose (d : Dev) (s : Nat) : Dev :=
  let x := d.streamer s
  let i := (x.reads.findIdx? (fun r => decide (64 ≤ r.after))).getD 0
  match x.reads[i]? with
  | none => d
  | some r => d.updStreamer s (fun y => { y with reads := y.reads.eraseIdx i, dram := y.dram ++ [r] })

def execReadClose (str : Fin 12) (s : State) : Host.Outcome State Fault Refusal :=
  onIsl 1 str (fun n _ d => if n.streamerOn str then d.readClose str else d) s

/-- The 4,096 bytes of a page. -/
def Mem.page (m : Mem) (p : Nat) : List Byte := m.gddrBytes (4096 * p) 4096

/-- PAGE_CRC holds (Table 8-3). -/
def pageCrcOk (bs : List Byte) : Bool :=
  recWord bs 12 == crc32c (bs.take 12 ++ [0, 0, 0, 0] ++ bs.drop 16)

/-- Count corrected errors (CE) and uncorrectable ones (UE) of a channel in DRM_CH_ERR (R372): any UE raises source 104, and so
does a CE count that reaches DRM_ERR_LIM. -/
def Dev.channelErr (d : Dev) (ch ce ue : Nat) : Dev :=
  let a := R.DRM_CH_ERR + 4 * ch
  let was := d.f a 0 16
  let lim := d.f R.DRM_ERR_LIM 0 16
  let d := d.upd a (fun w => setFld (setFld w 0 16 (satAdd 16 was ce)) 16 16 (satAdd 16 (fld w 16 16) ue))
  if 0 < ue ∨ (0 < lim ∧ was < lim ∧ lim ≤ was + ce) then d.irq1 104 else d

/-- What an access of GDDR6 met on the two channels of streamer `s` (R174). -/
def Dev.dramErrs (d : Dev) (s : Nat) (e : DramEnd) : Dev :=
  let ue := fun (odd : Bool) => if !e.ok && e.odd == odd then 1 else 0
  (d.channelErr (2 * s) e.fixed0.toNat (ue false)).channelErr (2 * s + 1) e.fixed1.toNat (ue true)

/-- PAGE_READ_COMPLETE: the read at the head ends. -/
def Dev.pageRead (d : Dev) (m : Mem) (s : Nat) (e : DramEnd) : Dev :=
  let x := d.streamer s
  match x.dram with
  | [] => d
  | r :: rest =>
    if x.grant ≠ 2 then d
    else
      let d := (if r.reread then d else d.stm s R.STM_PG_FETCHED 0 1 false).dramErrs s e
      let bs := m.page r.page
      let fail := fun (d : Dev) =>
        (d.updStreamer s (fun y => { y with dram := rest })).stm s R.STM_PG_RDERR 5 1 true
      if !e.ok then fail d
      else if pageCrcOk bs then
        d.updStreamer s (fun y => { y with dram := rest, out := y.out ++ r.reqs.map (fun q => (q, bs)) })
      else if r.reread then fail d
      else d.updStreamer s (fun y => { y with dram := { r with reread := true } :: rest })

def execPageReadComplete (str : Fin 12) (e : DramEnd) (s : State) : Host.Outcome State Fault Refusal :=
  onIsl 1 str (fun n m d => if n.streamerOn str then d.pageRead m str e else d) s

/-- The 32-byte descriptor of a delivery (Table 8-9). -/
def PageReq.descriptor (q : PageReq) (s : Nat) : List Byte :=
  wordBytes (w32 (q.world * 2 ^ 20 + q.tag % 4 * 2 ^ 16 + q.tpop * 2 ^ 8 + s % 16 * 16)) ++ wordBytes (w32 q.tbase)
    ++ leBytes 8 q.mask.toNat ++ wordBytes (w32 q.page) ++ List.replicate 12 0

/-- DELIVERY_SEND (R184): the delivery that waits first, if a transaction is free. -/
def Dev.deliverySend (d : Dev) (n : Nv) (s : Nat) : Dev :=
  match (d.streamer s).out with
  | [] => d
  | (q, bs) :: rest =>
    if 2048 ≤ d.slotsHeld (epStreamer s) then d
    else
      let d := d.updStreamer s (fun y => { y with
        out := rest,
        flying := y.flying.set zeroNat q.world (y.flying.get zeroNat q.world + 1) })
      let d := d.stm s R.STM_DLV_SENT 3 1 false
      d.openTxn n { ep := epStreamer s, typ := pDeliver, dst := q.rank, addr := 0, rdst := 0, rcount := 0,
                    data := q.descriptor s ++ bs, owner := .stream q.world, place := 0, rdev := none }

def execDeliverySend (str : Fin 12) (s : State) : Host.Outcome State Fault Refusal :=
  onIsl 1 str (fun n _ d => if n.streamerOn str then d.deliverySend n str else d) s

/-- A streamer with no walk in progress and no read open or issued. -/
def Dev.streamIdle (d : Dev) (s : Nat) : Bool :=
  let x := d.streamer s
  x.walks.all (fun q => q.2.isNone) && x.reads == [] && x.dram == []

/-- STREAM_TOKEN_IDLE (R183): TOKEN_IDLE has passed; the grant is returned. -/
def Dev.streamTokenIdle (d : Dev) (s : Nat) : Dev :=
  if (d.streamer s).grant = 2 ∧ d.streamIdle s then
    (d.tokReturn s).updStreamer s (fun y => { y with grant := 0 })
  else d

def execStreamTokenIdle (str : Fin 12) (s : State) : Host.Outcome State Fault Refusal :=
  onIsl 1 str (fun _ _ d => d.streamTokenIdle str) s

/-! ### The end of a walk (R186, R187) -/

/-- Requests of a world that a streamer still has in hand. -/
def Dev.streamBusy (d : Dev) (s w : Nat) : Bool :=
  let x := d.streamer s
  (x.reads ++ x.dram).any (fun r => r.reqs.any (fun q => q.world == w)) || x.out.any (fun q => q.1.world == w)
    || x.flying.get zeroNat w != 0

/-- WALK_END: every entry examined, every delivery ended; CONSIST_END goes out. -/
def Dev.walkEnd (d : Dev) (s w : Nat) : Dev :=
  match d.walk s w with
  | none => d
  | some x =>
    if x.next < x.len ∨ d.streamBusy s w then d
    else
      let d := (d.setWalk s w none).clearMaps s w
      let d := d.upd (R.STM_WALK_MAX + 0x100 * s) (fun v => w32 (max v.toNat (min (d.now - x.since) 0xFFFFFFFF)))
      d.updStreamer s (fun y => { y with ends := y.ends ++ [w], ended := y.ended.set noExt w (some x.step) })

def execWalkEnd (str : Fin 12) (w : Fin 4096) (s : State) : Host.Outcome State Fault Refusal :=
  onIsl 1 str (fun _ _ d => d.walkEnd str w) s

/-- STEP_ABANDON of extended step `ext` reaches a streamer (R187): nothing is left to stop once the walk of that step has ended.
DESIGN CHOICE (log entry 30): a closed read that still waits for the streaming grant stays, as one already issued to DRAM. -/
def Dev.abandonStep (d : Dev) (m : Mem) (s w ext : Nat) : Dev :=
  let x := d.streamer s
  if x.ended.get noExt w = some ext then d
  else match d.walk s w with
    | some v =>
      if v.step ≠ ext then d
      else
        let k := (x.reads.map (fun (r : PageRead) => (r.reqs.filter (fun q => q.world == w)).length)).sum
        let d := d.stm s R.STM_PG_ABANDONED 7 (v.len - v.next + k) false
        let d := d.updStreamer s (fun y => { y with reads :=
          (y.reads.map (fun r => { r with reqs := r.reqs.filter (fun q => q.world != w) })).filter (fun r => r.reqs != []) })
        d.setWalk s w (some { v with next := v.len })
    | none =>
      let since := match x.quiet.get noQuiet w with | some (_, t) => t | none => d.now
      let (base, len) := d.consistAt m s w ext
      let d := d.stm s R.STM_PG_ABANDONED 7 len false
      let d := (d.clearMaps s w).updStreamer s (fun y => { y with quiet := y.quiet.set noQuiet w none })
      d.setWalk s w (some { step := ext, base := base, len := len, next := len, since := since, missing := [] })

/-- The oldest STEP_ABANDON of a world arrives. -/
def Dev.stepAbandon (d : Dev) (m : Mem) (s w : Nat) : Dev :=
  match (d.streamer s).abandon.find? (fun q => q.1 == w) with
  | none => d
  | some q => (d.updStreamer s (fun y => { y with abandon := y.abandon.erase q })).abandonStep m s w q.2

/-- STEP_ABANDON_ARRIVAL (R187). -/
def execStepAbandonArrival (str : Fin 12) (w : Fin 4096) (s : State) : Host.Outcome State Fault Refusal :=
  onIsl 1 str (fun _ m d => d.stepAbandon m str w) s

end Sys2Proof.Machine
end

