-- ==== Sys2Proof/Machine/Image.lean ====
section
/-! DEFINITION. The Track Plan image (R33 to R40, R440): its layout, and the checks of R46 up to the Timetable. -/

namespace Sys2Proof.Machine

/-! ### Staging -/

/-- Bytes at a device address in Depot memory or GDDR6. -/
def Mem.devBytes (m : Mem) (a n : Nat) : List Byte :=
  if a < depotSize then m.depotBytes a n else m.gddrBytes (a - gddrBase) n

/-- A range lies wholly in Depot memory or in fitted GDDR6 capacity (R46). -/
def Dev.staged (d : Dev) (n : Nv) (a len : Nat) : Bool :=
  decide (a + len ≤ depotSize ∨ gddrBase ≤ a ∧ a + len ≤ gddrBase + d.gddrSize n)

/-- The staging address (TPL_SRC_HI, TPL_SRC_LO). -/
def Dev.tplSrc (d : Dev) : Nat := d.f R.TPL_SRC_HI 0 8 * 2 ^ 32 + (d.rd R.TPL_SRC_LO).toNat

/-! ### Runs (R440) -/

/-- A run of a segment: its window offset, its length, and its bytes (of a fill, its pattern repeated). -/
structure Run where
  off : Nat
  len : Nat
  data : List Byte
deriving DecidableEq, Repr

def repWord (w : List Byte) : Nat → List Byte
  | 0 => []
  | k + 1 => w ++ repWord w k

/-- The runs of a segment of type `typ`, placed one after another; none where one breaks R440. -/
def runsOf (typ : Nat) : Nat → List Byte → Option (List Run)
  | 0, _ => none
  | fuel + 1, bs =>
    if bs = [] then some []
    else
      let off := recNat bs 0 4
      let len := recNat bs 4 4
      let body := if typ = 0x12 then 4 else len
      let lo := if typ = 0x10 then 0x60000 else 0
      let hi := if typ = 0x11 then 0x60000 else 0x70000
      if bs.length < 8 + body ∨ off % 4 ≠ 0 ∨ len % 4 ≠ 0 ∨ len < 4 ∨ off < lo ∨ hi < off + len then none
      else
        let data := (bs.drop 8).take body
        (runsOf typ fuel (bs.drop (8 + body))).map
          ({ off := off, len := len, data := if typ = 0x12 then repWord data (len / 4) else data } :: ·)

def Segment.runs (s : Segment) : Option (List Run) := runsOf s.typ (s.bytes.length + 1) s.bytes

/-- The sequence of a VALIANT segment, if it ends exactly at the segment's end, padded with zero bytes (R440). -/
def Segment.valiant (s : Segment) : Option (List Nat) :=
  let l := recNat s.bytes 0 2
  if s.bytes.length = (2 + 2 * l + 3) / 4 * 4 ∧ 2 ≤ s.bytes.length ∧ (s.bytes.drop (2 + 2 * l)).all (· == 0) then
    some ((List.range l).map (fun i => recNat s.bytes (2 + 2 * i) 2))
  else none

/-! ### The plan an image spells -/

def Plan.ofType (p : Plan) (t : Nat) : List Segment := p.segs.filter (fun s => s.typ == t)
def Plan.only (p : Plan) (t : Nat) : List Byte := match p.ofType t with | s :: _ => s.bytes | [] => []

/-- The plan of an image that is not read. -/
def Plan.empty : Plan :=
  { planId := 0, flags := 0, gridW := 0, gridH := 0, ranks := [], sections := [], groups := [], worlds := [], segs := [] }

/-- Segment `i` of an image of `total` bytes at device address `a` (Table 2-2); no bytes are read outside the image. -/
def readSegment (m : Mem) (a total i : Nat) : Segment :=
  let e := m.devBytes (a + 64 + 16 * i) 16
  let at_ := a + 64 * recNat e 4 4
  { typ := recNat e 0 1, kind := recNat e 1 1, target := recNat e 2 2, ofs := at_, len := recNat e 8 4,
    crc := recWord e 12,
    bytes := if 64 * recNat e 4 4 + recNat e 8 4 ≤ total then m.devBytes at_ (recNat e 8 4) else [] }

/-- The population view of a section node record. -/
def readView (bs : List Byte) (ofs : Nat) : List Word := (List.range 256).map (fun k => recWord bs (ofs + 4 * k))

/-- Section node record `i` (Table 2-4). -/
def readSection (bs : List Byte) (i : Nat) : Section :=
  let r := recBytes bs (32 * i) 32
  { window := recNat r 0 2, parent := recNat r 2 2, x0 := recNat r 4 1, y0 := recNat r 5 1, width := recNat r 6 1,
    height := recNat r 7 1, keyBase := recWord r 8, keyMask := recWord r 12, defRoute := recWord r 16,
    view := readView bs (recNat r 20 4) }

/-- World record `i` (Table 2-5) with its stagger offset: of the first STAGGER segment, and 0 for every world where the image
has none.  R40 does not say what holds then (DESIGN CHOICE, log entry 50). -/
def readWorld (bs stagger : List Byte) (i : Nat) : WorldRec :=
  let r := recBytes bs (32 * i) 32
  { id := recNat r 0 2 % 4096, barrier := recNat r 2 2, timer := recNat r 4 1, policy := recNat r 5 1,
    stretchMax := recNat r 6 2, period := recNat r 8 4,
    stations := ((List.range (recNat r 12 2)).map (fun k => recNat bs (recNat r 16 4 + 2 * k) 2)).eraseDups,
    stagger := recNat stagger (4 * i) 4 }

/-- The plan an image at device address `a` spells; a patch keeps the live plan's structure where it carries none. -/
def readPlan (m : Mem) (a : Nat) (live : Option Plan) : Plan :=
  let h := m.devBytes a 64
  let segs := (List.range (recNat h 0x12 2)).map (readSegment m a (recNat h 8 8))
  let p : Plan := { planId := recWord h 0x18, flags := recNat h 6 2, gridW := recNat h 0x10 1, gridH := recNat h 0x11 1,
                    ranks := [], sections := [], groups := [], worlds := [], segs := segs }
  let rk := p.only 2
  let ranks := (List.range (rk.length / 2)).map (fun r => (recNat rk (2 * r) 1 % 64, recNat rk (2 * r + 1) 1 % 64))
  match live with
  | some q => { q with planId := p.planId, flags := p.flags, gridW := p.gridW, gridH := p.gridH,
                       ranks := if p.ofType 2 = [] then q.ranks else ranks, segs := segs }
  | none =>
    { p with
      ranks := ranks,
      sections := (List.range (recNat h 0x16 2)).map (readSection (p.only 1)),
      groups := (List.range 255).map (fun g => recNat (p.only 3) (288 * g) 288),
      worlds := (List.range (recNat h 0x14 2)).map (readWorld (p.only 4) (p.only 0x21)) }

/-- The ranks a segment addresses, directly or through its group (R38). -/
def Plan.targets (p : Plan) (s : Segment) : List Nat :=
  match s.kind with
  | 1 => [s.target]
  | 2 => if s.target = 0 then List.range (p.gridW * p.gridH)
         else onesBelow (p.gridW * p.gridH) (p.groups.getD (s.target - 1) 0)
  | _ => []

/-- The whole rank table that is distributed: the plan's own ranks, then the enabled stations outside its grid (R17, R37). -/
def Plan.rankTable (p : Plan) (n : Nv) : List Nat :=
  let own := p.ranks.map (fun q => posOf q.1 q.2)
  own ++ n.defaultRanks.filter (fun q => !own.contains q)

/-! ### Checks of R46, in order -/

/-- Two segments overlap. -/
def overlap (a b : Segment) : Bool := decide (a.ofs < b.ofs + b.len ∧ b.ofs < a.ofs + a.len)

/-- No two entries of a list stand in a relation. -/
def noPair {α : Type} (f : α → α → Bool) : List α → Bool
  | [] => true
  | x :: xs => xs.all (fun y => !f x y) && noPair f xs

/-- A segment's type, target and inner layout (Table 2-3, R440). -/
def Plan.segOk (p : Plan) (s : Segment) : Bool :=
  let dev := s.kind == 0
  let stn := s.kind == 1 && decide (s.target < p.gridW * p.gridH)
  let grp := s.kind == 2 && decide (s.target < 256)
  match s.typ with
  | 0x01 | 0x02 | 0x03 | 0x04 | 0x21 | 0x23 => dev
  | 0x05 => dev && decide (s.target < 4 ∧ s.len = 0x80000)
  | 0x20 => dev && decide (s.target < 12)
  | 0x10 | 0x12 => (stn || grp) && s.runs.isSome
  | 0x11 => stn && s.runs.isSome
  | 0x22 => (stn || grp) && s.valiant.isSome
  | _ => false

def patchable (t : Nat) : Bool := [0x02, 0x05, 0x10, 0x11, 0x12, 0x20, 0x22, 0x23].contains t

/-- Directory and segment layout (R33, R34, R35, R440): reason 0x0C. -/
def Plan.layoutOk (p : Plan) (h : List Byte) (a : Nat) (patch : Bool) : Bool :=
  let len := recNat h 8 8
  let k := recNat h 0x12 2
  decide (len % 64 = 0 ∧ 1 ≤ k ∧ k ≤ 4096 ∧ recNat h 0x14 2 ≤ 4096 ∧ recNat h 0x16 2 ≤ 1792 ∧ 64 + 16 * k ≤ len)
    && p.segs.all (fun s => decide (a + 64 + 16 * k ≤ s.ofs ∧ s.ofs + s.len ≤ a + len) && p.segOk s)
    && noPair overlap p.segs
    && (if patch then p.segs.all (fun s => patchable s.typ)
        else [1, 2, 3, 4, 0x23].all (fun t => (p.ofType t).length == 1)
          && decide (32 * recNat h 0x16 2 ≤ (p.only 1).length))

/-- Grid, rank table and group maps (R37, R38), and the grid of a patch (R50): reason 0x04. -/
def Plan.gridOk (p : Plan) (n : Nv) (live : Option Plan) : Bool :=
  let k := p.gridW * p.gridH
  let rk := p.only 2
  let tableOk := decide (rk.length = 2 * k) && (List.range k).all (fun r => (recNat rk (2 * r + 1) 1).testBit 7)
    && p.ranks.all (fun q => decide (q.1 < p.gridW ∧ q.2 < p.gridH)) && noPair (· == ·) p.ranks
  match live with
  | some q => p.gridW == q.gridW && p.gridH == q.gridH && (p.ofType 2 == [] || tableOk)
  | none => decide (p.gridW ≤ n.gridW ∧ p.gridH ≤ n.gridH) && tableOk && decide ((p.only 3).length = 255 * 288)
      && p.groups.all (fun g => g >>> k == 0)

/-- World records (R39): reason 0x05. -/
def Plan.worldsOk (p : Plan) : Bool :=
  let bs := p.only 4
  decide (32 * p.worlds.length ≤ bs.length)
    && noPair (fun a b => a.id == b.id || a.barrier == b.barrier) p.worlds
    && p.worlds.all (fun w => w.stations != [] && w.stations.all (fun r => decide (r < p.gridW * p.gridH))
        && decide (w.timer ≤ 31 ∧ w.policy ≤ 2 ∧ 1 ≤ w.period))
    && (List.range p.worlds.length).all (fun i =>
        decide (recNat bs (32 * i + 16) 4 + 2 * recNat bs (32 * i + 12) 2 ≤ bs.length))
    && (List.range (p.gridW * p.gridH)).all (fun r => decide ((p.worlds.filter (fun w => w.stations.contains r)).length ≤ 16))

/-- A rectangle lies within another: (x, y, width, height). -/
def within (a b : Nat × Nat × Nat × Nat) : Bool :=
  decide (b.1 ≤ a.1 ∧ b.2.1 ≤ a.2.1 ∧ a.1 + a.2.2.1 ≤ b.1 + b.2.2.1 ∧ a.2.1 + a.2.2.2 ≤ b.2.1 + b.2.2.2)
def Section.rect (s : Section) : Nat × Nat × Nat × Nat := (s.x0, s.y0, s.width, s.height)
def Section.holds (s : Section) (q : Nat × Nat) : Bool :=
  decide (s.x0 ≤ q.1 ∧ q.1 < s.x0 + s.width ∧ s.y0 ≤ q.2 ∧ q.2 < s.y0 + s.height)
def meets (a b : Section) : Bool :=
  decide (a.x0 < b.x0 + b.width ∧ b.x0 < a.x0 + a.width ∧ a.y0 < b.y0 + b.height ∧ b.y0 < a.y0 + a.height)

def Plan.section? (p : Plan) (w : Nat) : Option Section := p.sections.find? (fun s => s.window == w)

/-- The parent links from a section reach a top-level one. -/
def Plan.rooted (p : Plan) : Nat → Section → Bool
  | 0, _ => false
  | fuel + 1, s => if s.parent = 0xFFFF then true else match p.section? s.parent with
    | some q => p.rooted fuel q
    | none => false

/-- Section tree (R36, R160): reason 0x06. -/
def Plan.sectionsOk (p : Plan) : Bool :=
  let bs := p.only 1
  noPair (fun a b => a.window == b.window || (a.parent == b.parent && meets a b)) p.sections
    && p.sections.all (fun s =>
        decide (2304 ≤ s.window ∧ s.window ≤ 4095 ∧ 0 < s.width ∧ 0 < s.height)
          && within s.rect (0, 0, p.gridW, p.gridH)
          && p.rooted (p.sections.length + 1) s
          && (match p.section? s.parent with | some q => s.parent == 0xFFFF || within s.rect q.rect | none => s.parent == 0xFFFF)
          && !(bit s.defRoute 31 && decide (4 ≤ fld s.defRoute 0 3))
          && s.view.all (fun e => !bit e 31 || (match p.ranks[fld e 0 12]? with | some q => s.holds q | none => false)))
    && (List.range p.sections.length).all (fun i => decide (recNat bs (32 * i + 20) 4 + 1024 ≤ bs.length))

/-- Fitted capacity holds the consist tables and the page of every consist entry that a CONSISTS segment holds (R40, R372). -/
def Dev.consistsOk (d : Dev) (n : Nv) (s : Segment) : Bool :=
  let b := s.bytes
  n.streamerOn s.target && decide (0 < d.gddrSize n ∧ s.len ≤ d.gddrSize n) && (List.range 4096).all (fun w =>
    if !bit (recWord b (16 * w)) 31 then true
    else
      let list := 64 * recNat b (16 * w + 8) 4
      (List.range (fld (recWord b (16 * w)) 16 8 + 1)).all (fun k =>
        let at_ := 64 * recNat b (list + 8 * k) 4
        (List.range (recNat b (list + 8 * k + 4) 2)).all (fun i =>
          d.pageUsable n (fld (recWord b (at_ + 16 * i)) 0 25))))

/-- Timetable (R40): reason 0x07. -/
def Dev.timetableOk (d : Dev) (n : Nv) (p : Plan) (patch : Bool) : Bool :=
  let k := p.gridW * p.gridH
  p.segs.all (fun s => match s.typ with
    | 0x20 => d.consistsOk n s
    | 0x21 => patch || decide (s.len = 4 * p.worlds.length)
    | 0x22 => match s.valiant with
      | some l => [16, 32, 64, 128, 256, 512, 1024].contains l.length && l.all (fun r => decide (r < k))
      | none => false
    | 0x23 => decide (s.len = 8 * k + 4) && (List.range (2 * k + 1)).all (fun i => recWord s.bytes (4 * i) != 0)
    | _ => true)
  && p.worlds.all (fun w => decide (w.stagger < w.period))

/-- A rule of R59 and R90 for a valid descriptor of a station: reason 0x10. -/
def Dev.descOk (d : Dev) (p k : Nat) : Bool :=
  let q := d.pop p k
  let ring := fun (x : Pop) => x.ringLen
  if !q.valid then true
  else decide (1 ≤ q.slotCount ∧ q.slotCount ≤ 4096 ∧ q.slotBase + q.slotCount ≤ 4096 ∧ q.ringBase + q.ringLen ≤ 32768)
    && (q.ringFmt != 0 || q.ringBase % 2 == 0)
    && (d.slotWorld p q.modSlot).isSome
    && (d.validPops p).all (fun r => r.1 == k ||
        (decide (q.slotBase + q.slotCount ≤ r.2.slotBase ∨ r.2.slotBase + r.2.slotCount ≤ q.slotBase)
          && decide (q.ringBase + ring q ≤ r.2.ringBase ∨ r.2.ringBase + ring r.2 ≤ q.ringBase)))
    && (q.policy == 0 || q.model == 3 || [3, 4, 5, 6, 10, 12, 13].contains q.payFmt)
    && decide (q.payFmt < 14)

end Sys2Proof.Machine
end

