-- ==== Sys2Proof/Machine/Loader.lean ====
section
/-! DEFINITION. What the Track Plan loader writes (R46 to R50): station tables and their checks on a live fabric (R51, R157),
segments, the register groups that GO and the resets return, and the steps of GO (R48). -/

namespace Sys2Proof.Machine

/-! ### Words of the station tables (R18) -/

/-- Write a table word as it stands. -/
def Dev.putTable (d : Dev) (p off : Nat) (v : Word) : Dev :=
  let k := w32 (tableMask off)
  d.updSW p off (fun w => (v &&& k) ||| (w &&& ~~~k))

/-- A write of STN_MOD_VALUE[k] sets MOD_T to the present step of the slot's world in the station (R113). -/
def Dev.putModValue (d : Dev) (p k : Nat) (v : Word) : Dev :=
  (d.setSW p (modValue k) v).updSW p (modT k) (setFld · 0 16 (d.slotStep p k))

/-! ### Junction entries (R157, R51, R134) -/

def noStage (_ : Nat) : Nat × Option Word × Option Word := (0, none, none)

/-- Stage word 0x0 or 0x4 of an entry for a master. -/
def Dev.jStage (d : Dev) (p m j : Nat) (hi : Bool) (v : Word) : Dev :=
  d.updStn p (fun s =>
    let old := s.staged.get noStage m
    let old := if old.1 = j then old else (j, none, none)
    { s with staged := s.staged.set noStage m (if hi then (j, old.2.1, some v) else (j, some v, old.2.2)) })

/-- Take the words that a master has staged for an entry with a word 0x8, as one entry; its staging register is clear. -/
def Dev.jTake (d : Dev) (p m j : Nat) (v : Word) : Match × Dev :=
  let st := (d.stn p).staged.get noStage m
  let st := if st.1 = j then st.2 else (none, none)
  let old := d.jMatch p j
  ({ valid := bit v 31, key := st.1.getD old.key, mask := st.2.getD old.mask, mod := bit v 29 },
    d.updStn p (fun s => { s with staged := s.staged.set noStage m (0, none, none) }))

/-- Put an entry in place, with HITS zero. -/
def Dev.jPut (d : Dev) (p j : Nat) (e : Match) (v : Word) : Dev :=
  (((d.setSW p (jOff j) e.key).setSW p (jOff j + 4) e.mask).setSW p (jOff j + 8) v).setSW p (jOff j + 12) 0

/-- Commit an entry with the words that a master has staged for it. -/
def Dev.jCommit (d : Dev) (p m j : Nat) (v : Word) : Dev :=
  let v := v &&& w32 (tableMask 0x68008)
  let old := d.jMatch p j
  let (new, d) := d.jTake p m j v
  if d.collides old new || d.badTransit p new v then d.refuseCfg (some p) else d.jPut p j new v

/-- A word of a Junction entry that a LOAD writes, through the loader's own staging register; no world is live, so that no
check of R51 applies. -/
def Dev.jLoad (d : Dev) (p a : Nat) (v : Word) : Dev :=
  let j := (a - 0x68000) / 16
  match a % 16 / 4 with
  | 0 => d.jStage p Master.loader.idx j false v
  | 1 => d.jStage p Master.loader.idx j true v
  | 2 =>
    let v := v &&& w32 (tableMask 0x68008)
    let (e, d) := d.jTake p Master.loader.idx j v
    d.jPut p j e v
  | _ => d

/-! ### Population descriptors (R51, R56, R59) -/

/-- A valid descriptor whose world is live and not held. -/
def Dev.ownerBusy (d : Dev) (p : Nat) (q : Pop) : Bool := q.valid && (d.slotWorld p q.modSlot).any d.active

/-- The station writes POP of every slot that a valid descriptor owns (R56).  Of a slot that none owns the spec does not say
what POP reads: it keeps the value it had (DESIGN CHOICE, log entry 50). -/
def Dev.writePops (d : Dev) (p : Nat) : Dev :=
  let slots := (d.validPops p).foldl (fun (l : List (Nat × Nat)) q =>
    l ++ (List.range q.2.slotCount).map (fun i => (q.2.slotBase + i, q.1))) []
  { d with stnM := slots.foldl (fun m s => m.set zeroByte (skey p (slotOff s.1 + 10)) (BitVec.ofNat 8 s.2)) d.stnM }

/-- Write bytes at a window offset below 0x7_0000 as a LOAD does: memories through the row arbiter, tables word by word, and
POP where the run reaches the descriptors (R56). -/
def Dev.putRun (d : Dev) (p off : Nat) (bs : List Byte) : Dev :=
  let k := 0x60000 - off
  let d := if off < 0x60000 then d.signalStore p off (bs.take k) else d
  let tail := bs.drop k
  let start := max off 0x60000
  let d := (List.range (tail.length / 4)).foldl (fun (d : Dev) i =>
    let a := start + 4 * i
    let v := recWord tail (4 * i)
    if 0x68000 ≤ a ∧ a < 0x6C000 then d.jLoad p a v
    else if 0x6C000 ≤ a ∧ a < 0x6C100 ∧ a % 16 = 4 then d.putModValue p ((a - 0x6C000) / 16) v
    else d.putTable p a v) d
  if 4 ≤ tail.length ∧ start < 0x62000 then d.writePops p else d

/-- Write words of descriptor `k`, as one change, if the terms of R51 let them through. -/
def Dev.descWrite (d : Dev) (p k : Nat) (check : Bool) (ws : List (Nat × Word)) : Dev :=
  let new := ws.foldl (fun (d : Dev) w => d.putTable p (0x60000 + 32 * k + 4 * w.1) w.2) d
  if d.ownerBusy p (d.pop p k) || d.ownerBusy p (new.pop p k) || (check && !new.descOk p k) then d.refuseCfg (some p)
  else new.writePops p

/-! ### World slots (R39, R113) -/

/-- Write a word of STN_MOD_CFG under R113. -/
def Dev.modCfg1 (d : Dev) (p m : Nat) (v : Word) : Dev :=
  let old := d.sW p (modCfg m)
  let v := v &&& w32 (tableMask (modCfg m))
  let wOf := fun (c : Word) => if bit c 31 then some (fld c 0 12) else none
  let changes := bit old 31 != bit v 31 || fld old 0 12 != fld v 0 12
  let busy := (wOf old).any d.active || (wOf v).any d.active
  let twice := (wOf v).any (fun w => (List.range 16).any (fun k => k != m && d.slotWorld p k == some w))
  if (changes && busy) || twice then d.refuseCfg (some p) else d.setSW p (modCfg m) v

/-- The worlds of a rank in the plan, ascending. -/
def Plan.worldsOf (p : Plan) (r : Nat) : List Nat :=
  ((p.worlds.filter (fun w => w.stations.contains r)).map (·.id)).mergeSort (· ≤ ·)

/-- A LOAD begins with STN_MOD_CFG zero in every station: what no TABLE_SET writes reads zero (R39). -/
def Dev.clearSlots (d : Dev) : Dev :=
  { d with stnW := d.stnW.filter (fun q =>
      !decide (0x6C000 ≤ q.1 % 2 ^ 20 ∧ q.1 % 2 ^ 20 < 0x6C100 ∧ q.1 % 2 ^ 20 % 16 = 0)) }

/-- The loader assigns the worlds of rank `r` to the world slots of its station (R39). -/
def Dev.assignSlots (d : Dev) (p : Nat) (plan : Plan) (r : Nat) : Dev :=
  let ws := plan.worldsOf r
  (List.range 16).foldl (fun d m => d.updSW p (modCfg m) (fun c =>
    match ws[m]? with
    | some w => (c &&& 0x6F000000#32) ||| w32 (2 ^ 31 + w)
    | none => c &&& 0x6F000000#32)) d

/-! ### Checks 0x10, 0x11 and 0x0B of R46 -/

/-- The station of a rank under the rank table that an image establishes (R46). -/
def Plan.station (p : Plan) (r : Nat) : Option Nat := (p.ranks[r]?).map (fun q => posOf q.1 q.2)

/-- The mesh positions a segment addresses. -/
def Plan.places (p : Plan) (s : Segment) : List Nat := (p.targets s).filterMap p.station

/-- The runs of a segment that a station's tables take up. -/
def Segment.tableRuns (s : Segment) : List Run :=
  if s.typ = 0x10 ∨ s.typ = 0x12 then
    (s.runs.getD []).filterMap (fun r =>
      if r.off + r.len ≤ 0x60000 then none
      else if r.off < 0x60000 then
        some { off := 0x60000, len := r.off + r.len - 0x60000, data := r.data.drop (0x60000 - r.off) }
      else some r)
  else []

/-- The runs of the image's segments in the tables of the stations. -/
def Dev.withRuns (d : Dev) (plan : Plan) : Dev :=
  plan.segs.foldl (fun d s => (plan.places s).foldl (fun d p =>
    s.tableRuns.foldl (fun d r => d.putRun p r.off r.data) d) d) d

/-- The tables as the image would leave them.  A LOAD is checked on its own contents and worlds, which the loader assigns
whatever the segments hold (R39); a patch on what stands. -/
def Dev.wouldBe (d : Dev) (plan : Plan) (patch : Bool) : Dev :=
  if patch then d.withRuns plan
  else
    let w : PMap World := plan.worlds.foldl (fun m x => m.set wld0 x.id { World.init with live := true }) []
    let d : Dev := ({ d with stnW := [], worlds := w, tpl := { d.tpl with plan := some plan } } : Dev).withRuns plan
    (List.range plan.ranks.length).foldl (fun d r => match plan.station r with
      | some p => d.assignSlots p plan r
      | none => d) d

/-- The indices, in units of `stride` from `lo`, that a run touches below `hi`. -/
def Run.touches (r : Run) (lo hi stride : Nat) : List Nat :=
  (List.range ((hi - lo) / stride)).filter (fun k => decide (lo + stride * k < r.off + r.len ∧ r.off < lo + stride * (k + 1)))

/-- Every descriptor that a TABLE_SET carries meets R59 and R90: reason 0x10. -/
def Plan.descsOk (p : Plan) (d : Dev) : Bool :=
  (p.ofType 0x10).all (fun s => (p.places s).all (fun q => (s.runs.getD []).all (fun r =>
    (r.touches 0x60000 0x62000 32).all (d.descOk q))))

/-- Every Junction entry that a TABLE_SET carries meets R134: reason 0x11. -/
def Plan.junctionsOk (p : Plan) (d : Dev) : Bool :=
  (p.ofType 0x10).all (fun s => (p.places s).all (fun q => (s.runs.getD []).all (fun r =>
    (r.touches 0x68000 0x6C000 16).all (fun j => !d.badTransit q (d.jMatch q j) (d.sW q (jOff j + 8))))))

/-- Every live world that a patch touches is held (R50): reason 0x0B. -/
def Dev.patchHeld (d : Dev) (p : Plan) : Bool :=
  let free := d.worldIds.filter d.active
  p.segs.all (fun s => free.all (fun w => match s.typ with
    | 0x10 | 0x11 | 0x12 | 0x22 => (p.places s).all (fun q => (d.slotOf q w).isNone)
    | 0x05 => w % 4 != s.target
    | 0x20 => !bit (d.dirWord s.target w 0) 31 && !bit (recWord s.bytes (16 * w)) 31
    | 0x02 => false
    | _ => true))

/-- All checks of R46 in order: the REASON of the first that fails, 0 if none does, the plan, and how many bytes of staging
the loader reads.  An uncorrectable word fails the check of the bytes it stands in; the directory's is that of the layout
(log entry 38). -/
def Dev.checkImage (d : Dev) (n : Nv) (m : Mem) (patch : Bool) : Nat × Plan × Nat :=
  let a := d.tplSrc
  let live := if patch then d.tpl.plan else none
  let h := m.devBytes a 64
  let fl := recNat h 6 2
  let clean := fun (x len : Nat) => decide (depotSize ≤ x) || (depotScan (m, d) x len).1
  let early :=
    if a % 64 ≠ 0 ∨ !d.staged n a 64 then 0x0E
    else if recNat h 0 4 ≠ 0x4C505456 ∨ recNat h 4 2 ≠ 1 ∨ 4 ≤ fl ∨ (!patch ∧ fl.testBit 0) then 0x01
    else if patch ∧ !fl.testBit 0 then 0x0C
    else if crc32c (h.take 0x3C) ≠ recWord h 0x3C ∨ !clean a 64 then 0x02
    else if !d.staged n a (recNat h 8 8) then 0x0E
    else 0
  if early ≠ 0 then (early, Plan.empty, if early = 0x0E ∧ (a % 64 ≠ 0 ∨ !d.staged n a 64) then 0 else 64)
  else
    let p := readPlan m a live
    let would := d.wouldBe p patch
    let r :=
      if !clean (a + 64) (16 * recNat h 0x12 2) ∨ !p.layoutOk h a patch then 0x0C
      else if !p.segs.all (fun s => crc32c s.bytes == s.crc && clean s.ofs s.len) then 0x03
      else if !p.gridOk n live then 0x04
      else if !patch ∧ !p.worldsOk then 0x05
      else if !patch ∧ !p.sectionsOk then 0x06
      else if !d.timetableOk n p patch then 0x07
      else if !p.descsOk would then 0x10
      else if !p.junctionsOk would then 0x11
      else if patch ∧ !d.patchHeld p then 0x0B
      else 0
    (r, p, recNat h 8 8)

/-! ### Writing segments (R46) -/

/-- The runs of a patch reach the tables through the checks of R51 and R113. -/
def Dev.patchRun (d : Dev) (p : Nat) (r : Run) : Dev :=
  let d := if r.off < 0x60000 then d.signalStore p r.off (r.data.take (0x60000 - r.off)) else d
  let word := fun (a : Nat) => recWord r.data (a - r.off)
  let inRun := fun (a : Nat) => decide (r.off ≤ a ∧ a < r.off + r.len)
  let d := (r.touches 0x60000 0x62000 32).foldl (fun d k =>
    d.descWrite p k false (((List.range 8).filter (fun i => inRun (0x60000 + 32 * k + 4 * i))).map
      (fun i => (i, word (0x60000 + 32 * k + 4 * i))))) d
  ((List.range ((r.off + r.len - 0x62000) / 4)).map (fun i => 0x62000 + 4 * i)).foldl (fun d a =>
    if !inRun a then d
    else if a < 0x68000 then d.putTable p a (word a)
    else if a < 0x6C000 then
      match a % 16 / 4 with
      | 0 => d.jStage p Master.loader.idx ((a - 0x68000) / 16) false (word a)
      | 1 => d.jStage p Master.loader.idx ((a - 0x68000) / 16) true (word a)
      | 2 => d.jCommit p Master.loader.idx ((a - 0x68000) / 16) (word a)
      | _ => d
    else if a < 0x6C100 ∧ a % 16 = 0 then d.modCfg1 p ((a - 0x6C000) / 16) (word a)
    else if a < 0x6C100 ∧ a % 16 = 4 then d.putModValue p ((a - 0x6C000) / 16) (word a)
    else d.putTable p a (word a)) d

/-- A segment written at one station; STATION_MEMORY goes by Freight. -/
def Dev.writeAt (d : Dev) (patch : Bool) (s : Segment) (p : Nat) : Dev :=
  if s.typ = 0x22 then
    let d := d.updStn p (fun x => { x with valiant := s.valiant.getD [] })
    if patch then d.updSW p R.STN_FRT_VIDX (setFld · 0 10 0) else d
  else if s.typ = 0x11 then d
  else (s.runs.getD []).foldl (fun (d : Dev) r => if patch then d.patchRun p r else d.putRun p r.off r.data) d

/-- An edge entry written, under R51. -/
def Dev.edgePut (d : Dev) (j e : Nat) (ws : List Word) : Dev :=
  let w := fun (i : Nat) => ws.getD i 0
  let new : Match := { valid := bit (w 3) 31, key := w 0, mask := w 1, mod := bit (w 3) 30 }
  if d.collides (d.edgeMatch j e) new then d.refuseCfg none
  else (List.range 4).foldl (fun d i => d.setEdgeW j e i (w i)) d

/-- An EDGE_TABLES segment, entry by entry. -/
def Dev.edgeTable (d : Dev) (s : Segment) : Dev :=
  (quads (wordsOf s.bytes)).zipIdx.foldl (fun (d : Dev) q => d.edgePut s.target q.2 q.1) d

/-- The seeds of a SEEDS segment (R441). -/
def Dev.takeSeeds (d : Dev) (plan : Plan) (bs : List Byte) : Dev :=
  let k := plan.gridW * plan.gridH
  let d := (List.range k).foldl (fun d r => match plan.station r with
    | some p => d.updStn p (fun x => { x with seedLearn := recWord bs (8 * r), seedRing := recWord bs (8 * r + 4) })
    | none => d) d
  { d with tpl := { d.tpl with qSeed := recWord bs (8 * k) } }

/-- The streaming tables that the loader writes from the CONSISTS segments: the spec states no layout for them, so their
contents are free, and so is the place of the segment among those that fit (R176, R179, R192; log entry 9). -/
def Dev.streamTables (d : Dev) (n : Nv) (plan : Plan) (s len : Nat) : Dev :=
  let c := d.freeCtr
  let d := { d with freeCtr := c + 1 }
  let places := (d.gddrSize n - len) / 65536 + 1
  let d := d.wr (R.STM_CONSIST_BASE + 0x100 * s) (w32 (gddrBase / 65536 + (Config.freeWord c 0).toNat % places))
  (List.range plan.ranks.length).foldl (fun d r => match plan.station r with
    | some p => (List.range 32).foldl (fun d i =>
        let k := if i < 16 then 0xFFFFFFFF#32 else 0x8FFF0FFF#32
        d.setSW p (R.STN_STR_COLL + 4 * i) (Config.freeWord c (skey p i + 1) &&& k)) d
    | none => d) d

/-- A device segment in the first pass.  Edge tables of a LOAD wait for GO, and CONSISTS go by Freight. -/
def Dev.writeDevSeg (n : Nv) (patch : Bool) (plan : Plan) (d : Dev) (s : Segment) : Dev :=
  match s.typ with
  | 0x05 => if patch then d.edgeTable s else d
  | 0x20 => if patch then d else d.streamTables n plan s.target s.len
  | 0x23 => d.takeSeeds plan s.bytes
  | _ => d

/-! ### By Freight (R46, R198) -/

/-- The writes that carry bytes to a device address, each within a 4 KiB block, for a target of the loader. -/
def Dev.loadWrites (d : Dev) (n : Nv) (target a : Nat) (bs : List Byte) : List FReq :=
  (splitAt4K a bs.length).filterMap (fun q => (d.endpointOf n q.1).map (fun e =>
    { ep := epHost, typ := pWrite, dst := e, addr := q.1, rdst := 0, rcount := 0, data := (bs.drop (q.1 - a)).take q.2,
      owner := .load target, place := 0, rdev := none }))

/-- The Freight writes of a segment: a STATION_MEMORY segment to the rank that the table in force gives the station of its
TARGET (R198), a CONSISTS segment to the memory of its streamer. -/
def Dev.segWrites (d : Dev) (n : Nv) (plan : Plan) (s : Segment) : List FReq :=
  if s.typ = 0x11 then
    match (plan.station s.target).bind d.rankOf with
    | some r => (s.runs.getD []).flatMap (fun q => d.loadWrites n s.target (stationBase + r * 2 ^ 20 + q.off) q.data)
    | none => []
  else if s.typ = 0x20 then d.loadWrites n (epStreamer s.target) (gddrBase + d.consistBase s.target) s.bytes
  else []

/-- The target of a segment that goes by Freight. -/
def Segment.freightTarget (s : Segment) : Nat := if s.typ = 0x20 then epStreamer s.target else s.target

/-- The targets of a segment: ranks, or the endpoint of its streamer. -/
def Plan.sentTo (p : Plan) (s : Segment) : List Nat := if s.typ = 0x20 then [epStreamer s.target] else p.targets s

/-- The loader reads segments from staging once more, as it sends them: those in which it meets an uncorrectable word (R47,
R279). -/
def stagingRead (segs : List Segment) (x : Mem × Dev) : List Segment × (Mem × Dev) :=
  segs.foldl (fun y s => let (ok, z) := xdmaScan y.2 s.ofs s.len; (if ok then y.1 else y.1 ++ [s], z)) ([], x)

/-- A pass of the loader: every segment that one of the targets should hold goes to it, group segments included, and the world
slots of the stations are assigned (R39, R46).  What could not be read fails its targets. -/
def sendSegs (n : Nv) (patch : Bool) (plan : Plan) (sends : Nat → Bool) (x : Mem × Dev) : Mem × Dev :=
  let (hurt, (m, d)) := stagingRead (plan.segs.filter (fun s => (plan.sentTo s).any sends)) x
  let segs := plan.segs.filter (fun s => !hurt.contains s)
  let d : Dev := { d with tpl := { d.tpl with failed := hurt.flatMap plan.sentTo } }
  let d := segs.foldl (fun (d : Dev) s =>
    (((plan.targets s).filter sends).filterMap plan.station).foldl (fun d p => d.writeAt patch s p) d) d
  let d := if patch then d
    else ((List.range plan.ranks.length).filter sends).foldl (fun d r => match plan.station r with
      | some p => d.assignSlots p plan r
      | none => d) d
  (m, d.ask n ((segs.filter (fun s => sends s.freightTarget)).flatMap (d.segWrites n plan)))

/-- Some of the loader's Freight writes have still to end. -/
def Dev.loadFlying (d : Dev) : Bool :=
  let mine := fun (r : FReq) => match r.owner with | .load _ => true | _ => false
  d.fwait.any mine || d.txns.any (fun t => mine t.req)

/-- The first pass: every segment goes to its target, and the world slots are assigned (R39, R46). -/
def loaderPass (n : Nv) (patch : Bool) (plan : Plan) (x : Mem × Dev) : Mem × Dev :=
  let (m, d) := x
  let d := plan.segs.foldl (Dev.writeDevSeg n patch plan) d
  let d : Dev := { d with tpl := { d.tpl with oldW := d.stnW, oldM := d.stnM, written := true } }
  sendSegs n patch plan (fun _ => true) (m, if patch then d else d.clearSlots)

/-! ### Register groups that GO and the resets return -/

/-- The station registers that return at every reset of the station and at GO (R80, R105, R127, R150, R170, R193, R210,
R270, R309), and what goes with them: LOST (R133), staging (R157) and the sequencing of steps. -/
def Dev.stationRegs (d : Dev) (p : Nat) : Dev :=
  let d := ((d.resetSW p 0x70100 R.STN_SEC_KEY_BASE).resetSW p 0x70A80 0x70E00).resetSW p 0x70E20 0x70E24
  let d := d.setSW p stnIrqLatch 0
  (((d.updStn p (fun x => { x with lost := [], staged := [], release := [], opened := [], swept := [], quiet := [], sweepDue := [],
                                   turns := 0 })).emitState p).arbState p)

/-- Interchange registers that return at GO and at a COMPUTE reset (R149, R171, R192, R211, R269). -/
def Dev.xchRegs (d : Dev) : Dev :=
  let own := fun (k : Nat) => k % 2 ^ 40 == R.XCH_WLD_SEL || k % 2 ^ 40 == R.XCH_EDGE_SEL
    || decide (R.XCH_EDGE_IDX ≤ k % 2 ^ 40 ∧ k % 2 ^ 40 < R.XCH_EDGE_DATA + 16)
  let d : Dev := { d with wregs := d.wregs.filter (fun q => q.1 % 64 == wCfg), edgeCnt := [],
                          mregs := d.mregs.filter (fun q => !own q.1) }
  let d := (d.resetRegs R.XCH_WLD_FAULT_MAP (R.XCH_WLD_OVR_MAP + 512)).resetRegs R.XCH_EDGE_SEL R.XCH_EDGE_DEF
  let d := (d.resetReg R.XCH_EDGE_OVF).resetRegs R.XCH_FRT_RESEND (R.XCH_FRT_STALE + 4)
  let d := (List.range 12).foldl (fun d s =>
    (d.resetRegs (R.STM_STATUS + 0x100 * s) (R.STM_FRT_CFG + 0x100 * s)).resetRegs (R.STM_FRT_RESEND + 0x100 * s)
      (R.STM_FRT_STALE + 4 + 0x100 * s)) d
  let d := (List.range 256).foldl (fun d c =>
    (d.resetReg (encReg R.XCH_ENC_CLIP c)).resetRegs (decReg R.XCH_DEC_RECS c) (decReg R.XCH_DEC_MISS c + 4)) d
  d.resetRegs R.XCH_ENC_NAN (R.XCH_ED_OVF + 4)

/-- The states of the encoder and decoder channels are set as their codes state (R252, R265). -/
def Dev.encDecReset (d : Dev) : Dev :=
  let d := (List.range 256).foldl (fun (d : Dev) c => (d.encReset c).decReset c) d
  { d with encCnt := [] }

/-- A station's generators are loaded from the seeds it holds (R441). -/
def Dev.seedStation (d : Dev) (p : Nat) : Dev :=
  (d.setSW p R.STN_LRN_RNG (d.stn p).seedLearn).setSW p R.STN_RING_RNG (d.stn p).seedRing

/-! ### Going live (R48) -/

/-- A non-idle slot at GO (R57). -/
def Dev.slotGo (d : Dev) (p k : Nat) : Dev :=
  d.setSlot p k { d.slot p k with tUpd := 0, tSpk := 0, cross := 0, pend := false, spkValid := false }

/-- The innermost section that holds a logical station: no section within it holds the station too. -/
def Plan.innermost (p : Plan) (q : Nat × Nat) : Option Section :=
  p.sections.find? (fun s => s.holds q && !p.sections.any (fun t => t.parent == s.window && t.holds q))

/-- A station goes live. -/
def Dev.stationGo (d : Dev) (plan : Plan) (p : Nat) : Dev :=
  let d := ((d.stationRegs p).readStoreHdr p).writePops p
  let d := (List.range 16).foldl (fun d m => (d.slotsOf p m).foldl (fun d k => d.slotGo p k) d) d
  let d := ((d.rebuildOcc p).clearAllPre p).seedStation p
  let (b, k, r) := match plan.innermost (p % 48, p / 48) with
    | some s => (s.keyBase, s.keyMask, s.defRoute &&& 0x80000007#32)
    | none => (0, 0, 0)
  ((d.setSW p R.STN_SEC_KEY_BASE b).setSW p R.STN_SEC_KEY_MASK k).setSW p R.STN_SEC_DEF r

/-- A world of the plan becomes live: its barrier Block, step 0 to come, and its timer channel (R128, R305, R325). -/
def Dev.worldGo (d : Dev) (x : WorldRec) : Dev :=
  let d := (d.blkClaim x.barrier).tclaim x.timer
  d.setWld x.id { World.init with
    live := true, barrier := x.barrier, timer := x.timer, policy := x.policy, stretchMax := x.stretchMax,
    period := x.period, stagger := x.stagger, stations := x.stations.filterMap d.posOfRank, c0 := (d.timer x.timer).count.toNat,
    bankEmpty := true, cfg := d.wreg x.id wCfg }

/-- Bring a loaded plan to life. -/
def Dev.goLive (d : Dev) (n : Nv) (m : Mem) : Dev :=
  match d.tpl.plan with
  | none => d
  | some plan =>
    let d : Dev := { d with tpl := { d.tpl with ranks := plan.rankTable n } }
    let d := (plan.ofType 5).foldl (fun (d : Dev) s => d.edgeTable s) d
    let d := n.positions.foldl (fun (d : Dev) p => d.stationGo plan p) d
    let d := d.xchRegs.encDecReset.wr R.QNT_RNG d.tpl.qSeed
    let d := n.streamerList.foldl (fun (d : Dev) s => d.loadDirectory m s) d
    plan.worlds.foldl (fun (d : Dev) x => d.worldGo x) { d with worlds := [] }

end Sys2Proof.Machine
end

