-- ==== Sys2Proof/Machine/TrackPlan.lean ====
section
/-! DEFINITION. The Track Plan loader's commands (chapter 2): loads, patches, going live, holds, drains and stops. -/

namespace Sys2Proof.Machine

/-! ### TPL_STATUS (Tables 2-8 to 2-10) -/

abbrev tNoPlan : Nat := 0
abbrev tChecking : Nat := 1
abbrev tLoading : Nat := 2
abbrev tLoaded : Nat := 3
abbrev tLive : Nat := 4
abbrev tDraining : Nat := 5
abbrev tDrained : Nat := 6
abbrev tPatching : Nat := 7
abbrev tStopping : Nat := 8

def Dev.tplState (d : Dev) : Nat := d.f R.TPL_STATUS 0 4
def Dev.setTpl (d : Dev) (s : Nat) : Dev := d.setF R.TPL_STATUS 0 4 s

/-- A command arrives: accepted in the states listed, it clears DONE, ABORTED, REASON and ROUND; else REJECTED (R45). -/
def Dev.tplAccept (d : Dev) (states : List Nat) (f : Dev → Dev) : Dev :=
  if states.contains d.tplState then
    f (((d.andNot R.TPL_STATUS (2 ^ 16 + 2 ^ 17)).setF R.TPL_STATUS 8 8 0).setF R.TPL_STATUS 4 2 0)
  else d.orBits R.TPL_STATUS (2 ^ 19)

/-- The command ends in a state with a REASON, 0 for success. -/
def Dev.tplEnd (d : Dev) (reason state : Nat) : Dev :=
  let d := ((d.setTpl state).setF R.TPL_STATUS 8 8 reason).orBits R.TPL_STATUS (2 ^ 16 + if reason = 0 then 0 else 2 ^ 17)
  if state = tNoPlan then (d.wr R.TPL_PLAN_ID 0).resetRegs R.SEC_M_PLAN (R.SEC_M_PLAN + 32) else d

/-! ### Maps of ranks -/

/-- Write a map of 2,304 bits. -/
def Dev.setMap (d : Dev) (reg : Nat) (l : List Nat) : Dev :=
  (List.range 72).foldl (fun d i => d.wr (reg + 4 * i) (w32 (maskOf ((l.filter (fun r => r / 32 == i)).map (· % 32))))) d

/-- Write 32 bytes into eight words. -/
def Dev.setHash (d : Dev) (reg : Nat) (h : List Byte) : Dev :=
  (List.range 8).foldl (fun d i => d.wr (reg + 4 * i) (recWord h (4 * i))) d

/-- The 32 bytes of eight words. -/
def Dev.hashAt (d : Dev) (reg : Nat) : List Byte := ((List.range 8).map (fun i => wordBytes (d.rd (reg + 4 * i)))).flatten

/-- The ranks whose acknowledgement counts: every enabled station takes a RANK_TABLE (R44). -/
def Plan.ackRanks (p : Plan) (n : Nv) : List Nat :=
  if p.ofType 2 = [] then List.range (p.gridW * p.gridH) else List.range (n.gridW * n.gridH)

/-! ### LOAD and PATCH (R46, R47, R50) -/

/-- Requests of the loader that have no slot yet are dropped; its open transactions end by themselves (log entry 38). -/
def Dev.dropLoads (d : Dev) : Dev := d.disown (fun r => match r.owner with | .load _ => true | _ => false)

/-- The stations that a load or patch has written: a LOAD writes the world slots of every rank (R39). -/
def Dev.loadWritten (d : Dev) : List Nat :=
  match d.tpl.job, d.tpl.written with
  | some p, true => (if d.tpl.jobPatch then p.segs.flatMap p.targets else List.range p.ranks.length).filterMap p.station
  | _, _ => []

/-- The loader waits no longer for a Depot bank under test, unless the quantiser does, which is the same master (R277). -/
def Dev.loaderLeaves (d : Dev) : Dev :=
  if d.tpl.imageWait.isSome then
    let d : Dev := { d with tpl := { d.tpl with imageWait := none } }
    if 3 ≤ d.qntState && d.qntWaits d.qjob then d else d.bankGone (· == 8)
  else d

/-- The load or patch ends without success: its grant is gone, and the stations written are marked invalid by a LOAD (R47), and
by a PATCH that a reset ends (Table 17-5).  What waited for the rank table goes on (R209). -/
def Dev.loadFail (d : Dev) (n : Nv) (reason : Nat) : Dev :=
  let d := (d.tokStop rqLoader).dropLoads.loaderLeaves
  let d := if d.tpl.jobPatch && reason != 0x0A then d
    else d.loadWritten.foldl (fun (d : Dev) q => d.updStn q (fun x => { x with invalid := true })) d
  let s := if d.tplState = tPatching then tDrained else tNoPlan
  let d : Dev := { d with tpl := { d.tpl with job := none, waitFreight := false, newRanks := none, oldW := [], oldM := [], bad := [],
                                              written := false } }
  (d.serveSlots n).tplEnd reason s

/-- The image has passed its checks: digest, measurement (R393), and the request for a grant. -/
def Dev.loadAccepted (d : Dev) (n : Nv) (m : Mem) (patch : Bool) (p : Plan) : Dev :=
  let a := d.tplSrc
  let dig := sha3 (m.devBytes a (recNat (m.devBytes a 64) 8 8))
  let old := if patch then d.hashAt R.SEC_M_PLAN else List.replicate 32 0
  let d := (d.setHash R.TPL_DIGEST dig).setHash R.SEC_M_PLAN (sha3 (old ++ dig))
  let rt := patch && p.ofType 2 != []
  let d : Dev := { d with tpl := { d.tpl with
    job := some p, jobPatch := patch, waitFreight := rt, newRanks := if rt then some (p.rankTable n) else none,
    bad := p.ackRanks n ++ (p.ofType 0x20).map Segment.freightTarget, written := false } }
  let (d, ok) := d.tokAsk rqLoader
  if ok then d else d.loadFail n 0x08

/-- The loader checks the image in staging; it waits where that lies, in part, in a Depot bank under test (R287). -/
def tplImage (n : Nv) (patch : Bool) (x : Mem × Dev) : Mem × Dev :=
  let (m, d) := x
  if d.banksTested d.tplSrc (max 64 (recNat (m.devBytes d.tplSrc 64) 8 8)) then
    (m, { d.bankHold 8 with tpl := { d.tpl with imageWait := some patch } })
  else
  let d := { d with tpl := { d.tpl with imageWait := none } }
  let (r, p, len) := d.checkImage n m patch
  let (m, d) := (xdmaScan (m, d) d.tplSrc len).2
  if r ≠ 0 then (m, d.tplEnd r (if patch then tDrained else tNoPlan)) else (m, d.loadAccepted n m patch p)

/-- LOAD or PATCH: FAIL and ACK maps are cleared, and the image is checked. -/
def loadOrPatch (n : Nv) (patch : Bool) (states : List Nat) (x : Mem × Dev) : Mem × Dev :=
  let (m, d) := x
  let ok := states.contains d.tplState
  let d := d.tplAccept states id
  if ok then
    let d := ((d.wr R.TPL_FAIL_COUNT 0).setMap R.TPL_FAIL_MAP []).setMap R.TPL_ACK_MAP []
    tplImage n patch (m, d.setTpl (if patch then tPatching else tChecking))
  else (m, d)

/-- TPL_LOAD (R46). -/
def execTplLoad (s : State) : Host.Outcome State Fault Refusal := onMem (fun n x => loadOrPatch n false [tNoPlan] x) s

/-- TPL_PATCH (R50). -/
def execTplPatch (s : State) : Host.Outcome State Fault Refusal := onMem (fun n x => loadOrPatch n true [tDrained] x) s

/-- The loader holds its grant: the first pass goes out, unless a new rank table still waits for Freight (R50, R209). -/
def loaderGo (n : Nv) (x : Mem × Dev) : Mem × Dev :=
  let (m, d) := x
  match d.tpl.job with
  | none => x
  | some p =>
    if d.tpl.written ∨ (d.tpl.waitFreight ∧ d.txns ≠ []) then x
    else
      let d := if d.tpl.jobPatch then d else d.setTpl tLoading
      loaderPass n d.tpl.jobPatch p (m, d)

/-- The ranks that the bytes of a changed segment serve: of a SEEDS segment those whose seeds have changed. -/
def Plan.changedIn (p : Plan) (m : Mem) (s : Segment) : List Nat :=
  if s.typ = 0x23 then
    let now := m.devBytes s.ofs s.len
    (List.range (p.gridW * p.gridH)).filter (fun r => recBytes now (8 * r) 8 != recBytes s.bytes (8 * r) 8)
  else p.targets s

/-- The ranks served by segments that have changed in staging since they were checked (R47). -/
def Plan.changed (p : Plan) (m : Mem) (total : List Nat) : List Nat :=
  let segs := p.segs.filter (fun s => m.devBytes s.ofs s.len != s.bytes)
  if segs.any (fun s => s.typ == 2) then total else segs.flatMap (p.changedIn m)

/-- A word or a byte of a failed station's tables after a failed patch: old or new, which is open (R50). -/
def Dev.mixed (d : Dev) (ps : List Nat) : Dev :=
  let c := d.freeCtr
  let hit := fun (k : Nat) => ps.contains (k / 2 ^ 20)
  let ks := ((d.stnW.map (·.1) ++ d.tpl.oldW.map (·.1)).filter (fun k => hit k && decide (k % 2 ^ 20 < 0x70000)))
  let bs := ((d.stnM.map (·.1) ++ d.tpl.oldM.map (·.1)).filter hit)
  let old := d.tpl
  { d with freeCtr := c + 2
           stnW := ks.foldl (fun m k => if Config.freeBit c k then m.set stnDflt k (old.oldW.get stnDflt k) else m) d.stnW
           stnM := bs.foldl (fun m k => if Config.freeBit (c + 1) k then m.set zeroByte k (old.oldM.get zeroByte k) else m) d.stnM }

/-- The load or patch ends with stations failed after round 3. -/
def Dev.roundsFailed (d : Dev) (n : Nv) (p : Plan) (bad : List Nat) : Dev :=
  let bad := bad.filter (fun r => decide (r < 2304))
  let d := (d.setMap R.TPL_FAIL_MAP bad).wr R.TPL_FAIL_COUNT (w32 bad.length)
  let d := if d.tpl.jobPatch then d.mixed (bad.filterMap p.station) else d
  d.loadFail n 0x09

/-- The load or patch has succeeded, and what waited for the rank table goes on (R209).  The world directories of a PATCH's
CONSISTS segments take effect at the next GO, as R179 copies them (DESIGN CHOICE, log entry 50). -/
def Dev.loadDone (d : Dev) (n : Nv) (m : Mem) (p : Plan) : Dev :=
  let patch := d.tpl.jobPatch
  let d := (d.tokStop rqLoader).wr R.TPL_PLAN_ID p.planId
  let d : Dev := { d with tpl := { d.tpl with plan := some p, job := none, waitFreight := false, newRanks := none, oldW := [],
                                              oldM := [], bad := [], written := false } }
  let d := d.serveSlots n
  if patch then d.tplEnd 0 tDrained
  else
    let d := (List.range p.ranks.length).foldl (fun (d : Dev) r => match p.station r with
      | some q => d.updStn q (fun x => { x with invalid := false })
      | none => d) d
    if p.flags.testBit 1 then ((d.goLive n m).orBits R.TPL_STATUS (2 ^ 24)).tplEnd 0 tLive else d.tplEnd 0 tLoaded

/-- The reduction that ends a round, once every Freight write of it has ended (R46, R206).  A first pass that had to wait for
Freight is sent before it.  A streamer whose CONSISTS a fatal error kept from arriving is sent them again like a rank
whose bit is clear (log entry 38). -/
def roundEnd (n : Nv) (bad : List Nat) (x : Mem × Dev) : Mem × Dev :=
  let held := x.2.tok.grants.any (fun q => q.req == rqLoader)
  let x := if held then loaderGo n x else x
  let (m, d) := x
  match d.tpl.job, d.tpl.written && !d.loadFlying with
  | some p, true =>
    let all := p.ackRanks n
    let changed := p.changed m all
    let bad := d.tpl.bad.filter (fun r => bad.contains r || changed.contains r || d.tpl.failed.contains r)
    let d := d.setMap R.TPL_ACK_MAP (all.filter (fun r => !bad.contains r))
    let d : Dev := { d with tpl := { d.tpl with bad := bad } }
    let rnd := d.f R.TPL_STATUS 4 2
    if bad ≠ [] then
      if rnd = 3 then (m, d.roundsFailed n p bad)
      else sendSegs n d.tpl.jobPatch p bad.contains (m, d.setF R.TPL_STATUS 4 2 (rnd + 1))
    else if d.tpl.newRanks.isSome then (m, d)
    else (m, d.loadDone n m p)
  | _, _ => x

/-- LOAD_ROUND_END (R46). -/
def execLoadRoundEnd (bad : List Nat) (s : State) : Host.Outcome State Fault Refusal := onMem (fun n x => roundEnd n bad x) s

/-- Every rank has acknowledged the shadow, and the broadcast puts the new table in force, or none does (R209). -/
def Dev.rankSwitch (d : Dev) (n : Nv) (m : Mem) (acked : Bool) : Dev :=
  match d.tpl.job, d.tpl.newRanks with
  | some p, some rs =>
    if !d.tpl.written ∨ d.tpl.bad ≠ [] ∨ d.txns ≠ [] then d
    else if !acked then d.loadFail n 0x09
    else
      let d : Dev := { d with tpl := { d.tpl with ranks := rs } }
      let d := n.positions.foldl (fun (d : Dev) q => d.updSW q R.STN_FRT_VIDX (setFld · 0 10 0)) d
      d.loadDone n m p
  | _, _ => d

/-- RANK_TABLE_SWITCH (R209). -/
def execRankTableSwitch (acked : Bool) (s : State) : Host.Outcome State Fault Refusal :=
  onDev (fun n m d => d.rankSwitch n m acked) s

/-! ### GO (R48) -/

/-- GO at this device's loader. -/
def Dev.tplGo (d : Dev) (n : Nv) (m : Mem) : Dev :=
  d.tplAccept [tLoaded] (fun d => ((d.goLive n m).orBits R.TPL_STATUS (2 ^ 24)).tplEnd 0 tLive)

/-- TPL_GO. -/
def execTplGo (s : State) : Host.Outcome State Fault Refusal := onDev (fun n m d => d.tplGo n m) s

/-! ### HOLD, RELEASE, STOP (R48, R49, R52) -/

/-- A world selected in TPL_HOLD_SEL. -/
def Dev.selected (d : Dev) (w : Nat) : Bool := bit (d.rd (R.TPL_HOLD_SEL + 4 * (w / 32))) (w % 32)

/-- A world is held: input of its open step closes (R49). -/
def Dev.holdWorld (d : Dev) (w : Nat) : Dev :=
  if d.active w then (d.closeInput w).updWld w (fun x => { x with held := true }) else d

/-- A drain begins. -/
def Dev.drain (d : Dev) (ws : List Nat) (state : Nat) : Dev :=
  let d := ws.foldl (fun (d : Dev) w => d.holdWorld w) d
  { d with tpl := { d.tpl with limitHit := false } }.setTpl state

/-- HOLD. -/
def Dev.tplHold (d : Dev) : Dev := d.tplAccept [tLive, tDrained] (fun d => d.drain (d.worldIds.filter d.selected) tDraining)

/-- TPL_HOLD. -/
def execTplHold (s : State) : Host.Outcome State Fault Refusal := onDev (fun _ _ d => d.tplHold) s

/-- STOP. -/
def Dev.tplStop (d : Dev) : Dev :=
  d.tplAccept [tLoaded, tLive, tDraining, tDrained, tStopping] (fun d => d.drain d.liveIds tStopping)

/-- TPL_STOP. -/
def execTplStop (s : State) : Host.Outcome State Fault Refusal := onDev (fun _ _ d => d.tplStop) s

/-- A held world has drained: its step has ended, no copy of it is in flight, and its consists have ended (R49). -/
def Dev.drained (d : Dev) (w : Nat) : Bool :=
  let x := d.wld w
  let empty := fun (b : Nat) => let r := d.reading w b; decide (r.consumed ≤ r.created ∧ r.created - r.consumed ≤ r.lost)
  (x.faulted || !x.started || x.done || x.skip) && x.consist == [] && empty 0 && empty 1

def Dev.heldWorlds (d : Dev) : List Nat := d.worldIds.filter (fun w => (d.wld w).live && (d.wld w).held)

/-- HOLD_DRAINED (R49): the command ends here unless it has ended before. -/
def execHoldDrained (s : State) : Host.Outcome State Fault Refusal :=
  onDev (fun _ _ d =>
    if d.tplState = tDraining ∧ d.heldWorlds.all d.drained then
      if d.tpl.limitHit then d.setTpl tDrained else d.tplEnd 0 tDrained
    else d) s

/-- A world leaves its hold: its next step starts at the next boundary (R52), also that of a SKIP advance which is due, and its
fault is cleared (R144). -/
def Dev.releaseHold (d : Dev) (w : Nat) : Dev :=
  let x := d.wld w
  if x.live && x.held then
    let b := max x.nextB (d.nextBoundary x)
    (d.updWld w (fun x => { x with held := false, nextB := b, dueB := b, atOnce := false })).clearFault w
  else d

/-- RELEASE.  In DRAINING, while other worlds stay held, R52 says only 'the state stays DRAINED': the state stays as it is, and
the command ends with DONE and REASON 0 (DESIGN CHOICE, log entry 50). -/
def Dev.tplRelease (d : Dev) : Dev :=
  d.tplAccept [tDraining, tDrained] (fun d =>
    let d := (d.worldIds.filter d.selected).foldl (fun (d : Dev) w => d.releaseHold w) d
    d.tplEnd 0 (if d.heldWorlds = [] then tLive else d.tplState))

/-- TPL_RELEASE. -/
def execTplRelease (s : State) : Host.Outcome State Fault Refusal := onDev (fun _ _ d => d.tplRelease) s

/-- What the registers show of a world after it has left the live map (R149). -/
def World.stopped (x : World) : World :=
  { World.init with faulted := x.faulted, cause := x.cause, step := x.step, ext := x.ext, policy := x.policy, peak := x.peak }

/-- The live map is cleared: worlds, their Blocks and their timer channels are free (R48, R305, R325), and the default ranks
are in force again (R198). -/
def Dev.clearLive (d : Dev) (n : Nv) : Dev :=
  let d := d.liveIds.foldl (fun (d : Dev) w => (d.blkFree (d.wld w).barrier).updWld w World.stopped) d
  let d := d.tfreeAll.andNot R.TPL_STATUS (2 ^ 24)
  { d with tpl := { d.tpl with plan := none, ranks := n.defaultRanks }, sys := { d.sys with waitT := [] } }

/-- STOP_COMPLETE (R48). -/
def execStopComplete (s : State) : Host.Outcome State Fault Refusal :=
  onDev (fun n _ d =>
    if d.tplState = tStopping ∧ !d.tpl.limitHit ∧ d.liveIds.all d.drained then (d.clearLive n).tplEnd 0 tNoPlan else d) s

/-- DRAIN_LIMIT_EXPIRY (R48, R49). -/
def execDrainLimitExpiry (s : State) : Host.Outcome State Fault Refusal :=
  onDev (fun _ _ d =>
    if (d.tplState = tDraining ∨ d.tplState = tStopping) ∧ !d.tpl.limitHit ∧ d.rd R.TPL_DRAIN_LIMIT ≠ 0 then
      { d with tpl := { d.tpl with limitHit := true } }.tplEnd 0x0D d.tplState
    else d) s

/-- CANCEL ends the command in progress (R45). -/
def Dev.tplCancel (d : Dev) (n : Nv) : Dev :=
  d.tplAccept [tChecking, tLoading, tDraining, tStopping] (fun d =>
    if d.tplState = tChecking ∨ d.tplState = tLoading then d.loadFail n 0x0F
    else { d with tpl := { d.tpl with limitHit := true } }.tplEnd 0x0F tDraining)

/-- TPL_CANCEL. -/
def execTplCancel (s : State) : Host.Outcome State Fault Refusal := onDev (fun n _ d => d.tplCancel n) s

end Sys2Proof.Machine
end

