-- ==== Sys2Proof/Machine/StationTables.lean ====
section
/-! DEFINITION. Writes and reads of station windows at offsets 0x6_0000 and above (R18, R51, R59, R113, R157), and of the
edge entries through XCH_EDGE_IDX and XCH_EDGE_DATA (R171). -/

namespace Sys2Proof.Machine

/-- The device address of an offset in the window of a rank (R16). -/
def winAddr (rank off : Nat) : Nat := stationBase + rank * 2 ^ 20 + off

/-! ### Station registers (offsets 0x7_0000 and above) -/

/-- Registers of the slot table of collectors: a write is refused while the slot's world is live and not held (R176). -/
def Dev.streamWrite (d : Dev) (p off : Nat) (v : Word) : Dev :=
  let v := v &&& w32 (match regRow off with | some r => r.rw | none => 0)
  let busy := fun (m : Nat) => (d.slotWorld p m).any d.active
  let hit := if off < R.STN_STR_DEST then busy (fld (d.sW p off) 26 4) || busy (fld v 26 4)
    else busy ((off - R.STN_STR_DEST) / 4)
  if hit then d.refuseCfg (some p) else d.setSW p off v

/-- A write of a station register by its access codes. -/
def Dev.stnRegWrite (d : Dev) (p off : Nat) (v : Word) : Dev :=
  if off = stnIrqLatch then d.updSW p off (fun w => w &&& ~~~v)
  else if R.STN_STR_COLL ≤ off ∧ off < R.STN_STR_DEST + 64 then d.streamWrite p off v
  else match regRow off with
    | some r => d.updSW p off (fun w => accWrite r.rw r.w1c r.w1s w v)
    | none => d

/-- A write at offset `off` of a station window, at 0x6_0000 and above. -/
def Dev.stnWrite (d : Dev) (p m off : Nat) (v : Word) : Dev :=
  if off < 0x62000 then d.descWrite p ((off - 0x60000) / 32) true [(off % 32 / 4, v)]
  else if off < 0x68000 then d.putTable p off v
  else if off < 0x6C000 then
    match off % 16 / 4 with
    | 0 => d.jStage p m ((off - 0x68000) / 16) false v
    | 1 => d.jStage p m ((off - 0x68000) / 16) true v
    | 2 => d.jCommit p m ((off - 0x68000) / 16) v
    | _ => d
  else if off < 0x6C100 then
    let k := (off - 0x6C000) / 16
    match off % 16 / 4 with
    | 0 => d.modCfg1 p k v
    | 1 => d.putModValue p k v
    | _ => d.putTable p off v
  else if off < 0x70000 then d
  else d.stnRegWrite p off v

/-! ### Reads -/

/-- What a read of a station word at 0x6_0000 and above returns: fields that stand elsewhere are put in (R133, R210). -/
def Dev.stnValue (d : Dev) (p off : Nat) : Word :=
  if R.STN_WORLD_STEP ≤ off ∧ off < R.STN_WORLD_STEP + 64 then
    let m := (off - R.STN_WORLD_STEP) / 4
    setFld (d.sW p off) 16 8 (min 0xFF (d.lostOf p m ((d.slotStep p m) % 2)))
  else if off = R.STN_FRT_VIDX then setFld (d.sW p off) 16 11 (d.stn p).valiant.length
  else d.sW p off

/-- The two words of STN_SYN_OPS form one counter, which is read under R31. -/
def isOpsLo (off : Nat) : Bool := decide (R.STN_SYN_OPS_LO ≤ off ∧ off < R.STN_SYN_OPS_LO + 64)
def isOpsHi (off : Nat) : Bool := decide (R.STN_SYN_OPS_HI ≤ off ∧ off < R.STN_SYN_OPS_HI + 64)

/-- A read of a station word at 0x6_0000 and above, with what it clears or latches.  STN_CFG_REFUSED clears as the other
counters of a station do; the spec gives it no access code (PRESUMED, log entry 14). -/
def Dev.stnRead (d : Dev) (m : Master) (rank p off : Nat) : Word × Dev :=
  let v := d.stnValue p off
  if isOpsLo off then
    let hi := off - R.STN_SYN_OPS_LO + R.STN_SYN_OPS_HI
    (v, d.latch m (winAddr rank hi) (d.sW p hi))
  else if isOpsHi off then d.unlatch m (winAddr rank off) v
  else if off = stnCfgRefused then (v, d.setSW p off 0)
  else match regRow off with
    | some r => (v, if r.rc = 0 then d else d.updSW p off (accRead r.rc))
    | none => (v, d)

/-! ### The commands -/

/-- Carry out a write in the window of a rank. -/
def Dev.windowWrite (d : Dev) (n : Nv) (m : Master) (rank off : Nat) (v : Word) : Dev :=
  d.writeGate n m (winAddr rank off) (fun d => match d.posOfRank rank with
    | some p => d.stnWrite p m.idx off v
    | none => d)

/-- JUNCTION_ENTRY_STAGE (R157). -/
def execJunctionEntryStage (m : Master) (rank : Fin 2304) (idx : Fin 1024) (hi : Bool) (v : Word) (s : State) :
    Host.Outcome State Fault Refusal :=
  onDev (fun n _ d => d.windowWrite n m rank (jOff idx + if hi then 4 else 0) v) s

/-- JUNCTION_ENTRY_COMMIT (R157). -/
def execJunctionEntryCommit (m : Master) (rank : Fin 2304) (idx : Fin 1024) (v : Word) (s : State) :
    Host.Outcome State Fault Refusal :=
  onDev (fun n _ d => d.windowWrite n m rank (jOff idx + 8) v) s

/-- DESCRIPTOR_WRITE (R59). -/
def execDescriptorWrite (m : Master) (rank : Fin 2304) (idx : Fin 256) (word : Fin 8) (v : Word) (s : State) :
    Host.Outcome State Fault Refusal :=
  onDev (fun n _ d => d.windowWrite n m rank (0x60000 + 32 * idx + 4 * word) v) s

/-- MOD_CFG_WRITE (R113). -/
def execModCfgWrite (m : Master) (rank : Fin 2304) (slot : Fin 16) (v : Word) (s : State) : Host.Outcome State Fault Refusal :=
  onDev (fun n _ d => d.windowWrite n m rank (modCfg slot) v) s

/-- MOD_VALUE_WRITE (R113). -/
def execModValueWrite (m : Master) (rank : Fin 2304) (slot : Fin 16) (v : Word) (s : State) : Host.Outcome State Fault Refusal :=
  onDev (fun n _ d => d.windowWrite n m rank (modValue slot) v) s

/-! ### Edge entries (R171) -/

/-- The table and entry that a master's XCH_EDGE_IDX selects. -/
def Dev.edgeSel (d : Dev) (m : Master) : Nat × Nat :=
  let x := d.mrd m R.XCH_EDGE_IDX
  (fld x 16 2, fld x 0 15)

/-- A write of XCH_EDGE_IDX loads the selected entry. -/
def Dev.edgeIdx (d : Dev) (m : Master) (v : Word) : Dev :=
  let d := d.mwr m R.XCH_EDGE_IDX (v &&& 0x37FFF#32)
  let (j, e) := d.edgeSel m
  (List.range 4).foldl (fun d i => d.mwr m (R.XCH_EDGE_DATA + 4 * i) (d.edgeW j e i)) d

/-- An index beyond 32,767 lies nowhere (R15, R171). -/
def edgeBeyond (v : Word) : Bool := decide (32767 < fld v 0 16)

/-- EDGE_IDX_WRITE. -/
def execEdgeIdxWrite (m : Master) (v : Word) (s : State) : Host.Outcome State Fault Refusal :=
  onDev (fun n _ d =>
    if edgeBeyond v ∧ d.gate n m true R.XCH_EDGE_IDX = .open_ then d.fail m true R.XCH_EDGE_IDX .unmapped
    else d.writeGate n m R.XCH_EDGE_IDX (fun d => d.edgeIdx m v)) s

/-- A write of XCH_EDGE_DATA[3] commits the four words, unless R51 refuses them. -/
def Dev.edgeCommit (d : Dev) (m : Master) (v : Word) : Dev :=
  let d := d.mwr m (R.XCH_EDGE_DATA + 12) v
  let (j, e) := d.edgeSel m
  d.edgePut j e ((List.range 4).map (fun i => d.mrd m (R.XCH_EDGE_DATA + 4 * i)))

/-- EDGE_ENTRY_COMMIT.  DESIGN CHOICE (log entry 54): R287 speaks of copies alone; a commit to a table under test is aborted. -/
def execEdgeEntryCommit (m : Master) (v : Word) (s : State) : Host.Outcome State Fault Refusal :=
  onDev (fun n _ d =>
    if d.testing 3 (d.edgeSel m).1 then d.fail m true (R.XCH_EDGE_DATA + 12) .abort
    else d.writeGate n m (R.XCH_EDGE_DATA + 12) (fun d => d.edgeCommit m v)) s

end Sys2Proof.Machine
end

