-- ==== Sys2Proof/Machine/Firmware.lean ====
section
/-! DEFINITION. Firmware and security (chapter 18): the QSPI device, images, the boot record and the choice of a slot,
settings, write sessions, health, the customer key, and attestation. -/

namespace Sys2Proof.Machine

/-! ### The QSPI device (R373) -/

/-- What an erased byte reads. -/
def erased (_ : Nat) : Byte := 0xFF

def Nv.qbytes (n : Nv) (a k : Nat) : List Byte := readBytes erased n.qspi a k
def Nv.erase (n : Nv) (a k : Nat) : Nv := { n with qspi := n.qspi.clear a (a + k) }
def Nv.program (n : Nv) (a : Nat) (bs : List Byte) : Nv := { n with qspi := writeBytes erased n.qspi a bs }

def slotBase (s : Nat) : Nat := 0x1000000 * s
def regionBase (r : Nat) : Nat := 0x2100000 + 0x100000 * r

/-! ### Images (R374 to R377) -/

/-- A component of an image (Table 18-3). -/
structure Comp where
  typ : Nat
  off : Nat
  len : Nat
deriving DecidableEq, Repr

def compsOf (h : List Byte) : List Comp :=
  (List.range (min 8 (recNat h 0xD 1))).map (fun i =>
    { typ := recNat h (0x40 + 32 * i) 1, off := recNat h (0x44 + 32 * i) 4, len := recNat h (0x48 + 32 * i) 4 })

def maxLen (t : Nat) : Nat := match t with
  | 1 => 0x10000 | 2 => 0x10000 | 3 => 0x40000 | 4 => 0x20000 | 5 => 0x100000 | _ => 0

/-- The header meets R374 and R375. -/
def headerOk (h : List Byte) : Bool :=
  let len := recNat h 8 4
  let cs := compsOf h
  let count := recNat h 0xD 1
  decide (recNat h 0 4 = 0x4D474956 ∧ recNat h 4 2 = 1 ∧ len % 4 = 0 ∧ len ≤ 0x1000000 ∧ recNat h 0xC 1 ≤ 64
      ∧ 1 ≤ count ∧ count ≤ 8)
    && (recBytes h (0x40 + 32 * count) (256 - 32 * count)).all (· == 0)
    && cs.all (fun c => decide (c.off % 0x1000 = 0 ∧ 0x2000 ≤ c.off ∧ c.off + c.len ≤ len ∧ c.len ≤ maxLen c.typ
        ∧ 1 ≤ c.typ ∧ c.typ ≤ 5))
    && noPair (fun a b => decide (a.off < b.off + b.len ∧ b.off < a.off + a.len)) cs
    && [1, 2, 3, 4].all (fun t => (cs.filter (fun c => c.typ == t)).length == 1)
    && decide ((cs.filter (fun c => c.typ == 5)).length ≤ 1)

/-- A record with a range of bytes taken as zero. -/
def blank (bs : List Byte) (off len : Nat) : List Byte := bs.take off ++ List.replicate len 0 ++ bs.drop (off + len)

/-- The bytes of a component. -/
def compBytes (img : List Byte) (t : Nat) : List Byte :=
  match (compsOf img).find? (fun c => c.typ == t) with
  | some c => recBytes img c.off c.len
  | none => []

/-- The image without its customer bundle. -/
def unbundled (img : List Byte) : List Byte :=
  match (compsOf img).find? (fun c => c.typ == 5) with
  | some c => img.take c.off ++ img.drop (c.off + c.len)
  | none => img

/-- The image digest D (R376). -/
def digestD (img : List Byte) : List Byte := sha3 (unbundled (blank img 0x800 2420))

/-- The image is authentic (R376). -/
def Nv.authentic (n : Nv) (img : List Byte) : Bool :=
  let pk := recBytes img 0x200 1312
  sha3 pk == leBytes 32 n.rootHash.toNat && Config.verify pk (digestD img) (recBytes img 0x800 2420)

/-- The bundle digest C (R377). -/
def digestC (b : List Byte) : List Byte := sha3 (blank b 0x800 2420)

/-- The bundle of an image, at its own length. -/
def bundleOf (img : List Byte) : List Byte :=
  let c := compBytes img 5
  recBytes c 0 (min c.length (recNat c 8 4))

/-- A bundle is well formed and authentic under a customer key hash (R377). -/
def bundleOk (hash : BitVec 256) (b : List Byte) : Bool :=
  let pk := recBytes b 0x200 1312
  hash != 0 && recNat b 0 4 == 0x54535543 && decide (0x2000 ≤ b.length)
    && (List.range 7).all (fun i => decide (recNat b (0x44 + 16 * i) 4 ≤ 0x10000 ∧ recNat b (0x4C + 16 * i) 4 ≤ 0x10000
        ∧ recNat b (0x40 + 16 * i) 4 + recNat b (0x44 + 16 * i) 4 ≤ b.length
        ∧ recNat b (0x48 + 16 * i) 4 + recNat b (0x4C + 16 * i) 4 ≤ b.length))
    && sha3 pk == leBytes 32 hash.toNat && Config.verify pk (digestC b) (recBytes b 0x800 2420)

/-- The bytes of the image in a slot. -/
def Nv.image (n : Nv) (s : Nat) : List Byte := n.qbytes (slotBase s) (min 0x1000000 (leNat (n.qbytes (slotBase s + 8) 4)))

/-- The image of a slot passes verification (R379). -/
def Nv.slotVerifies (n : Nv) (s : Nat) : Bool :=
  headerOk (n.qbytes (slotBase s) 0x2000) && n.authentic (n.image s) && decide (n.rollback ≤ recNat (n.image s) 0xC 1)

/-! ### Boot record (R378) -/

/-- What the boot record says of a slot. -/
structure SlotRec where
  state : Nat
  boots : Nat
  svn : Nat
  region : Nat
  sver : Nat
deriving DecidableEq, Repr

structure BootRec where
  seq : Nat
  active : Nat
  fallback : Nat
  s0 : SlotRec
  s1 : SlotRec
deriving DecidableEq, Repr

abbrev sEmpty : Nat := 0
abbrev sPending : Nat := 1
abbrev sGood : Nat := 2
abbrev sRejected : Nat := 3

def BootRec.slot (b : BootRec) (s : Nat) : SlotRec := if s = 0 then b.s0 else b.s1
def BootRec.setSlot (b : BootRec) (s : Nat) (x : SlotRec) : BootRec := if s = 0 then { b with s0 := x } else { b with s1 := x }
def BootRec.updSlot (b : BootRec) (s : Nat) (f : SlotRec → SlotRec) : BootRec := b.setSlot s (f (b.slot s))

def slotRecOf (r : List Byte) (s : Nat) : SlotRec :=
  { state := recNat r (0x10 + 8 * s) 1, boots := recNat r (0x11 + 8 * s) 1, svn := recNat r (0x12 + 8 * s) 1,
    region := recNat r (0x13 + 8 * s) 1, sver := recNat r (0x14 + 8 * s) 2 }
def SlotRec.bytes (x : SlotRec) : List Byte :=
  leBytes 1 x.state ++ leBytes 1 x.boots ++ leBytes 1 x.svn ++ leBytes 1 x.region ++ leBytes 2 x.sver ++ leBytes 2 0

def bootCopy (c : Nat) : Nat := 0x2000000 + 0x1000 * c
/-- A copy, if its MAGIC and CRC are correct. -/
def Nv.bootAt (n : Nv) (c : Nat) : Option BootRec :=
  let r := n.qbytes (bootCopy c) 64
  if recNat r 0 4 = 0x44524342 ∧ crc32c (r.take 0x3C) = recWord r 0x3C then
    some { seq := recNat r 4 4, active := recNat r 8 1, fallback := recNat r 9 1, s0 := slotRecOf r 0, s1 := slotRecOf r 1 }
  else none

def BootRec.default : BootRec :=
  { seq := 0, active := 0, fallback := 0, s0 := { state := sGood, boots := 0, svn := 0, region := 0, sver := 0 },
    s1 := { state := sGood, boots := 0, svn := 0, region := 0, sver := 0 } }

/-- The copy that governs, and its record. -/
def Nv.governs (n : Nv) : Option Nat × BootRec :=
  match n.bootAt 0, n.bootAt 1 with
  | some a, some b => if (a.seq + 2 ^ 32 - b.seq) % 2 ^ 32 < 2 ^ 31 then (some 0, a) else (some 1, b)
  | some a, none => (some 0, a)
  | none, some b => (some 1, b)
  | none, none => (none, BootRec.default)

def Nv.bootRec (n : Nv) : BootRec := n.governs.2

/-- Write the boot record: the copy that does not govern is erased and programmed, with SEQ increased. -/
def Nv.setBoot (n : Nv) (b : BootRec) : Nv :=
  let (g, old) := n.governs
  let c := if g = some 0 then 1 else 0
  let r := leBytes 4 0x44524342 ++ leBytes 4 (old.seq + 1) ++ leBytes 1 b.active ++ leBytes 1 b.fallback ++ leBytes 6 0
    ++ b.s0.bytes ++ b.s1.bytes ++ leBytes 28 0
  (n.erase (bootCopy c) 0x1000).program (bootCopy c) (r ++ wordBytes (crc32c r))

def Nv.updSlot (n : Nv) (s : Nat) (f : SlotRec → SlotRec) : Nv := n.setBoot (n.bootRec.updSlot s f)

/-! ### Anti-rollback (R387) -/

/-- The count rises to `k`, and GOOD slots below it become REJECTED; the count never falls. -/
def Nv.rollTo (n : Nv) (k : Nat) : Nv :=
  if k ≤ n.rollback then n
  else
    let n := { n with rollback := max n.rollback (min k 64) }
    [0, 1].foldl (fun (n : Nv) s =>
      let x := n.bootRec.slot s
      if x.state = sGood ∧ x.svn < n.rollback then n.updSlot s (fun x => { x with state := sRejected }) else n) n

/-! ### Settings (R388, R389) -/

/-- A settings block in a list of bytes: its VERSION, SEQ and bytes, if its MAGIC, LENGTH and CRC are right. -/
def settingsIn (bs : List Byte) : Option (Nat × Nat × List Byte) :=
  let len := recNat bs 8 4
  if recNat bs 0 4 = 0x54455356 ∧ 32 ≤ len ∧ len ≤ 0x100000 then
    let b := recBytes bs 0 len
    if crc32c (blank b 28 4) = recWord b 28 then some (recNat b 4 2, recNat b 12 4, b) else none
  else none

/-- A region has room for a block and its replacement, one in each half (log entry 52). -/
abbrev settingsHalf : Nat := 0x80000

/-- The block of a region that governs, with its place in it: of two, the one with the later SEQ (R378, R389). -/
def Nv.settingsAt (n : Nv) (r : Nat) : Option (Nat × (Nat × Nat × List Byte)) :=
  if 2 ≤ r then none
  else match settingsIn (n.qbytes (regionBase r) 0x100000), settingsIn (n.qbytes (regionBase r + settingsHalf) settingsHalf) with
    | some a, some b =>
      some (if a.2.2.length ≤ settingsHalf ∧ (b.2.1 + 2 ^ 32 - a.2.1 - 1) % 2 ^ 32 < 2 ^ 31 then (settingsHalf, b) else (0, a))
    | some a, none => some (0, a)
    | none, some b => some (settingsHalf, b)
    | none, none => none

def Nv.settings (n : Nv) (r : Nat) : Option (Nat × Nat × List Byte) := (n.settingsAt r).map (·.2)

/-- A block with another VERSION and SEQ. -/
def reblock (b : List Byte) (version seq : Nat) : List Byte :=
  let h := leBytes 4 0x54455356 ++ leBytes 2 version ++ recBytes b 6 2 ++ recBytes b 8 4 ++ leBytes 4 seq ++ recBytes b 16 12
  let x := h ++ leBytes 4 0 ++ b.drop 32
  h ++ wordBytes (crc32c x) ++ b.drop 32

def Nv.putSettings (n : Nv) (r : Nat) (b : List Byte) : Nv := (n.erase (regionBase r) 0x100000).program (regionBase r) b

/-- Replace the block of a region by one of its VERSION, with SEQ increased: the half that does not govern is erased and
programmed; a block that does not fit a half takes the whole region (R389). -/
def Nv.replaceSettings (n : Nv) (r : Nat) (b : List Byte) : Nv :=
  let (old, seq) := match n.settingsAt r with
    | some (o, _, q, _) => (o, q)
    | none => (settingsHalf, recNat b 12 4)
  let b := reblock b (recNat b 4 2) (seq + 1)
  if settingsHalf < b.length then n.putSettings r b
  else
    let o := if old = 0 then settingsHalf else 0
    (n.erase (regionBase r + o) settingsHalf).program (regionBase r + o) b

/-- A region that holds nothing. -/
def Nv.regionErased (n : Nv) (r : Nat) : Bool :=
  !n.qspi.any (fun q => decide (regionBase r ≤ q.1 ∧ q.1 < regionBase r + 0x100000))

/-- The settings of the slot that starts: an empty block where both regions are erased, with a SEQ the spec leaves open; a
migrated one on the first boot of a PENDING slot whose SVER is greater.  A write that fails leaves the header without its CRC,
by which the next start knows of the failure (R389, log entry 52). -/
def Nv.startSettings (n : Nv) (s : Nat) (seq : Nat) (ok : Bool) : Nv :=
  let x := n.bootRec.slot s
  let ver := recNat (n.qbytes (slotBase s) 0x10) 0xE 2
  let n := if n.regionErased 0 ∧ n.regionErased 1 then
      (n.putSettings 0 (reblock (leBytes 8 0 ++ leBytes 4 32 ++ List.replicate 20 0) ver seq)).updSlot s
        (fun x => { x with region := 0 })
    else n
  match n.settings (n.bootRec.slot s).region with
  | some (v, q, b) =>
    if x.state = sPending ∧ x.boots ≤ 1 ∧ v < ver then
      let r := 1 - (n.bootRec.slot s).region
      let b := reblock b ver (q + 1)
      if ok then (n.putSettings r b).updSlot s (fun x => { x with region := r })
      else (n.erase (regionBase r) 0x100000).program (regionBase r) (b.take 28)
    else n
  | none => n

/-- The settings of a slot can be read: its region's block is whole and not newer than the slot (R388). -/
def Nv.settingsOk (n : Nv) (s : Nat) : Bool :=
  match n.settings (n.bootRec.slot s).region with
  | some (v, _, _) => decide (v ≤ recNat (n.qbytes (slotBase s) 0x10) 0xE 2)
  | none => false

/-- The data of the first record of a type in a settings block. -/
def settingsRecord (t : Nat) : Nat → List Byte → Option (List Byte)
  | 0, _ => none
  | fuel + 1, bs =>
    if bs.length < 4 then none
    else
      let len := recNat bs 2 2
      if recNat bs 0 2 = t then some (recBytes bs 4 len)
      else settingsRecord t fuel (bs.drop ((4 + len + 7) / 8 * 8))

/-- A region holds the beginning of a migrated block of a VERSION, and no whole block (log entry 52). -/
def Nv.migrationCut (n : Nv) (r ver : Nat) : Bool :=
  let h := n.qbytes (regionBase r) 8
  recNat h 0 4 == 0x54455356 && recNat h 4 2 == ver && (n.settings r).isNone

/-- A PENDING slot that has started before, and whose settings were not migrated then (R389).  BOOTS shows the start before,
or, where R379 counts none, what that start left in the other region. -/
def Nv.migrationFailed (n : Nv) (s : Nat) : Bool :=
  let x := n.bootRec.slot s
  let ver := recNat (n.qbytes (slotBase s) 0x10) 0xE 2
  match n.settings x.region with
  | some (v, _, _) => decide (v < ver) && (decide (1 ≤ x.boots) || n.migrationCut (1 - x.region) ver)
  | none => false

/-! ### The choice of a slot (R379) -/

/-- The other slot is EMPTY or REJECTED: steps 2 and 3 of R379 leave this one's BOOTS alone. -/
def BootRec.alone (b : BootRec) (s : Nat) : Bool :=
  let st := (b.slot (1 - s)).state
  st == sEmpty || st == sRejected

/-- Step 2 of R379 for a slot: PENDING with BOOTS 3, it becomes REJECTED with FALLBACK 1. -/
def Nv.bootsOver (n : Nv) (s : Nat) : Nv :=
  let b := n.bootRec
  if (b.slot s).state = sPending ∧ (b.slot s).boots = 3 ∧ b.alone s = false then
    n.setBoot { b.updSlot s (fun x => { x with state := sRejected }) with fallback := 1 }
  else n

/-- Step 3 for a slot that is PENDING: its BOOTS increases, and it is verified; one that fails becomes REJECTED with
FALLBACK 3.  A migration that was cut short counts as such a failure, and what it left is erased (R389). -/
def Nv.tryPending (n : Nv) (s : Nat) : Option (Nat × Bool) × Nv :=
  let b := n.bootRec
  let alone := b.alone s
  let late := n.migrationFailed s
  let cut := late && n.migrationCut (1 - (b.slot s).region) (recNat (n.qbytes (slotBase s) 0x10) 0xE 2)
  let n := if alone then n else n.updSlot s (fun x => { x with boots := x.boots + 1 })
  if n.slotVerifies s && !late then (some (s, !alone), n)
  else
    let n := if cut then n.erase (regionBase (1 - (b.slot s).region)) 0x100000 else n
    (none, n.setBoot { n.bootRec.updSlot s (fun x => { x with state := sRejected }) with fallback := 3 })

/-- Step 4: slot ACTIVE, or the other one when it is GOOD, which then becomes ACTIVE. -/
def Nv.tryActive (n : Nv) : Option (Nat × Bool) × Nv :=
  let a := n.bootRec.active
  if n.slotVerifies a then (some (a, false), n)
  else if (n.bootRec.slot (1 - a)).state = sGood ∧ n.slotVerifies (1 - a) then
    (some (1 - a, false), n.setBoot { n.bootRec with active := 1 - a, fallback := 3 })
  else (none, n)

/-- What stage 5 boots: a slot, if one passed, and whether the health timer watches it.  R379 speaks of one PENDING slot; of two
(SELECT while a PENDING slot runs) slot 0 is tried first, and slot 1 where it fails: the spec gives no order (log entry 52). -/
def Nv.choose (n : Nv) : Option (Nat × Bool) × Nv :=
  let n := [0, 1].foldl (fun (n : Nv) s => if (n.bootRec.slot s).state = sEmpty then n.erase (slotBase s) 0x1000 else n) n
  let act := n.bootRec.active
  let n := if (n.bootRec.slot act).state = sGood then n.rollTo (n.bootRec.slot act).svn else n
  let n := (n.bootsOver 0).bootsOver 1
  let next := fun (y : Option (Nat × Bool) × Nv) s =>
    if y.1 = none ∧ (y.2.bootRec.slot s).state = sPending then y.2.tryPending s else y
  match next (next (none, n) 0) 1 with
  | (some c, n) => (some c, n)
  | (none, n) => n.tryActive

/-! ### Loading the processors (R272, R380) -/

/-- Local memories of core `n`: ILM at 0, DLM at 0x1_0000. -/
def coreKey (n off : Nat) : Nat := n * 0x20000 + off

/-- Put a component into a local memory. -/
def Dev.loadCore (d : Dev) (n off : Nat) (bs : List Byte) : Dev :=
  { d with coreMem := writeBytes zeroByte d.coreMem (coreKey n off) bs }

/-- SB1 to SB7 from the bundle of an image: loaded and set running, or held with VERIFY_FAIL. -/
def Dev.loadBundle (d : Dev) (b : List Byte) (ok : Bool) : Dev :=
  (List.range 7).foldl (fun d i =>
    let e := 0x40 + 16 * i
    let n := i + 1
    if ok ∧ recNat b (e + 4) 4 ≠ 0 then
      let d := (d.loadCore n 0 (recBytes b (recNat b e 4) (recNat b (e + 4) 4))).loadCore n 0x10000
        (recBytes b (recNat b (e + 8) 4) (recNat b (e + 12) 4))
      d.setCore n { Core.init n with running := true, verified := true, verifyFail := false }
    else d.updCore n (fun c => { c with verified := false, verifyFail := true })) d

/-- A hash into eight words, byte 0 lowest. -/
def Dev.putHash (d : Dev) (reg : Nat) (h : List Byte) : Dev := d.setHash reg h

/-- Stage 5 loads the image of slot `s` (R380, R393). -/
def Dev.loadImage (d : Dev) (n : Nv) (s : Nat) (watched : Bool) : Dev :=
  let img := n.image s
  let b := bundleOf img
  let ok := compBytes img 5 != [] && bundleOk d.fwu.custHash b
  let d := (d.loadCore 0 0 (compBytes img 1)).loadCore 0 0x10000 (compBytes img 2)
  let d := d.setCore 0 { Core.init 0 with pc := 0x30100000#32, running := true, verified := true }
  let d := d.loadBundle b ok
  let d := (d.setHash R.SEC_M_FW (digestD img)).setHash R.SEC_M_CUST (if ok then digestC b else List.replicate 32 0)
  { d with microcode := compBytes img 3, training := compBytes img 4
           fwu := { d.fwu with booted := true, running := s, watched := watched, svn := recNat img 0xC 1, bundle := ok } }

/-! ### Sessions (R381 to R384) -/

def Dev.fwuState (d : Dev) : Nat := d.f R.FWU_STATUS 0 3
def Dev.setFwu (d : Dev) (s : Nat) : Dev := d.setF R.FWU_STATUS 0 3 s

/-- A command or session ends: DONE, with ERROR and a REASON if it had no effect. -/
def Dev.fwuDone (d : Dev) (reason : Nat) : Dev :=
  ((d.setF R.FWU_STATUS 8 8 reason).orBits R.FWU_STATUS (2 ^ 31 + if reason = 0 then 0 else 2 ^ 30)).irq1 105
def Dev.fwuReject (d : Dev) : Dev := d.orBits R.FWU_STATUS (2 ^ 29)

/-- Staging buffers in use: the chunks of the header stay in theirs, others wait there for the erase of their block. -/
def Fwu.staged (f : Fwu) : Nat := (f.got.filter (fun q => q.1 < 0x2000)).length + f.waiting.length
/-- FREE of FWU_STATUS. -/
def Dev.fwuFree (d : Dev) : Dev := d.setF R.FWU_STATUS 16 7 (64 - d.fwu.staged)

/-- A session begins by its route (R381). -/
def fwuStart (route : Nat) (x : Nv × Mem × Dev) : Nv × Mem × Dev :=
  let (n, m, d) := x
  if d.fwuState ≠ 0 ∨ d.f R.FWU_SOURCE 0 1 ≠ route then (n, m, d.fwuReject)
  else if (n.bootRec.slot d.fwu.running).state = sPending then (n, m, d.fwuDone 1)
  else
    let s := 1 - d.fwu.running
    let n := (n.erase (slotBase s) 0x1000).updSlot s (fun _ => { state := sEmpty, boots := 0, svn := 0, region := 0xFF, sver := 0 })
    let d := ((d.andNot R.FWU_STATUS (2 ^ 31 + 2 ^ 30)).setF R.FWU_STATUS 8 8 0).wr R.FWU_PROGRESS 0
    let d : Dev := { d with fwu := d.fwu.clear }
    (n, m, (d.setFwu (1 + route)).fwuFree)

/-- Program image bytes at an offset of the inactive slot. -/
def fwuProgram (n : Nv) (d : Dev) (off : Nat) (bs : List Byte) : Nv × Dev :=
  (n.program (slotBase (1 - d.fwu.running) + off) bs, d.upd R.FWU_PROGRESS (fun w => w32 (w.toNat + bs.length)))

/-- The 64 KiB block of an image offset has been erased. -/
def Dev.fwuErased (d : Dev) (off : Nat) : Bool := decide (off / 0x10000 < d.fwu.erased)

/-- Take a chunk: one of the header into staging, another into the slot, or into staging until its block is erased. -/
def fwuPut (n : Nv) (d : Dev) (off : Nat) (bs : List Byte) : Nv × Dev :=
  let d : Dev := { d with fwu := { d.fwu with got := d.fwu.got ++ [(off, bs.length)] } }
  let (n, d) : Nv × Dev :=
    if off < 0x2000 then (n, { d with fwu := { d.fwu with header := writeBytes zeroByte d.fwu.header off bs } })
    else if d.fwuErased off then fwuProgram n d off bs
    else (n, { d with fwu := { d.fwu with waiting := d.fwu.waiting ++ [(off, bs)] } })
  (n, d.fwuFree)

/-- LENGTH, once chunk 0 has come. -/
def Dev.fwuLength (d : Dev) : Option Nat :=
  if d.fwu.got.any (fun q => q.1 == 0) then some (leNat (readBytes zeroByte d.fwu.header 8 4)) else none

/-- Every byte up to LENGTH has been received. -/
def Dev.fwuAll (d : Dev) : Bool :=
  let has := fun (l i : Nat) => d.fwu.got.any (fun q => q.1 == 2048 * i && decide (min 2048 (l - 2048 * i) ≤ q.2))
  match d.fwuLength with
  | some l => (List.range ((l + 2047) / 2048)).all (has l)
  | none => false

/-- The blocks of 64 KiB of a slot. -/
abbrev slotBlocks : Nat := 256

/-- Every byte up to LENGTH has been received and the rest of the slot has been erased: VERIFYING (R381). -/
def Dev.fwuWhole (d : Dev) : Dev := if slotBlocks ≤ d.fwu.erased ∧ d.fwuAll then d.setFwu 3 else d

/-- The next block of the inactive slot has been erased: what waited for it is programmed. -/
def fwuEraseNext (n : Nv) (d : Dev) : Nv × Dev :=
  let b := d.fwu.erased
  let a := slotBase (1 - d.fwu.running) + 0x10000 * b
  let (go, stay) := d.fwu.waiting.partition (fun q => q.1 / 0x10000 == b)
  let d : Dev := { d with fwu := { d.fwu with erased := b + 1, waiting := stay } }
  let y := go.foldl (fun (y : Nv × Dev) q => fwuProgram y.1 y.2 q.1 q.2) (n.erase a 0x10000, d)
  (y.1, y.2.fwuFree.fwuWhole)

/-- A chunk at the image window (R382): none when it is refused. -/
def fwuChunk (bs : List Byte) (n : Nv) (d : Dev) : Option (Nv × Dev) :=
  let off := recNat bs 4 4
  let len := recNat bs 8 4
  let data := bs.drop 16
  let total := if off = 0 then some (recNat data 8 4) else d.fwuLength
  let inside := match total with
    | some l => (decide (off < l) || off == 0) && (len == 2048 || off + len == l)
    | none => true
  if d.fwuState ≠ 1 ∨ recNat bs 0 4 ≠ 0x4B4E4843 ∨ len % 4 ≠ 0 ∨ len < 4 ∨ 2048 < len ∨ bs.length ≠ 16 + len ∨ off % 2048 ≠ 0
      ∨ 0x1000000 ≤ off ∨ crc32c (bs.take 12 ++ data) ≠ recWord bs 12 then none
  else if d.fwu.got.any (fun q => q.1 == off) then some (n, d)
  else if !inside ∨ 64 ≤ d.fwu.staged then none
  else
    let (n, d) := fwuPut n d off data
    some (n, d.fwuWhole)

/-- FWU_BEGIN. -/
def execFwuBegin (s : State) : Host.Outcome State Fault Refusal := onAll (fun x => fwuStart 0 x) s

/-- FWU_START_SD (R383): the session is READING_SD from then on. -/
def fwuReadSd (sd : SdCard) (x : Nv × Mem × Dev) : Nv × Mem × Dev :=
  let was := x.2.2.fwuState
  let (n, m, d) := fwuStart 1 x
  if was ≠ 0 ∨ d.fwuState ≠ 2 then (n, m, d) else (n, m, { d with fwu := { d.fwu with card := some sd, vsel := sd.answers } })

/-- The image that a card holds: a FAT32 volume with the file, of its own LENGTH, read without an error (R383). -/
def sdImage (c : SdCard) : Option (List Byte) :=
  if c.answers && c.fat32 && !c.readError then
    c.file.bind (fun bs => if 12 ≤ bs.length ∧ bs.length = recNat bs 8 4 then some bs else none)
  else none

/-- The next block of the inactive slot has been erased, and the bytes of the file that belong there are read into it, the header
into staging; after the last block, VERIFYING.  A card that cannot be read ends the session. -/
def fwuSdNext (n : Nv) (d : Dev) : Nv × Dev :=
  match d.fwu.card.bind sdImage with
  | none => (n, d.fwuFail 6)
  | some bs =>
    let b := d.fwu.erased
    let from_ := if b = 0 then 0x2000 else 0x10000 * b
    let n := n.erase (slotBase (1 - d.fwu.running) + 0x10000 * b) 0x10000
    let d : Dev := { d with fwu := { d.fwu with erased := b + 1 } }
    let (n, d) := fwuProgram n d from_ ((bs.take (0x10000 * (b + 1))).drop from_)
    if b + 1 < slotBlocks then (n, d)
    else (n, { d with fwu := { d.fwu with card := none, header := writeBytes zeroByte [] 0 (bs.take 0x2000) } }.setFwu 3)

def execFwuStartSd (sd : SdCard) (s : State) : Host.Outcome State Fault Refusal := onAll (fun x => fwuReadSd sd x) s

/-- CANCEL (R384). -/
def Dev.fwuCancel (d : Dev) : Dev := if d.fwuState = 0 ∨ d.fwuState = 5 then d.fwuReject else d.fwuFail 8

/-- FWU_CANCEL. -/
def execFwuCancel (s : State) : Host.Outcome State Fault Refusal := onDev (fun _ _ d => d.fwuCancel) s

/-- The image as it stands at the end of a session, its header in staging. -/
def fwuImage (n : Nv) (d : Dev) : List Byte :=
  let h := readBytes zeroByte d.fwu.header 0 0x2000
  let len := min 0x1000000 (recNat h 8 4)
  (h ++ n.qbytes (slotBase (1 - d.fwu.running) + 0x2000) (len - 0x2000)).take len

/-- The REASON with which VERIFYING ends, 0 if the image passes (R381). -/
def fwuVerify (n : Nv) (d : Dev) : Nat :=
  let img := fwuImage n d
  if !headerOk (recBytes img 0 0x2000) then 2
  else if !n.authentic img then 3
  else if compBytes img 5 ≠ [] ∧ !bundleOk d.fwu.custHash (bundleOf img) then 5
  else if recNat img 0xC 1 < n.rollback then 4
  else if recNat img 0xE 2 < (n.bootRec.slot d.fwu.running).sver then 0xB
  else 0

/-- VERIFYING ends: the session goes on to COMMITTING, or it ends with the REASON. -/
def fwuVerified (n : Nv) (d : Dev) : Nv × Dev :=
  let r := fwuVerify n d
  (n, if r = 0 then d.setFwu 4 else d.fwuFail r)

/-- COMMITTING ends: the header is programmed and the slot is PENDING. -/
def fwuCommitted (n : Nv) (d : Dev) : Nv × Dev :=
  let s := 1 - d.fwu.running
  let img := fwuImage n d
  let n := n.program (slotBase s) (recBytes img 0 0x2000)
  let n := n.updSlot s (fun _ => { state := sPending, boots := 0, svn := recNat img 0xC 1,
                                   region := (n.bootRec.slot d.fwu.running).region, sver := recNat img 0xE 2 })
  let d : Dev := { d with fwu := d.fwu.clear }
  (n, ((d.setFwu 0).upd R.FWU_PROGRESS (fun w => w32 (w.toNat + 0x2000))).fwuDone 0)

/-- SETTINGS ends: the block stands in the running slot's region. -/
def fwuSettled (n : Nv) (d : Dev) : Nv × Dev :=
  (n.replaceSettings (n.bootRec.slot d.fwu.running).region d.fwu.setting, ({ d with fwu := d.fwu.clear }.setFwu 0).fwuDone 0)

/-- The present piece of a session's work, or of the writing of settings, is done. -/
def fwuAdvance (n : Nv) (d : Dev) : Nv × Dev :=
  match d.fwuState with
  | 1 => if d.fwu.erased < slotBlocks then fwuEraseNext n d else (n, d)
  | 2 => fwuSdNext n d
  | 3 => fwuVerified n d
  | 4 => fwuCommitted n d
  | 5 => if d.fwu.setWait then (n, d) else fwuSettled n d
  | _ => (n, d)

/-- Up to `k` blocks are erased, and the card read into them, while an image that has come is not yet VERIFYING. -/
def fwuGather (n : Nv) (d : Dev) : Nat → Nv × Dev
  | 0 => (n, d)
  | k + 1 =>
    if d.fwuState = 2 ∨ (d.fwuState = 1 ∧ d.fwuAll) then let y := fwuAdvance n d; fwuGather y.1 y.2 k else (n, d)

/-- Up to `k` of the pieces of work that follow VERIFYING, COMMITTING and SETTINGS. -/
def fwuFinish (n : Nv) (d : Dev) : Nat → Nv × Dev
  | 0 => (n, d)
  | k + 1 => if d.fwuState < 3 then (n, d) else let y := fwuAdvance n d; fwuFinish y.1 y.2 k

/-- FWU_SESSION_END: the QSPI device fails, or all that remains once the image has come is done. -/
def fwuEnd (ok : Bool) (x : Nv × Mem × Dev) : Nv × Mem × Dev :=
  let (n, m, d) := x
  if d.fwuState = 0 then x
  else if !ok then (n, m, d.fwuFail 7)
  else let y := fwuGather n d slotBlocks; let y := fwuFinish y.1 y.2 2; (y.1, m, y.2)

def execFwuSessionEnd (qspiOk : Bool) (s : State) : Host.Outcome State Fault Refusal := onAll (fun x => fwuEnd qspiOk x) s

/-! ### Commands on the boot record, settings and key (R389 to R391) -/

/-- FWU_SELECT (R390).  Only slots 0 and 1 exist; another number is reserved. -/
def fwuPick (k : Nat) (x : Nv × Mem × Dev) : Nv × Mem × Dev :=
  let (n, m, d) := x
  let b := n.bootRec.slot k
  if d.fwuState ≠ 0 then (n, m, d.fwuReject)
  else if 1 < k ∨ b.state ≠ sGood ∨ k = d.fwu.running ∨ b.region = 0xFF ∨ b.svn < n.rollback then (n, m, d.fwuDone 0xB)
  else (n.updSlot k (fun x => { x with state := sPending, boots := 0 }), m, d.fwuDone 0)

def execFwuSelect (slot : Fin 16) (s : State) : Host.Outcome State Fault Refusal := onAll (fun x => fwuPick slot x) s

/-- The block at FWU_SET_SRC, of the running VERSION, is read from Depot memory; it goes into the running slot's region, with STATE
SETTINGS meanwhile.  A bank under test holds the read up (R287). -/
def fwuSetRead (x : Nv × Mem × Dev) : Nv × Mem × Dev :=
  let (n, m, d) := x
  let a := d.f R.FWU_SET_SRC 0 24
  let len := min 0x100000 (leNat (m.depotBytes (a + 8) 4))
  if d.banksTested a (max 32 len) then (n, m, { d.setFwu 5 with fwu := { d.fwu with setWait := true } }) else
  let d : Dev := { d.setFwu 0 with fwu := { d.fwu with setWait := false } }
  let (ok, (m, d)) := depotScan (m, d) a (max 32 len)
  let slot := n.bootRec.slot d.fwu.running
  match settingsIn (m.depotBytes a (max 32 len)) with
  | some (v, _, b) =>
    if ok ∧ a + len ≤ depotSize ∧ slot.region < 2 ∧ v = ((n.settings slot.region).map (·.1)).getD slot.sver then
      (n, m, { d.setFwu 5 with fwu := { d.fwu with setting := b } })
    else (n, m, d.fwuDone 0xD)
  | none => (n, m, d.fwuDone 0xD)

/-- FWU_SET_WRITE (R389). -/
def fwuSettings (x : Nv × Mem × Dev) : Nv × Mem × Dev :=
  if x.2.2.fwuState ≠ 0 then (x.1, x.2.1, x.2.2.fwuReject) else fwuSetRead x

def execFwuSetWrite (s : State) : Host.Outcome State Fault Refusal := onAll (fun x => fwuSettings x) s

/-- FWU_CUSTKEY (R391). -/
def fwuKey (x : Nv × Mem × Dev) : Nv × Mem × Dev :=
  let (n, m, d) := x
  let v : BitVec 256 := BitVec.ofNat 256 (leNat (d.hashAt R.FWU_CUSTKEY))
  if d.fwuState ≠ 0 then (n, m, d.fwuReject)
  else if n.custHash ≠ 0 ∨ v = 0 then (n, m, d.fwuDone 0xC)
  else ({ n with custHash := v }, m, d.fwuDone 0)

def execFwuCustkey (s : State) : Host.Outcome State Fault Refusal := onAll (fun x => fwuKey x) s

/-! ### Health (R385, R386) -/

/-- FWU_HEALTH_OK: the running PENDING slot is confirmed. -/
def fwuConfirm (v : Word) (x : Nv × Mem × Dev) : Nv × Mem × Dev :=
  let (n, m, d) := x
  let s := d.fwu.running
  let b := n.bootRec
  if !bit (d.rd R.SYS_BOOT_STAGE) 31 ∨ v ≠ 0x4845414C#32 ∨ (b.slot s).state ≠ sPending then (n, m, d.fwuReject)
  else
    let b := b.updSlot s (fun x => { x with state := sGood })
    let b := b.updSlot (1 - s) (fun x => if x.region = (b.slot s).region then x else { x with region := 0xFF })
    ((n.setBoot { b with active := s }).rollTo d.fwu.svn, m, { d with fwu := { d.fwu with watched := false } })

def execFwuHealthOk (v : Word) (s : State) : Host.Outcome State Fault Refusal := onAll (fun x => fwuConfirm v x) s

/-- HEALTH_TIMER_EXPIRY: the slot is given up, and a WARM reset follows 10 µs later. -/
def fwuExpire (x : Nv × Mem × Dev) : Nv × Mem × Dev :=
  let (n, m, d) := x
  if !d.fwu.watched then x
  else
    let b := n.bootRec.updSlot d.fwu.running (fun x => { x with state := sRejected })
    let d : Dev := { d.irq1 105 with
      fwu := { d.fwu with watched := false }, rst := { d.rst with due := d.rst.due.orElse (fun _ => some (d.now + 1000, 2, .sb0)) } }
    (n.setBoot { b with fallback := 2 }, m, d)

def execHealthTimerExpiry (s : State) : Host.Outcome State Fault Refusal := onAll (fun x => fwuExpire x) s

/-- FWU_BOOT and FWU_SLOT as they read (Table 18-8), once stage 5 has chosen a slot. -/
def fwuBootWord (n : Nv) (d : Dev) : Word :=
  if !d.fwu.booted then 0
  else w32 (d.fwu.running * 2 ^ 31 + n.bootRec.active % 2 * 2 ^ 30 + n.bootRec.fallback % 4 * 2 ^ 28 + n.rollback)
def fwuSlotWord (n : Nv) (d : Dev) (s : Nat) : Word :=
  let x := n.bootRec.slot s
  if !d.fwu.booted then 0 else w32 (x.state % 4 * 2 ^ 30 + x.boots % 4 * 2 ^ 28 + x.svn * 2 ^ 16 + x.sver)

/-! ### Keys and attestation (R392 to R394) -/

/-- The seed of the device key. -/
def Nv.keySeed (n : Nv) : BitVec 256 :=
  BitVec.ofNat 256 (leNat (sha3 (leBytes 32 n.devSeed.toNat ++ leBytes 8 n.serial.toNat)))

/-- Stage 1: the device key and the measurement of the ROM. -/
def Dev.deriveKey (d : Dev) (n : Nv) : Dev :=
  let pk := recBytes (Config.devicePublicKey n.keySeed) 0 1312
  let d := (List.range 328).foldl (fun (d : Dev) i => d.wr (R.SEC_DEVPK + 4 * i) (recWord pk (4 * i))) d
  (d.setHash R.SEC_DEVPK_HASH (sha3 pk)).setHash R.SEC_M_ROM (sha3 Config.bootRom)

/-- Bytes 0x000 to 0x0FF of a report (Table 18-7). -/
def reportBody (n : Nv) (d : Dev) : List Byte :=
  let live := bit (d.rd R.TPL_STATUS) 24
  let pend := (n.bootRec.slot d.fwu.running).state == sPending
  leBytes 4 0x54545356 ++ leBytes 2 1 ++ leBytes 2 0x0A74 ++ leBytes 8 n.serial.toNat ++ leBytes 2 (d.rd R.SYS_ORDER).toNat
    ++ leBytes 1 (d.rd R.SYS_REV).toNat
    ++ leBytes 1 ((if live then 1 else 0) + (if pend then 2 else 0) + 4 * d.fwu.running + (if d.fwu.bundle then 8 else 0))
    ++ leBytes 1 d.fwu.svn ++ leBytes 1 n.rollback ++ leBytes 2 0 ++ wordBytes (d.rd R.TPL_PLAN_ID)
    ++ leBytes 4 n.bootRec.seq ++ d.hashAt R.SEC_NONCE ++ d.hashAt R.SEC_M_ROM ++ d.hashAt R.SEC_M_FW ++ d.hashAt R.SEC_M_CUST
    ++ d.hashAt R.SEC_M_PLAN ++ leBytes 32 n.custHash.toNat ++ d.hashAt R.SEC_DEVPK_HASH

/-- SEC_ATTEST: the report is bound to what its fields show now. -/
def Dev.attest (d : Dev) (n : Nv) : Dev :=
  if bit (d.rd R.SEC_STATUS) 31 then d.orBits R.SEC_STATUS (2 ^ 29)
  else { d.orBits R.SEC_STATUS (2 ^ 31) with fwu := { d.fwu with report := reportBody n d } }

def execSecAttest (s : State) : Host.Outcome State Fault Refusal := onDev (fun n _ d => d.attest n) s

/-- ATTEST_DONE: the signed report appears. -/
def Dev.attested (d : Dev) (n : Nv) : Dev :=
  if !bit (d.rd R.SEC_STATUS) 31 then d
  else
    let r := d.fwu.report ++ recBytes (Config.deviceSign n.keySeed (sha3 d.fwu.report)) 0 2420
    let d := (List.range 669).foldl (fun (d : Dev) i => d.wr (R.SEC_REPORT + 4 * i) (recWord r (4 * i))) d
    { ((d.andNot R.SEC_STATUS (2 ^ 31)).orBits R.SEC_STATUS (2 ^ 30)).irq1 105 with fwu := { d.fwu with report := [] } }

def execAttestDone (s : State) : Host.Outcome State Fault Refusal := onDev (fun n _ d => d.attested n) s

end Sys2Proof.Machine
end

