-- ==== Sys2Proof/Machine/FreightCmd.lean ====
section
/-! DEFINITION. Freight packets where they arrive (R203, R205 to R207): the checks, what stations, streamers, the
Interchange and the trunk endpoints do with them, and what a transaction's end sets going. -/

namespace Sys2Proof.Machine

/-! ### What waits for transactions -/

/-- Answer the host block requests whose transactions have all ended (R241). -/
def Dev.finishJobs (d : Dev) : Dev :=
  let done := d.link.jobs.filter (fun j => j.left == 0)
  let d := { d with link := { d.link with jobs := d.link.jobs.filter (fun j => j.left != 0) } }
  done.foldl (fun (d : Dev) j =>
    let d := d.raise 1 j.units
    if j.code ≠ 0 then d.nack j.seq j.code 0
    else if j.write then (if j.noack then d else d.ack j.seq [])
    else d.ack j.seq (readBytes zeroByte j.got 0 j.len)) d

/-- After a transaction has ended, those that waited for it go on. -/
def afterFreight (n : Nv) (x : Mem × Dev) : Mem × Dev :=
  let (m, d) := Dev.qntAdvance n x
  (m, d.finishJobs)

/-! ### Stations -/

/-- A NACK from a station, which it counts. -/
def Dev.stnNack (d : Dev) (n : Nv) (p : Nat) (k : Packet) (code : Nat) : Dev :=
  (d.respond n (some p) k.dst k.reply pNack code []).frt p 3

/-- The conditions of R203 on an address and a byte count. -/
def freightRange (a len : Nat) : Bool := decide (a % 4 = 0 ∧ len % 4 = 0 ∧ 4 ≤ len ∧ len ≤ 4096 ∧ a % 4096 + len ≤ 4096)

/-- The window offset of a station address, if R203 lets Freight reach it. -/
def stationOff (rank a len : Nat) : Option Nat :=
  let base := stationBase + rank * 2 ^ 20
  if freightRange a len ∧ base ≤ a ∧ a + len ≤ base + 0x60000 then some (a - base) else none

/-- A free slot of a station's page buffer (R185). -/
def Dev.freePage (d : Dev) (p : Nat) : Option Nat :=
  let used := (d.stn p).arb.filterMap (fun r => match r with | .page _ s _ => some s | _ => none)
  (List.range (4 * d.pbSize p)).find? (fun s => !used.contains s)

/-- What a station does with a request or posted packet that passed its checks; none while it holds it back. -/
def Dev.stationTake (d : Dev) (n : Nv) (p : Nat) (k : Packet) : Option Dev :=
  if (d.rst.stations.contains p) || d.stnTested p || d.rankOf p != some k.dst then
    some (if isRequest k.typ then d.stnNack n p k 3 else d)
  else if k.typ = pWrite then
    match stationOff k.dst k.addr k.data.length with
    | none => some ((d.frt p 0).stnNack n p k 2)
    | some off =>
      if d.arbRoom p then some ((d.frt p 0).arbPush p (.write off (k.data.take (0x5C000 - off)) (some k.reply))) else none
  else if k.typ = pRead then
    match stationOff k.dst k.addr k.rcount with
    | none => some ((d.frt p 0).stnNack n p k 2)
    | some off => some ((d.frt p 0).respond n (some p) k.dst k.reply pData 0 (readBytes zeroByte d.stnM (skey p off) k.rcount))
  else if k.typ = pDeliver then
    if d.pbSize p = 0 then some (((d.frt p 0).strCount p 3).respond n (some p) k.dst k.reply pAck 0 [])
    else match d.freePage p with
      | some s =>
        if d.arbRoom p then
          let d := d.frt p 0
          let d := { d with stnM := writeBytes zeroByte d.stnM (skey p (d.pbBase p + 4096 * s)) (k.data.drop 32) }
          some (d.arbPush p (.page (k.data.take 32) s k.reply))
        else none
      | none => none
  else some (d.frt p 0)

/-! ### Streamers, the Interchange, trunk endpoints -/

/-- Whether a streamer serves a GDDR6 range (R203). -/
def Dev.streamerServes (d : Dev) (n : Nv) (s a len : Nat) : Bool :=
  freightRange a len && decide (gddrBase ≤ a) && (n.pageHome ((a - gddrBase) / 4096)).1 == some s
    && d.pageUsable n ((a - gddrBase) / 4096)

def Dev.streamerTake (d : Dev) (n : Nv) (s : Nat) (k : Packet) : Dev :=
  if k.typ = pWrite ∨ k.typ = pRead then
    if d.streamerServes n s k.addr (if k.typ = pWrite then k.data.length else k.rcount) then
      d.updStreamer s (fun y => { y with work := y.work ++ [k] })
    else d.respond n none k.dst k.reply pNack 2 []
  else if k.typ = pSummary then d.updStreamer s (fun y => { y with inbox := y.inbox ++ [k] })
  else if isRequest k.typ then d.respond n none k.dst k.reply pNack 3 []
  else d

/-- A packet leaves on a trunk link: requests and posted packets on lane FQ, responses on lane FR (R399, R406). -/
def Dev.trunkTake (d : Dev) (n : Nv) (t : Nat) (k : Packet) : Dev :=
  if k.remote.isNone ∨ !d.trunkHeld n t then d.trkCount R.TRK_NOROUTE t 1
  else d.sendBytes n t (if isResponse k.typ then 2 else 1) k.bytes

/-! ### Arrival (R205) -/

/-- A type of Table 9-3. -/
def knownType (t : Nat) : Bool := decide (1 ≤ t ∧ t ≤ 7)

/-- The packet in place `i` at its destination; `hb` and `cb`: HCHK or CRC fails there. -/
def arrive1 (n : Nv) (i : Nat) (hb cb : Bool) (x : Mem × Dev) : Mem × Dev :=
  let (m, d) := x
  match d.packets[i]? with
  | none => (m, d)
  | some k =>
    if k.at_.isSome then (m, d)
    else
      let hb := hb || k.hurt.1
      let cb := cb || k.hurt.2
      let gone := fun (d : Dev) => { d with packets := d.packets.eraseIdx i }
      if !d.target n k.dst then
        let d := gone d
        (m, if isRequest k.typ ∧ !hb then d.respond n none k.dst k.reply pNack (if cb then 1 else 3) [] else d)
      else match Ep.ofNat k.dst with
        | .station _ =>
          let p := posOf k.dx k.dy
          if hb ∨ !knownType k.typ then (m, (gone d).frt p 2)
          else if cb then
            let d := (gone d).frt p 1
            (m, if isRequest k.typ then d.stnNack n p k 1 else d)
          else match d.stationTake n p k with
            | some d => (m, gone d)
            | none => (m, d)
        | .streamer s =>
          let d := gone d
          let stale := d.frtCount k.dst (frtRegs k.dst).2.2.2
          if hb ∨ !knownType k.typ then (m, stale)
          else if isResponse k.typ then afterFreight n (d.takeResponse n m k cb)
          else if cb then (m, if isRequest k.typ then stale.respond n none k.dst k.reply pNack 1 [] else stale)
          else (m, d.streamerTake n s k)
        | .host | .sdma =>
          let d := gone d
          if hb ∨ !knownType k.typ then (m, d.frtCount k.dst (frtRegs k.dst).2.2.2)
          else if isResponse k.typ then afterFreight n (d.takeResponse n m k cb)
          else (m, if isRequest k.typ then d.respond n none k.dst k.reply pNack (if cb then 1 else 3) [] else d)
        | .trunk t => (m, (gone d).trunkTake n t { k with hurt := (hb, cb) })
        | .none_ => (m, gone d)

/-- FREIGHT_HOP (R199). -/
def execFreightHop (i : Nat) (s : State) : Host.Outcome State Fault Refusal :=
  onFabric (fun n _ d => d.hopPacket n i) s

/-- A streamer carries out the access at the head of its work (R203); a read that meets an uncorrectable error is not
answered. -/
def gddrServe (n : Nv) (s : Nat) (e : DramEnd) (x : Mem × Dev) : Mem × Dev :=
  let (m, d) := x
  match (d.streamer s).work with
  | [] => (m, d)
  | k :: rest =>
    let d := (d.updStreamer s (fun y => { y with work := rest })).dramErrs s e
    let a := k.addr - gddrBase
    if k.typ = pWrite then
      (m.gddrPut a k.data, d.respond n none k.dst k.reply pAck 0 [])
    else if e.ok then (m, d.respond n none k.dst k.reply pData 0 (m.gddrBytes a k.rcount))
    else (m, d)

/-- GDDR6_ACCESS_COMPLETE (R203). -/
def execGddr6AccessComplete (str : Fin 12) (e : DramEnd) (s : State) : Host.Outcome State Fault Refusal :=
  onIslM 1 str (fun n x => if n.streamerOn str then gddrServe n str e x else x) s

end Sys2Proof.Machine
end

