-- ==== Sys2Proof/Machine/Trunk.lean ====
section
/-! DEFINITION. The trunk links (R399 to R408, R421): link units received, retry, loss of a link, Freight and remote register
messages between devices. -/

namespace Sys2Proof.Machine

/-! ### Lanes -/

/-- Places of a lane's receive buffer become free. -/
def Trunk.free (x : Trunk) (l k : Nat) : Trunk := { x with freed := x.freed.set zeroNat l (x.freed.get zeroNat l + k) }

/-- Return the credit of every lane that has freed places (R400). -/
def Dev.giveCredit (d : Dev) (n : Nv) (k : Nat) : Dev :=
  (List.range 5).foldl (fun (d : Dev) _ =>
    if d.trunkUp n k ∧ (d.trunk k).freed ≠ [] then d.updTrunk k (fun x => x.sendIdle false) else d) d

/-- Send what may go on a link. -/
def Dev.pumpAll (d : Dev) (n : Nv) (k : Nat) : Dev := d.pumpTrunk n k ((d.trunk k).wait.map (fun q => q.2.length)).sum

/-! ### Express copies received (R403) -/

/-- The entries of an X payload. -/
def entriesOf (bs : List Byte) : Nat → List Copy
  | 0 => []
  | i + 1 => { word := BitVec.ofNat 64 (recNat bs 0 8), tag := BitVec.ofNat 8 (recNat bs 8 1), vc := recNat bs 9 1 % 4, left := none }
      :: entriesOf (bs.drop 12) i

/-- Take the entries of an X link unit. -/
def Dev.takeX (d : Dev) (n : Nv) (k : Nat) (cs : List Copy) : Dev :=
  let good := cs.filter Copy.good
  let d := d.trkCount R.TRK_X_RX k cs.length
  let d := (cs.filter (fun c => !c.good)).foldl (fun (d : Dev) _ => (d.trkCount R.TRK_CHK_FAIL k 1).xchLostAll) d
  let d := good.foldl (fun (d : Dev) c => d.iCreated c 1) d
  if good = [] then d.updTrunk k (fun x => x.free 0 1)
  else
    let qs := good.zipIdx.map (fun (c, i) => (c.reinject, decide (i + 1 = good.length)))
    (d.updTrunk k (fun x => { x with inX := x.inX ++ qs })).injectAllX n

/-! ### Sequence and replay (R402) -/

/-- Credits of an X copy that the partner has acknowledged. -/
def Dev.ackX (d : Dev) (u : Lu) : Dev :=
  if u.lane = 0 then (entriesOf u.payload u.count).foldl (fun (d : Dev) c => d.iConsumed c) d else d

/-- The partner's ACKSEQ. -/
def Dev.trunkAck (d : Dev) (k a : Nat) : Dev :=
  let passed := fun (u : Lu) => decide (1 ≤ (a + 4096 - u.seq) % 4096 ∧ (a + 4096 - u.seq) % 4096 ≤ 2048)
  let gone := (d.trunk k).held.filter passed
  if gone = [] then d
  else
    let d := d.updTrunk k (fun x => { x with held := x.held.filter (fun u => !passed u), replays := 0 })
    gone.foldl (fun (d : Dev) u => d.ackX u) d

/-- Replay every held link unit in order. -/
def Dev.trunkReplay (d : Dev) (k : Nat) : Dev :=
  if (d.trunk k).held = [] then d
  else
    let d := d.updTrunk k (fun x => { x.held.foldl Trunk.sendLu { x with wire := [] } with replays := x.replays + 1 })
    d.trkCount R.TRK_REPLAYS k 1

/-- A link unit that is not accepted, and the NAK it calls for. -/
def Dev.luBad (d : Dev) (k : Nat) : Dev :=
  let d := d.trkCount R.TRK_RX_BAD k 1
  if (d.trunk k).discarding then d else d.updTrunk k (fun x => { x with discarding := true }.sendIdle true)

/-- The link has to retrain: it carries nothing until it has (R402). -/
def Dev.trunkBreak (d : Dev) (k : Nat) : Dev :=
  (d.updTrunk k (fun x => { x with due := true })).andNot (trk R.TRK_STATUS k) (2 ^ 31)

/-- A replay, or after 8 without an advance a retrain (R402). -/
def Dev.trunkAgain (d : Dev) (k : Nat) : Dev :=
  if (d.trunk k).replays < 8 ∨ (d.trunk k).held = [] then d.trunkReplay k else d.trunkBreak k

/-- ACKSEQ, credit and NAK of an accepted header. -/
def Dev.luHead (d : Dev) (n : Nv) (k : Nat) (h : BitVec 64) : Dev :=
  let f := fun (lo len : Nat) => (h.toNat >>> lo) % 2 ^ len
  let d := d.trunkAck k (f 27 12)
  let l := f 40 3
  let d := if l < 5 then d.updTrunk k (fun x =>
      { x with credit := x.credit.set laneSize l (min (laneSize l) (x.credit.get laneSize l + f 43 12)) }) else d
  let d := if f 39 1 = 1 then d.trunkAgain k else d
  d.pumpAll n k

def noPieces (_ : Nat) : List (List Byte) := []

/-- A packet or message that has come whole joins its lane, with the number of its link units. -/
def Trunk.arrived (x : Trunk) (l : Nat) (bs : Nat × List Byte) : Trunk :=
  match l with
  | 1 => { x with inF := x.inF ++ [bs] }
  | 2 => { x with inR := x.inR ++ [bs] }
  | _ => { x with inS := x.inS ++ [bs] }

/-- The contents of an accepted DATA link unit. -/
def Dev.luTake (d : Dev) (n : Nv) (k : Nat) (h : BitVec 64) (payload : List Byte) : Dev :=
  let f := fun (lo len : Nat) => (h.toNat >>> lo) % 2 ^ len
  let l := f 4 3
  let c := f 9 6
  match l with
  | 0 => d.takeX n k (entriesOf payload (min c 4))
  | 1 | 2 | 3 => d.updTrunk k (fun x =>
      let old := x.part.get noPieces l
      let x := if f 7 1 = 1 then x.free l old.length else x
      let ps := (if f 7 1 = 1 then [] else old) ++ [recBytes payload 0 (min c 52)]
      if f 8 1 = 1 then { x with part := x.part.set noPieces l [] }.arrived l (ps.length, ps.flatten)
      else { x with part := x.part.set noPieces l ps })
  | 4 => d.updTrunk k (fun x =>
      let m := min c 2
      if m = 0 then x.free 4 1 else
      { x with inT := x.inT ++ (List.range m).map (fun i => (Token.ofBytes (payload.drop (24 * i)), decide (i + 1 = m))) })
  | _ => d

/-- The header of a link unit, its payload, and whether it comes whole (R399). -/
def luHdr (bs : List Byte) : BitVec 64 := BitVec.ofNat 64 (recNat bs 0 8)
def luPayload (bs : List Byte) : List Byte := recBytes bs 8 52
def luOk (bs : List Byte) : Bool := crc32c (recBytes bs 0 60) == recWord bs 60

/-- LU_RX (R402). -/
def Dev.luRx (d : Dev) (n : Nv) (k : Nat) (u : LinkUnit) : Dev :=
  let h := luHdr u.bytes
  let kind := h.toNat % 16
  let seq := (h.toNat >>> 15) % 4096
  let x := d.trunk k
  let d := d.updTrunk k (fun x => { x with wire := [] })
  if !d.trunkUp n k then d
  else if !u.blocksOk ∨ !luOk u.bytes ∨ 2 ≤ kind then d.luBad k
  else if kind = 0 then d.luHead n k h
  else if seq = x.rxNext then
    let d := d.updTrunk k (fun x => { x with rxNext := (x.rxNext + 1) % 4096, discarding := false })
    let d := (d.luHead n k h).luTake n k h (luPayload u.bytes)
    (d.updTrunk k (fun x => x.sendIdle false)).giveCredit n k
  else if (x.rxNext + 4096 - seq) % 4096 ≤ 2048 then d.trkCount R.TRK_RX_BAD k 1
  else d.luBad k

def execLuRx (k : Fin 8) (lu : LinkUnit) (s : State) : Host.Outcome State Fault Refusal := onIsl 2 k (fun n _ d => d.luRx n k lu) s

/-- NAK_REPEAT (R402). -/
def execNakRepeat (k : Fin 8) (s : State) : Host.Outcome State Fault Refusal :=
  onIsl 2 k (fun n _ d =>
    if d.trunkUp n k && (d.trunk k).discarding then d.updTrunk k (fun x => { x with wire := [] }.sendIdle true) else d) s

/-! ### The tree of the system (R411, R412) -/

def Dev.stage (d : Dev) : Nat := d.f R.SYS_BOOT_STAGE 0 4
def Dev.stageRunning (d : Dev) : Bool := bit (d.rd R.SYS_BOOT_STAGE) 28

/-- STATE of TRK_SYS; a change raises source 92 (R422). -/
def Dev.sysState (d : Dev) (s : Nat) : Dev := if d.f R.TRK_SYS 30 2 = s then d else (d.setF R.TRK_SYS 30 2 s).irq1 92

/-- Links that are up and have shown a partner. -/
def Dev.partners (d : Dev) (n : Nv) : List Nat := (List.range 8).filter (fun k => d.trunkUp n k && bit (d.rd (trk R.TRK_STATUS k)) 29)

/-- Links of the present tree. -/
def Dev.tree (d : Dev) (k : Nat) : Bool := bit (d.rd (trk R.TRK_STATUS k)) 28
def Dev.treeClear (d : Dev) : Dev := (List.range 8).foldl (fun (d : Dev) k => d.andNot (trk R.TRK_STATUS k) (2 ^ 28)) d
def Dev.treeSet (d : Dev) (k : Nat) : Dev := d.orBits (trk R.TRK_STATUS k) (2 ^ 28)

/-- What a RECORD message holds: the expected record, and TRK_PEER of each link; bit 31 of its last word says that the link has
reported an IDENT, and bit 30 that it is up (log entry 11). -/
def Dev.ownRecord (d : Dev) : List Byte :=
  recBytes d.sys.topo 0 64 ++ ((List.range 8).map (fun k =>
    let st := d.rd (trk R.TRK_STATUS k)
    wordBytes (d.rd (trk R.TRK_PEER_LO k)) ++ wordBytes (d.rd (trk R.TRK_PEER_HI k)) ++ wordBytes (d.rd (trk R.TRK_PEER_ID k))
      ++ wordBytes (w32 (d.f (trk R.TRK_PEER_LINK k) 0 6 + (if bit st 29 then 2 ^ 31 else 0) + (if bit st 31 then 2 ^ 30 else 0))))).flatten

/-- SYS_SIZE of the system this device is part of. -/
def Dev.sysSize (d : Dev) : Nat := d.f R.TRK_SYS 0 7

/-- TOPO on a list of links; C carries the sender's depth. -/
def Dev.sendTopo (d : Dev) (n : Nv) (ks : List Nat) : Dev :=
  ks.foldl (fun (d : Dev) k => d.tokenOn n k { d.mkToken 2 0 0 0 with c := w32 (d.f R.TRK_SYS 8 6) }) d

/-- The manager starts a forming wave (R411). -/
def Dev.wave (d : Dev) (n : Nv) : Dev :=
  let d := d.treeClear.resetRegs R.TRK_ROUTE (R.TRK_ROUTE + 256)
  let d := ((d.andNot R.TRK_SYS (2 ^ 28)).setF R.TRK_SYS 25 3 0).setF R.TRK_SYS 8 6 0
  let d : Dev := { d with sys := { d.sys with forming := true, recs := [d.ownRecord] } }
  (d.sysState 1).sendTopo n (d.partners n)

/-- A link of the tree has been lost (R412). -/
def Dev.treeLost (d : Dev) (n : Nv) (k : Nat) : Dev :=
  if !d.tree k then d
  else
    let d := d.andNot (trk R.TRK_STATUS k) (2 ^ 28)
    if d.isManager then d.wave n
    else if d.f R.TRK_SYS 25 3 = k then { d.orBits R.TRK_SYS (2 ^ 28) with sys := { d.sys with seen := false } }
    else d.sendToken n { d.mkToken 5 0 0 0 with a := w32 (k + d.device * 256) }

/-! ### Training and loss (R402, R405) -/

/-- An X copy that a link loses. -/
def Dev.loseX (d : Dev) (k : Nat) (c : Copy) : Dev :=
  let d := (d.iConsumed c).trkCount R.TRK_LOST k 1
  if c.counted then d.updWld c.world (fun x => { x with lost := x.lost.set zeroNat c.bank (satAdd 32 (x.lost.get zeroNat c.bank) 1) })
  else d

/-- A link goes DOWN: X copies that it holds are lost, those that still waited are counted as bound for a DOWN link (R164),
and the rest of what it holds is dropped. -/
def Dev.trunkDown (d : Dev) (n : Nv) (k : Nat) : Dev :=
  let x := d.trunk k
  let held := ((x.held.filter (fun u => u.lane == 0)).map (fun u => entriesOf u.payload u.count)).flatten
  let wait := ((x.wait.get noLus 0).map (fun u => entriesOf u.payload u.count)).flatten
  let d := held.foldl (fun (d : Dev) c => d.loseX k c) d
  let d := wait.foldl (fun (d : Dev) c => d.edgeUnrouted.iConsumed c) d
  let d := d.updTrunk k (fun x => { x with held := [], wait := [], part := [], replays := 0, failed := 0, due := false, discarding := false,
                                            txNext := 0, rxNext := 0, credit := [], freed := [] })
  let d := ((d.andNot (trk R.TRK_STATUS k) (2 ^ 31)).orBits (trk R.TRK_STATUS k) (2 ^ 30 + 2 ^ 2)).trkIrq k
  d.treeLost n k

/-- A link has trained: credit restarts, and held link units are sent again. -/
def Dev.trunkTrained (d : Dev) (n : Nv) (k : Nat) : Dev :=
  let d := (d.andNot (trk R.TRK_STATUS k) (2 ^ 30)).orBits (trk R.TRK_STATUS k) (2 ^ 31)
  let d := d.updTrunk k (fun x =>
      { x.held.foldl Trunk.sendLu { x with wire := [], credit := [], freed := [] } with
        replays := 0, failed := 0, due := false })
  d.pumpAll n k

/-- A retrain with its outcome; the third failure in a row takes the link DOWN. -/
def Dev.trunkRetrain (d : Dev) (n : Nv) (k : Nat) (ok : Bool) : Dev :=
  let d := ((d.trkCount R.TRK_RETRAINS k 1).orBits (trk R.TRK_STATUS k) 2).trkIrq k
  if ok then d.trunkTrained n k
  else if bit (d.rd (trk R.TRK_STATUS k)) 30 then d
  else
    let f := (d.trunk k).failed + 1
    if f < 3 then (d.updTrunk k (fun x => { x with failed := f })).trunkBreak k else d.trunkDown n k

/-- RTO passes (R402): a replay; after 8 without an advance, or while a retrain is due, a retrain. -/
def Dev.trunkRto (d : Dev) (n : Nv) (k : Nat) (ok : Bool) : Dev :=
  if !n.trunkOn k then d
  else if d.trunkUp n k then
    if (d.trunk k).held = [] then d
    else if (d.trunk k).replays < 8 then d.trunkReplay k
    else d.trunkRetrain n k ok
  else if (d.trunk k).due then d.trunkRetrain n k ok
  else d

def execTrunkRtoExpiry (k : Fin 8) (trained : Bool) (s : State) : Host.Outcome State Fault Refusal :=
  onIsl 2 k (fun n _ d => d.trunkRto n k trained) s

/-- TRK_RETRAIN (R402). -/
def execTrkRetrain (k : Fin 8) (trained : Bool) (s : State) : Host.Outcome State Fault Refusal :=
  onIsl 2 k (fun n _ d => if n.trunkOn k then d.trunkRetrain n k trained else d) s

/-- WAKE (R421): a WAKE token where the link is up; else the lanes leave electrical idle for 20 µs. -/
def Dev.trunkWake (d : Dev) (n : Nv) (k : Nat) : Dev :=
  if d.trunkUp n k then d.tokenOn n k (d.mkToken 14 0 0 0) else d.updTrunk k (fun x => { x with driven := d.now + 2000 })

/-- TRK_WAKE. -/
def execTrkWake (k : Fin 8) (s : State) : Host.Outcome State Fault Refusal := onIsl 2 k (fun n _ d => d.trunkWake n k) s

/-! ### Freight across devices (R406) -/

/-- A packet received from link `k`. -/
def Dev.remoteRx (d : Dev) (n : Nv) (k : Nat) (bs : List Byte) : Dev :=
  let p := Packet.ofBytes bs
  let lost := d.trkCount R.TRK_NOROUTE k 1
  match p.remote with
  | none => lost
  | some (o, _, rd) =>
    if rd = d.device then
      d.launch n none { p with src := epTrunk k, dst := if isResponse p.typ then epHost + o else p.rdst }
    else if d.orphan then lost
    else match d.route rd with
      | some j => if d.trunkHeld n j then d.sendBytes n j (if isResponse p.typ then 2 else 1) bs else lost
      | none => lost

/-- REMOTE_PACKET_RX (R406): the oldest response received on a link, else the oldest request. -/
def Dev.remotePacket (d : Dev) (n : Nv) (k : Nat) : Dev :=
  let x := d.trunk k
  match x.inR, x.inF with
  | bs :: rest, _ => ((d.updTrunk k (fun x => { x with inR := rest }.free 2 bs.1)).remoteRx n k bs.2).giveCredit n k
  | [], bs :: rest => ((d.updTrunk k (fun x => { x with inF := rest }.free 1 bs.1)).remoteRx n k bs.2).giveCredit n k
  | [], [] => d

def execRemotePacketRx (k : Fin 8) (s : State) : Host.Outcome State Fault Refusal := onIsl 2 k (fun n _ d => d.remotePacket n k) s

/-! ### Remote register messages (R408) -/

abbrev sRd : Nat := 1
abbrev sWr : Nat := 2
abbrev sRsp : Nat := 3
abbrev sRecord : Nat := 4

/-- A message of lane S as it lies in its bytes. -/
structure SMsg where
  kind : Nat
  sdev : Nat
  ddev : Nat
  tag : Nat
  len : Nat
  status : Nat
  addr : Nat
  payload : List Byte
deriving DecidableEq, Repr

def SMsg.bytes (x : SMsg) : List Byte :=
  let h := leBytes 4 (x.kind % 16 + x.sdev % 64 * 2 ^ 4 + x.ddev % 64 * 2 ^ 10 + x.tag % 65536 * 2 ^ 16)
    ++ leBytes 4 (x.len % 4096 + x.status % 16 * 2 ^ 12 + x.addr / 2 ^ 32 % 256 * 2 ^ 16) ++ leBytes 4 x.addr
  h ++ wordBytes (crc32c (h ++ x.payload)) ++ x.payload

def SMsg.ofBytes (bs : List Byte) : SMsg :=
  let w := fun (i : Nat) => recWord bs (4 * i)
  { kind := fld (w 0) 0 4, sdev := fld (w 0) 4 6, ddev := fld (w 0) 10 6, tag := fld (w 0) 16 16, len := fld (w 1) 0 12,
    status := fld (w 1) 12 4, addr := fld (w 1) 16 8 * 2 ^ 32 + (w 2).toNat, payload := bs.drop 16 }

/-- The CRC of a message is right. -/
def sCrcOk (bs : List Byte) : Bool := decide (16 ≤ bs.length) && crc32c (recBytes bs 0 12 ++ bs.drop 16) == recWord bs 12

/-- Send a message toward its device; whether it could go. -/
def Dev.sendS (d : Dev) (n : Nv) (x : SMsg) : Dev × Bool :=
  match d.route x.ddev with
  | some k => if d.trunkHeld n k then (d.sendBytes n k 3 x.bytes, true) else (d.trkCount R.TRK_NOROUTE k 1, false)
  | none => (d, false)

/-- The next TAG. -/
def Dev.nextTag (d : Dev) : Nat × Dev := (d.sys.tag, { d with sys := { d.sys with tag := (d.sys.tag + 1) % 65536 } })

/-- Take the message at the head of lane S of a link, if it is of a kind: the message where this is its device and its CRC
is right; elsewhere it goes on. -/
def Dev.sTake (d : Dev) (n : Nv) (k kind : Nat) : Option SMsg × Dev :=
  match (d.trunk k).inS with
  | [] => (none, d)
  | (lus, bs) :: rest =>
    let x := SMsg.ofBytes bs
    if x.kind ≠ kind then (none, d)
    else
      let d := (d.updTrunk k (fun t => { t with inS := rest }.free 3 lus)).giveCredit n k
      if x.ddev = d.device then (if sCrcOk bs then some x else none, d)
      else if d.orphan then (none, d.trkCount R.TRK_NOROUTE k 1)
      else match d.route x.ddev with
        | some j => (none, if d.trunkHeld n j then d.sendBytes n j 3 bs else d.trkCount R.TRK_NOROUTE k 1)
        | none => (none, d.trkCount R.TRK_NOROUTE k 1)

/-- Handle the message at the head of lane S with `f`. -/
def sHead (n : Nv) (k kind : Nat) (f : SMsg → Mem × Dev → Mem × Dev) (y : Mem × Dev) : Mem × Dev :=
  match y.2.sTake n k kind with
  | (some x, d) => f x (y.1, d)
  | (none, d) => (y.1, d)

/-! ### Accesses through TRK_RA_DATA (R408) -/

def noRa (_ : Nat) : Option RemAccess := none
def Dev.ra (d : Dev) (m : Master) : Option RemAccess := d.sys.ra.get noRa m.idx
def Dev.setRa (d : Dev) (m : Master) (x : Option RemAccess) : Dev := { d with sys := { d.sys with ra := d.sys.ra.set noRa m.idx x } }

/-- The host's answer to a remote access that it waits for. -/
def Dev.raAnswer (d : Dev) (x : RemAccess) (ok : Bool) (data : List Byte) : Dev :=
  match x.reply with
  | none => d
  | some (seq, noack) => if !ok then d.nack seq cAbort 0 else if noack then d else d.ack seq data

/-- A remote access ends with the Completer Abort status of its path. -/
def Dev.raFail (d : Dev) (m : Master) (x : RemAccess) : Dev :=
  ((d.setRa m none).raAnswer x false []).fail m x.wr R.TRK_RA_DATA .abort

/-- Start the access that a master's TRK_RA registers describe; one that cannot go ends at once. -/
def Dev.raStart (d : Dev) (n : Nv) (m : Master) (wr : Option Word) (reply : Option (Nat × Bool)) : Dev :=
  if (d.ra m).isSome then d
  else
    let (tag, d) := d.nextTag
    let x : RemAccess := { tag := tag, wr := wr.isSome, reply := reply }
    let addr := fld (d.mrd m R.TRK_RA_ADDR_HI) 0 8 * 2 ^ 32 + (d.mrd m R.TRK_RA_ADDR_LO).toNat
    let msg : SMsg := { kind := if wr.isSome then sWr else sRd, sdev := d.device, ddev := fld (d.mrd m R.TRK_RA_DEV) 0 6, tag := tag,
                        len := 4, status := 0, addr := addr, payload := match wr with | some v => wordBytes v | none => [] }
    let (d, ok) := (d.setRa m (some x)).sendS n msg
    if ok then d else d.raFail m x

/-- An access of TRK_RA_DATA through the gate of its path. -/
def Dev.raAccess (d : Dev) (n : Nv) (m : Master) (wr : Option Word) (reply : Option (Nat × Bool)) : Dev :=
  match d.gate n m wr.isSome R.TRK_RA_DATA with
  | .open_ => d.raStart n m wr reply
  | .zero => d.complete m .ok [0]
  | .abort => d.fail m wr.isSome R.TRK_RA_DATA .abort
  | .deny => match m with
    | .sb c => d.denyCore c m wr.isSome R.TRK_RA_DATA
    | _ => d

/-- TRK_RA_DATA_ACCESS. -/
def execTrkRaDataAccess (m : Master) (wr : Option Word) (s : State) : Host.Outcome State Fault Refusal :=
  onDev (fun n _ d => d.raAccess n m wr none) s

/-- Every master. -/
def masters : List Master :=
  [.sb 0, .sb 1, .sb 2, .sb 3, .sb 4, .sb 5, .sb 6, .sb 7, .xdma, .transport, .sideband, .jtag, .smbus, .loader, .trunk]

/-- A RSP for one of this device's masters. -/
def Dev.raDone (d : Dev) (x : SMsg) : Dev :=
  match masters.find? (fun m => (d.ra m).any (fun r => r.tag == x.tag)) with
  | none => d
  | some m => match d.ra m with
    | none => d
    | some r =>
      if x.status ≠ 0 then d.raFail m r
      else ((d.setRa m none).raAnswer r true (recBytes x.payload 0 4)).complete m .ok (if r.wr then [] else [recWord x.payload 0])

end Sys2Proof.Machine
end

