-- ==== Sys2Proof/Machine/Sdma.lean ====
section
/-! DEFINITION. The Signal DMA (R282 to R284). -/

namespace Sys2Proof.Machine

/-! ### Descriptors (Table 13-7) -/

def sdWord (ws : List Word) (i : Nat) : Word := ws.getD i 0
def sdLen (ws : List Word) : Nat := fld (sdWord ws 0) 0 24
/-- The transfer goes from the far address to Depot memory. -/
def sdIn (ws : List Word) : Bool := bit (sdWord ws 0) 29
def sdDpt (ws : List Word) : Nat := fld (sdWord ws 1) 0 24
def sdFar (ws : List Word) : Nat := fld (sdWord ws 1) 24 8 * 2 ^ 32 + (sdWord ws 2).toNat
def sdTag (ws : List Word) : Nat := fld (sdWord ws 3) 0 16

/-- The checks of R282. -/
def Dev.sdOk (d : Dev) (n : Nv) (ws : List Word) : Bool :=
  let len := sdLen ws
  let far := sdFar ws
  decide (len % 4 = 0 ∧ sdDpt ws % 4 = 0 ∧ far % 4 = 0 ∧ 0 < len ∧ sdDpt ws + len ≤ depotSize)
    && (decide (stationBase ≤ far ∧ far < stationBase + 2304 * 2 ^ 20 ∧ far % 2 ^ 20 + len ≤ 0x60000)
      || decide (gddrBase ≤ far ∧ far + len ≤ gddrBase + d.gddrSize n))

/-- The submitting core, if the master has Signal DMA registers. -/
def sdmaCore (m : Master) : Option Nat := match m with | .sb n => some n.val | _ => none

/-- A write of XCH_SDMA_D[3]. -/
def Dev.sdSubmit (d : Dev) (nv : Nv) (m : Master) (v : Word) : Dev :=
  match sdmaCore m with
  | none => d
  | some c =>
    let d := d.mwr m (R.XCH_SDMA_D + 12) v
    let ws := (List.range 4).map (fun i => d.mrd m (R.XCH_SDMA_D + 4 * i))
    let say := fun (d : Dev) (b : Nat) => d.mwr m R.XCH_SDMA_LAST (w32 (2 ^ 31 + 2 ^ b + sdTag ws))
    if !d.sdOk nv ws then say d 28
    else if 64 ≤ d.descQueue then say d 29
    else
      let rem := d.mrd m R.TRK_SDMA_DEV
      let q : SdmaDesc := { id := d.sdmaNext, core := c, words := ws, started := false, left := 0, result := 0,
                            remote := if bit rem 31 then some (fld rem 0 6) else none }
      say { d with sdma := d.sdma ++ [q], sdmaNext := d.sdmaNext + 1 } 30

/-- SDMA_SUBMIT (R282). -/
def execSdmaSubmit (m : Master) (v : Word) (s : State) : Host.Outcome State Fault Refusal :=
  onDev (fun n _ d => d.writeGate n m (R.XCH_SDMA_D + 12) (fun d => d.sdSubmit n m v)) s

/-! ### Transfers (R283) -/

/-- The trunk endpoint toward a device (R406). -/
def Dev.trunkToward (d : Dev) (dev : Nat) : Option Nat :=
  let r := d.rd (R.TRK_ROUTE + 4 * dev)
  if bit r 31 then some (epTrunk (fld r 0 3)) else none

/-- One transfer of a descriptor within a 4 KiB block: a request, an access to the window of a rank that no enabled station
holds, which succeeds at once with zeros for this many bytes at a Depot offset (R194), or an address that has no endpoint. -/
inductive SdPart where
  | ask (r : FReq)
  | void (off len : Nat)
  | nowhere

/-- The transfers of a descriptor. -/
def Dev.sdParts (d : Dev) (n : Nv) (q : SdmaDesc) (m : Mem) : List SdPart :=
  let far := sdFar q.words
  (splitAt4K far (sdLen q.words)).map (fun (a, len) =>
    let off := sdDpt q.words + (a - far)
    match d.endpointOf n a with
    | none => .nowhere
    | some e =>
      if q.remote.isNone && !d.target n e then .void off len
      else match (match q.remote with | some v => d.trunkToward v | none => some e) with
      | none => .nowhere
      | some t => .ask
        { ep := epSdma, typ := if sdIn q.words then pRead else pWrite, dst := t, addr := a,
          rdst := if q.remote.isSome then e else 0, rcount := if sdIn q.words then len else 0,
          data := if sdIn q.words then [] else m.depotBytes off len, owner := .sdma q.id, place := off, rdev := q.remote })

/-- Keep the first failure. -/
def sdFailure (old new : Nat) : Nat := if old = 0 then new else old

/-- Start the next descriptor.  A transaction whose Depot words are uncorrectable, or that has no endpoint, is not sent. -/
def sdStart (n : Nv) (x : Mem × Dev) : Mem × Dev :=
  match x.2.sdma.find? (fun q => !q.started) with
  | none => x
  | some q =>
    if x.2.tpl.waitFreight then x
    else if x.2.banksTested (sdDpt q.words) (sdLen q.words) then (x.1, x.2.bankHold depotSdma)
    else
      let rs := x.2.sdParts n q x.1
      let (ok, x) := rs.foldl (fun (acc : List (Nat × Option FReq) × (Mem × Dev)) r =>
        match r with
        | .nowhere => (acc.1 ++ [(1, none)], acc.2)
        | .void off len =>
          (acc.1 ++ [(0, none)], if sdIn q.words then (acc.2.1.depotPut off (List.replicate len 0), acc.2.2) else acc.2)
        | .ask r =>
          if r.typ = pWrite then
            let (good, y) := depotScan acc.2 r.place r.data.length
            (acc.1 ++ [if good then (0, some { r with data := y.1.depotBytes r.place r.data.length }) else (4, none)], y)
          else (acc.1 ++ [(0, some r)], acc.2)) ([], x)
      let send := ok.filterMap (·.2)
      let res := ok.foldl (fun e p => sdFailure e p.1) 0
      let d := { x.2 with sdma := x.2.sdma.map (fun (y : SdmaDesc) =>
        if y.id == q.id then { y with started := true, left := send.length, result := res } else y) }
      (x.1, d.ask n send)

/-- SDMA_START (R283). -/
def execSdmaStart (s : State) : Host.Outcome State Fault Refusal := onIslM 4 0 (fun n x => sdStart n x) s

/-- A free COUNTER Block takes the increment; any other refuses it (R306). -/
def Dev.sdIncrement (d : Dev) (i : Nat) : Dev :=
  if d.blkType i = 0 ∧ !d.blkDev i then d.blkWrite i 1 else d.blkRefuse i

def cplDflt (_ : Nat) : List Word := []

/-- Descriptor `i` of the queue completes, unless its master's FIFO is full. -/
def Dev.sdEnd (d : Dev) (i : Nat) : Dev :=
  match d.sdma[i]? with
  | none => d
  | some q =>
    let fifo := d.sdmaCpl.get cplDflt q.core
    if !q.started ∨ q.left ≠ 0 ∨ 16 ≤ fifo.length then d
    else
      let w := w32 (2 ^ 31 + q.result * 2 ^ 28 + sdTag q.words)
      let d := { d with sdma := d.sdma.eraseIdx i, sdmaCpl := d.sdmaCpl.set cplDflt q.core (fifo ++ [w]) }
      let d := if bit (sdWord q.words 0) 30 then d.sdIncrement (fld (sdWord q.words 3) 16 16) else d
      if bit (sdWord q.words 0) 31 then d.irq1 (56 + q.core) else d

/-- SDMA_COMPLETE (R283). -/
def execSdmaComplete (i : Nat) (s : State) : Host.Outcome State Fault Refusal := onIsl 4 0 (fun _ _ d => d.sdEnd i) s

/-- A read of XCH_SDMA_CPL. -/
def Dev.sdCplTake (d : Dev) (m : Master) : Word × Dev :=
  match sdmaCore m with
  | none => (0, d)
  | some c =>
    match d.sdmaCpl.get cplDflt c with
    | [] => (0, d)
    | w :: ws => (w, { d with sdmaCpl := d.sdmaCpl.set cplDflt c ws })

/-- SDMA_CPL_READ (R284). -/
def execSdmaCplRead (m : Master) (s : State) : Host.Outcome State Fault Refusal :=
  onDev (fun n _ d => d.readGate n m R.XCH_SDMA_CPL (fun d => d.sdCplTake m)) s

/-- XCH_SDMA_QUEUED of a master. -/
def Dev.sdQueued (d : Dev) (m : Master) : Word :=
  match sdmaCore m with
  | none => 0
  | some c => w32 (d.sdma.filter (fun q => q.core == c)).length

end Sys2Proof.Machine
end

