-- ==== Sys2Proof/Machine/Channels.lean ====
section
/-! DEFINITION. Message channels (R291 to R299): staging, pushes, pops, blocked accesses, the park registers and the
host's side. -/

namespace Sys2Proof.Machine

def noEntries (_ : Nat) : List (BitVec 64) := []
def zeroWord (_ : Nat) : Word := 0

/-- The number of a channel: 0 to 31 REQ, 32 to 63 RPY. -/
def chan (reply : Bool) (c : Nat) : Nat := if reply then 32 + c else c
/-- The address of a word of a channel's data register. -/
def chanAddr (ch word : Nat) : Nat := (if ch < 32 then R.CHN_REQ_DATA + 8 * ch else R.CHN_RPY_DATA + 8 * (ch - 32)) + 4 * word

def Dev.chEntries (d : Dev) (ch : Nat) : List (BitVec 64) := d.chn.entries.get noEntries ch
def Dev.setEntries (d : Dev) (ch : Nat) (es : List (BitVec 64)) : Dev :=
  { d with chn := { d.chn with
    entries := d.chn.entries.set noEntries ch es,
    peak := d.chn.peak.set zeroNat ch (max (d.chn.peak.get zeroNat ch) es.length) } }
def Dev.chFree (d : Dev) (ch : Nat) : Nat := 16 - (d.chEntries ch).length
def Dev.setStage (d : Dev) (n : Nat) (v : Word) : Dev := { d with chn := { d.chn with stage := d.chn.stage.set zeroWord n v } }
def Dev.setLatch (d : Dev) (n : Nat) (v : Word) : Dev := { d with chn := { d.chn with latch := d.chn.latch.set zeroWord n v } }
/-- HOST of a reply channel (R297). -/
def Dev.hostChan (d : Dev) (ch : Nat) : Bool := decide (32 ≤ ch) && bit (d.rd (R.CHN_RPY_CFG + 4 * (ch - 32))) 31

/-! ### Park registers (R295, R296) -/

def park (r n : Nat) : Nat := r + 16 * n
def Dev.parked (d : Dev) (n : Nat) : Bool := bit (d.rd (park R.CHN_PARK_STATE n)) 31
def Dev.parkedChan (d : Dev) (n : Nat) : Nat := d.f (park R.CHN_PARK_STATE n) 0 6
def Dev.parkedEntry (d : Dev) (n : Nat) : BitVec 64 := word64 (d.rd (park R.CHN_PARK_HI n)) (d.rd (park R.CHN_PARK_LO n))
def Dev.setPark (d : Dev) (n ch : Nat) (e : BitVec 64) : Dev :=
  ((d.wr (park R.CHN_PARK_LO n) (loWord e)).wr (park R.CHN_PARK_HI n) (hiWord e)).wr (park R.CHN_PARK_STATE n) (w32 (2 ^ 31 + ch))
def Dev.clearPark (d : Dev) (n : Nat) : Dev :=
  ((d.wr (park R.CHN_PARK_LO n) 0).wr (park R.CHN_PARK_HI n) 0).wr (park R.CHN_PARK_STATE n) 0

/-! ### Serving those that are blocked (R293) -/

/-- The round robin of a channel's readers is over the cores (keys 0 to 63), that of its writers over the cores and the
Interchange, number 8 (keys 64 to 127). -/
def rounds (key : Nat) : Nat := if key < 64 then 8 else 9
def lastOf (key : Nat) : Nat := rounds key - 1
abbrev theInterchange : Nat := 8

/-- Who, among those that `f` accepts, is next after the one served last on a channel. -/
def Dev.nextCore (d : Dev) (key : Nat) (f : Nat → Bool) : Option Nat :=
  let l := d.chn.lastServed.get lastOf key
  ((List.range (rounds key)).map (fun i => (l + 1 + i) % rounds key)).find? f

def Dev.served (d : Dev) (key n : Nat) : Dev :=
  { d with chn := { d.chn with lastServed := d.chn.lastServed.set lastOf key n } }

/-- Cores blocked in a RETRY of an entry that is parked no more: their writes are complete. -/
def Dev.retryGone (d : Dev) (o : Nat) : Dev :=
  (List.range 8).foldl (fun (d : Dev) n => match (d.core n).blocked with
    | some (.retry p _ _) =>
      if p = o ∧ !d.parked o then (d.updCore n (fun c => { c with blocked := none })).complete (.sb (Fin.ofNat 8 n)) .ok [] else d
    | _ => d) d

/-- The park register of core `o` is cleared. -/
def Dev.unpark (d : Dev) (o : Nat) : Dev := (d.clearPark o).retryGone o

/-- Give the head entry of a channel to core `n`. -/
def Dev.popTo (d : Dev) (ch : Nat) (n : Fin 8) : Dev :=
  match d.chEntries ch with
  | [] => d
  | e :: rest => (((d.setEntries ch rest).setLatch n (hiWord e)).served ch n).complete (.sb n) .ok [loWord e]

/-- Push an entry of core `n`. -/
def Dev.pushFrom (d : Dev) (ch n : Nat) (e : BitVec 64) : Dev :=
  ((d.setEntries ch (d.chEntries ch ++ [e])).setStage n 0).served (64 + ch) n

/-- Serve blocked readers while there are entries, and blocked writers while there is room.  The entries of a reply channel whose
HOST is 1 are the Interchange's: a core that blocked on it before takes none (R297). -/
def Dev.chServe (d : Dev) (ch : Nat) : Nat → Dev
  | 0 => d
  | fuel + 1 =>
    let reader := if (d.chEntries ch).isEmpty || d.hostChan ch then none
      else d.nextCore ch (fun n => (d.core n).blocked == some (.pop ch))
    match reader with
    | some n => ((d.updCore n (fun c => { c with blocked := none })).popTo ch (Fin.ofNat 8 n)).chServe ch fuel
    | none =>
      let writer := if d.chFree ch = 0 then none
        else d.nextCore (64 + ch) (fun n => match (d.core n).blocked with
          | some (.push c _) => c == ch
          | some (.retry _ c _) => c == ch
          | _ => false)
      match writer with
      | none => d
      | some n =>
        let b := (d.core n).blocked
        let d := (d.updCore n (fun c => { c with blocked := none })).complete (.sb (Fin.ofNat 8 n)) .ok []
        match b with
        | some (.push _ e) => (d.pushFrom ch n e).chServe ch fuel
        | some (.retry o _ e) => ((d.setEntries ch (d.chEntries ch ++ [e])).served (64 + ch) n |>.unpark o).chServe ch fuel
        | _ => d

/-! ### Accesses by cores (R292, R293, R296 to R298) -/

/-- A core that can make an access: it runs, its clock branch does (R335), and it is not halted, waiting or blocked. -/
def Dev.coreActs (d : Dev) (n : Nat) : Bool :=
  let c := d.core n
  c.running && !c.halted && !c.wfi && c.blocked.isNone && d.branchOn 3 n

/-- Channels 0 to 3 belong to SB0 and the host. -/
def chanClosed (n ch : Nat) : Bool := n != 0 && decide (ch % 32 < 4)

/-- A write to word 0. -/
def Dev.stageWrite (d : Dev) (nv : Nv) (n : Fin 8) (ch : Nat) (v : Word) : Dev :=
  if d.coreActs n then d.writeGateFor nv (.sb n) (chanAddr ch 0) (fun c => chanClosed c ch) (fun d => d.setStage n v) else d

/-- CHN_STAGE_WRITE (R292). -/
def execChnStageWrite (n : Fin 8) (reply : Bool) (c : Fin 32) (v : Word) (s : State) : Host.Outcome State Fault Refusal :=
  onDev (fun nv _ d => d.stageWrite nv n (chan reply c) v) s

/-- A push that R296 ends at once. -/
def Dev.pushBusy (d : Dev) (n : Fin 8) (ch : Nat) : Dev :=
  (d.orBits R.CHN_ERR (2 ^ (8 + n.val))).fail (.sb n) true (chanAddr ch 1) .fault

/-- A write to word 1. -/
def Dev.pushWrite (d : Dev) (nv : Nv) (n : Fin 8) (ch : Nat) (v : Word) : Dev :=
  let a := chanAddr ch 1
  if !d.coreActs n then d
  else if d.parked n ∧ d.parkedChan n = ch ∧ !chanClosed n ch ∧ d.gate nv (.sb n) true a = .open_ then d.pushBusy n ch
  else
    let e := word64 v (d.chn.stage.get zeroWord n)
    if d.chFree ch = 0 ∧ !chanClosed n ch ∧ d.gate nv (.sb n) true a = .open_ then
      d.updCore n (fun c => { c with blocked := some (.push ch e) })
    else d.writeGateFor nv (.sb n) a (fun c => chanClosed c ch) (fun d => (d.pushFrom ch n e).chServe ch 16)

/-- CHN_PUSH (R293). -/
def execChnPush (n : Fin 8) (reply : Bool) (c : Fin 32) (v : Word) (s : State) : Host.Outcome State Fault Refusal :=
  onDev (fun nv _ d => d.pushWrite nv n (chan reply c) v) s

/-- A read of word 0. -/
def Dev.popRead (d : Dev) (nv : Nv) (n : Fin 8) (ch : Nat) : Dev :=
  let a := chanAddr ch 0
  if !d.coreActs n then d
  else if chanClosed n ch then d.denyCore n (.sb n) false a
  else match d.gate nv (.sb n) false a with
  | .open_ =>
    if d.hostChan ch then d.fail (.sb n) false a .fault
    else if (d.chEntries ch).isEmpty then d.updCore n (fun c => { c with blocked := some (.pop ch) })
    else (d.popTo ch n).chServe ch 16
  | .zero => d.complete (.sb n) .ok [0]
  | _ => d.fail (.sb n) false a .abort

/-- CHN_POP (R293). -/
def execChnPop (n : Fin 8) (reply : Bool) (c : Fin 32) (s : State) : Host.Outcome State Fault Refusal :=
  onDev (fun nv _ d => d.popRead nv n (chan reply c)) s

/-- A read of word 1: the latched half, once. -/
def Dev.latchRead (d : Dev) (n : Nat) : Word × Dev := (d.chn.latch.get zeroWord n, d.setLatch n 0)

/-- CHN_STALL_EXPIRY (R295, R296). -/
def Dev.stallExpiry (d : Dev) (n : Fin 8) : Dev :=
  let free := fun (d : Dev) => d.updCore n (fun c => { c with blocked := none })
  match (d.core n).blocked with
  | some (.push ch e) =>
    if d.parked n then (free d).pushBusy n ch
    else
      ((((free d).setPark n ch e).orBits R.CHN_ERR (2 ^ n.val)).setStage n 0).complete (.sb n) .ok []
  | some (.retry o _ _) => ((free d).orBits R.CHN_ERR (2 ^ o)).complete (.sb n) .ok []
  | _ => d

def execChnStallExpiry (n : Fin 8) (s : State) : Host.Outcome State Fault Refusal := onDev (fun _ _ d => d.stallExpiry n) s

/-- RETRY of a parked entry; where no core can block on a full channel, the entry stays parked and the access is aborted. -/
def Dev.parkRetry (d : Dev) (m : Master) (o : Nat) : Dev :=
  if !d.parked o then d.complete m .ok []
  else
    let ch := d.parkedChan o
    let e := d.parkedEntry o
    let who := match m with | .sb n => n.val | _ => theInterchange
    if d.chFree ch ≠ 0 then
      ((((d.setEntries ch (d.chEntries ch ++ [e])).served (64 + ch) who).unpark o).chServe ch 16).complete m .ok []
    else match m with
      | .sb n => d.updCore n (fun c => { c with blocked := some (.retry o ch e) })
      | _ => d.fail m true (park R.CHN_PARK_CTRL o) .abort

/-- Only SB0 and the core itself may write a core's CHN_PARK_CTRL. -/
def parkClosed (o c : Nat) : Bool := c != 0 && c != o

/-- A command to CHN_PARK_CTRL[o]. -/
def Dev.parkCtrl (d : Dev) (nv : Nv) (m : Master) (o : Nat) (f : Dev → Dev) : Dev :=
  let a := park R.CHN_PARK_CTRL o
  let busy := match m with | .sb c => !d.coreActs c | _ => false
  if busy then d
  else
    let closed := match m with | .sb c => parkClosed o c | _ => false
    if !closed ∧ d.gate nv m true a = .open_ then f d
    else d.writeGateFor nv m a (parkClosed o) id

/-- CHN_PARK_RETRY (R296). -/
def execChnParkRetry (m : Master) (n : Fin 8) (s : State) : Host.Outcome State Fault Refusal :=
  onDev (fun nv _ d => d.parkCtrl nv m n (fun d => d.parkRetry m n)) s

/-- CHN_PARK_DISCARD (R296). -/
def execChnParkDiscard (m : Master) (n : Fin 8) (s : State) : Host.Outcome State Fault Refusal :=
  onDev (fun nv _ d => d.parkCtrl nv m n (fun d => (d.unpark n).complete m .ok [])) s

/-! ### The host's side (R297) -/

/-- The host's credits of class P take a message of `len` payload bytes with nothing ahead of it (R240). -/
def Dev.creditP (d : Dev) (len : Nat) : Bool :=
  let k := d.link
  let free := fun (lim sent : List Nat) => (lim.getD 1 0 + 65536 - sent.getD 1 0 % 65536) % 65536
  k.waitP.isEmpty && decide (1 ≤ free k.hostMsgs k.sentMsgs ∧ (len + 15) / 16 ≤ free k.hostData k.sentData)

/-- RPY_HOST_DRAIN: the entries of a reply channel leave in one MSG. -/
def Dev.hostDrain (d : Dev) (c : Nat) : Dev :=
  let ch := 32 + c
  let es := (d.chEntries ch).take 16
  if !d.hostChan ch ∨ es = [] ∨ !d.linkUp ∨ !d.creditP (8 * es.length) then d
  else
    let d := d.setEntries ch ((d.chEntries ch).drop es.length)
    let d := d.queueP { typ := mMsg, flags := 0, addrHi := 0, arg := w32 c,
                        payload := (es.map (fun e => leBytes 8 e.toNat)).flatten, after := 0 }
    d.chServe ch 16

def execRpyHostDrain (c : Fin 32) (s : State) : Host.Outcome State Fault Refusal := onDev (fun _ _ d => d.hostDrain c) s

end Sys2Proof.Machine
end

