-- ==== Sys2Proof/Machine/HostLink.lean ====
section
/-! DEFINITION. The host link (chapter 11): sequence, replay and credits, messages to the device but register and block
access, and what the device sends. -/

namespace Sys2Proof

/-- The flags and the address of a message (R234, R236). -/
def HostMsg.noack (x : HostMsg) : Bool := x.flags.getLsbD 0
def HostMsg.endStep (x : HostMsg) : Bool := x.flags.getLsbD 1
def HostMsg.vc (x : HostMsg) : Nat := if x.flags.getLsbD 2 then 2 else 1
def HostMsg.resume (x : HostMsg) : Bool := x.flags.getLsbD 3
def HostMsg.addr (x : HostMsg) : Nat := x.addrHi.toNat * 2 ^ 32 + x.arg.toNat
/-- Data units of credit that a message takes (R240). -/
def unitsOf (x : HostMsg) : Nat := (x.len.toNat + 15) / 16

end Sys2Proof

namespace Sys2Proof.Machine

/-! ### Counters and retrains (R238, R251) -/

/-- Count in a transport counter (R251). -/
def Dev.tpCount (d : Dev) (reg : Nat) : Dev := d.count reg 1 R.XCH_TP_ERR 0

/-! ### Sending (R233, R237 to R240) -/

/-- The bytes of a message as sent. -/
def DevMsg.bytes (x : DevMsg) (seq ackseq : Nat) : List Byte :=
  let head := wordBytes (w32 (x.typ % 16 * 2 ^ 28 + x.flags % 16 * 2 ^ 24 + x.payload.length % 8192 * 256 + x.addrHi % 256))
    ++ wordBytes (w32 (seq % 65536 * 65536 + ackseq % 65536)) ++ wordBytes x.arg
  head ++ wordBytes (crc32c (head ++ x.payload)) ++ x.payload
    ++ List.replicate ((x.payload.length + 15) / 16 * 16 - x.payload.length) 0

/-- Put LINK on the link (Table 11-4): it reports the credit limits. -/
def Dev.sendLink (d : Dev) (rr : Bool) : Dev :=
  let k := d.link
  let lims := ((k.limData.zip k.limMsgs).map (fun q => wordBytes (w32 (q.1 % 65536 * 65536 + q.2 % 65536)))).flatten
  let payload := wordBytes (w32 (if rr then 2 ^ 31 else 0)) ++ lims ++ List.replicate 12 0
  let x : DevMsg := { typ := mLink, flags := 0, addrHi := 0, arg := 0, payload := payload, after := 0 }
  { d with link := { k with
    repMsgs := k.limMsgs, repData := k.limData, ackTold := k.rxNext, wire := [x.bytes 0 k.rxNext],
    lastLink := some { ackseq := k.rxNext, replayReq := rr, msgs := k.limMsgs, data := k.limData } } }

/-- Replay every held message in order (R238). -/
def Dev.replay (d : Dev) : Dev :=
  if d.link.held = [] then d
  else
    let k := d.link
    ({ d with link := { k with
      replays := k.replays + 1, ackTold := k.rxNext, wire := k.held.map (fun (q : Nat × DevMsg) => q.2.bytes q.1 k.rxNext) } }).tpCount
      R.XCH_TP_REPLAYS

/-- A retrain that keeps the sequence (R237, R238), with its outcome: the LINK island switches to source 0 first (R333). -/
def Dev.retrain (d : Dev) (tr : TrainOutcome) : Dev :=
  let d := if bit (d.rd R.CLK_SEL) 31 then d else d.setF R.CLK_SEL 0 1 0
  match d.trainStatus tr with
  | some st =>
    let d := ((d.wr R.XCH_LINK_STATUS st).tpCount R.XCH_LINK_RETRAINS).orBits R.XCH_TP_ERR (2 ^ 30)
    let d := { d with link := { d.link with replays := 0, failed := 0 } }
    let d := d.replay
    { d with link := { d.link with replays := 0 } }
  | none =>
    let f := d.link.failed + 1
    let d := { d with link := { d.link with failed := f } }
    if f < 3 then d.wr R.XCH_LINK_STATUS 0
    else (d.wr R.XCH_LINK_STATUS (w32 (2 ^ 30))).orBits R.XCH_TP_ERR (2 ^ 31)

/-- The host's ACKSEQ: messages it has passed need no more be held (R238). -/
def Dev.takeAck (d : Dev) (a : Nat) : Dev :=
  let k := d.link
  let behind := fun (q : Nat × DevMsg) => (a + 65536 - q.1 % 65536) % 65536
  let keep := k.held.filter (fun q => !decide (1 ≤ behind q ∧ behind q ≤ 32767))
  let adv := decide (keep.length < k.held.length)
  { d with link := { k with held := keep, peerAck := if adv then a else k.peerAck, replays := if adv then 0 else k.replays } }

/-- Bytes in the replay store. -/
def Link.heldBytes (k : Link) : Nat := (k.held.map (fun q => 16 + (q.2.payload.length + 15) / 16 * 16)).sum

/-- Whether class `c` (0 R, 1 P) may send a message with `len` payload bytes (R240). -/
def Link.creditFor (k : Link) (c len : Nat) : Bool :=
  let free := fun (lim sent : List Nat) => (lim.getD c 0 + 65536 - sent.getD c 0 % 65536) % 65536
  decide (1 ≤ free k.hostMsgs k.sentMsgs ∧ (len + 15) / 16 ≤ free k.hostData k.sentData)

/-- Send a message that waits in class `c`. -/
def Dev.sendMsg (d : Dev) (c : Nat) (x : DevMsg) : Dev :=
  let k := d.link
  let units := (x.payload.length + 15) / 16
  let d := { d with link := { k with
    txNext := (k.txNext + 1) % 65536, held := k.held ++ [(k.txNext, x)], ackTold := k.rxNext,
    sentMsgs := bump k.sentMsgs c 1, sentData := bump k.sentData c units, wire := [x.bytes k.txNext k.rxNext] } }
  if x.typ = mNack then d.tpCount R.XCH_TP_NACKS else d

/-- MESSAGE_SEND (R240). -/
def Dev.messageSend (d : Dev) (cls : TxClass) : Dev :=
  let k := d.link
  let may := fun (c : Nat) (x : DevMsg) =>
    d.linkUp && k.creditFor c x.payload.length && decide (k.held.length < 32767)
      && decide (k.heldBytes + 16 + (x.payload.length + 15) / 16 * 16 ≤ 262144)
  match cls with
  | .r =>
    -- an answer that must follow messages of class P holds back no other (R240, R243)
    match k.waitR.find? (fun x => x.after == 0) with
    | none => d
    | some x => if may 0 x then { d with link := { k with waitR := k.waitR.erase x } }.sendMsg 0 x else d
  | .p => match k.waitP with
    | [] => d
    | x :: rest =>
      if may 1 x then
        { d with link := { k with
          waitP := rest, waitR := k.waitR.map (fun (y : DevMsg) => { y with after := y.after - 1 }) } }.sendMsg 1 x
      else d

def execMessageSend (cls : TxClass) (s : State) : Host.Outcome State Fault Refusal := onDev (fun _ _ d => d.messageSend cls) s

/-- A retrain has failed, and the link is not DOWN: the adapter goes on retraining (R238). -/
def Dev.retraining (d : Dev) : Bool :=
  d.link.failed != 0 && !bit (d.rd R.XCH_LINK_STATUS) 30 && !bit (d.rd R.XCH_LINK_STATUS) 31 && d.branchOn 0 0

/-- REPLAY_TIMEOUT (R238): a replay, or after four without an advance a retrain; a retrain that failed is tried again. -/
def Dev.replayTimeout (d : Dev) (tr : TrainOutcome) : Dev :=
  if d.retraining then d.retrain tr
  else if d.link.held = [] ∨ bit (d.rd R.XCH_LINK_STATUS) 30 then d
  else if d.linkUp ∧ d.link.replays < 4 then d.replay
  else if 4 ≤ d.link.replays then d.retrain tr
  else d

def execReplayTimeout (tr : TrainOutcome) (s : State) : Host.Outcome State Fault Refusal :=
  onDev (fun _ _ d => d.replayTimeout tr) s

/-- RETRAIN of a link that runs or is retraining, or through the sideband of one that is DOWN (R238). -/
def Dev.linkRetrain (d : Dev) (m : Master) (tr : TrainOutcome) : Dev :=
  if d.linkUp || d.retraining || (m == .sideband && bit (d.rd R.XCH_LINK_STATUS) 30) then d.retrain tr else d

/-- LINK_RETRAIN. -/
def execLinkRetrain (m : Master) (tr : TrainOutcome) (s : State) : Host.Outcome State Fault Refusal :=
  onDev (fun n _ d => d.writeGate n m R.XCH_LINK_CTRL (fun d => d.linkRetrain m tr)) s

/-- CREDIT_REPORT (R240). -/
def execCreditReport (s : State) : Host.Outcome State Fault Refusal :=
  onDev (fun _ _ d => if d.linkUp then d.sendLink false else d) s

/-- ACK_LINK_SEND (R239): only when the host has not been told of what was accepted last. -/
def execAckLinkSend (s : State) : Host.Outcome State Fault Refusal :=
  onDev (fun _ _ d => if d.linkUp ∧ d.link.ackTold ≠ d.link.rxNext then d.sendLink false else d) s

/-! ### Receiving (R237) -/

/-- A message that fails its CRC or lies ahead: counted, and the first of a run asks for a replay. -/
def Dev.rxBad (d : Dev) : Dev :=
  let d := d.tpCount R.XCH_TP_RX_BAD
  if d.link.discarding then d
  else
    let d := { d with link := { d.link with discarding := true } }
    d.sendLink true

/-- A message whose CRC passes and whose SEQ is not the next expected. -/
def Dev.rxOut (d : Dev) (seq : Nat) : Dev :=
  let back := (d.link.rxNext + 65536 - seq) % 65536
  if 1 ≤ back ∧ back ≤ 32768 then d else d.rxBad

/-- Accept a message of device class `c` (0 C, 1 B, 2 I, 3 M; 4: of no class).  One of class I or M is handled at once and
frees its place; one of class C or B does so later (R240). -/
def Dev.rxTake (d : Dev) (x : HostMsg) (c : Nat) : Dev :=
  let d := d.takeAck x.ackseq.toNat
  let d := { d with link := { d.link with rxNext := (d.link.rxNext + 1) % 65536, discarding := false } }
  if c = 2 ∨ c = 3 then d.raise c (unitsOf x) else d

/-- Receive a message whose CRC passes. -/
def Dev.rx (d : Dev) (x : HostMsg) (c : Nat) (f : Dev → Dev) : Dev :=
  if !d.linkUp then d
  else if x.seq.toNat = d.link.rxNext then f (d.rxTake x c)
  else d.rxOut x.seq.toNat

/-- MESSAGE_DISCARDED (R237): CRC fails, or the SEQ is not the one expected. -/
def execMessageDiscarded (msg : HostMsg) (crcOk : Bool) (s : State) : Host.Outcome State Fault Refusal :=
  onDev (fun _ _ d =>
    if !d.linkUp then d
    else if !crcOk then d.rxBad
    else if msg.seq.toNat = d.link.rxNext then d
    else d.rxOut msg.seq.toNat) s

/-- REPLAY_REQ_REPEAT (R237). -/
def execReplayReqRepeat (s : State) : Host.Outcome State Fault Refusal :=
  onDev (fun _ _ d => if d.linkUp && d.link.discarding then d.sendLink true else d) s

/-- DISALLOWED_MESSAGE_TYPE (R234). -/
def execDisallowedMessageType (msg : HostMsg) (s : State) : Host.Outcome State Fault Refusal :=
  onDev (fun _ _ d =>
    if msg.typ.toNat < 0xB then d
    else d.rx msg 4 (fun d => (d.tpCount R.XCH_TP_DISCARD).nack msg.seq.toNat cBadField 0)) s

/-- LINK (R239). -/
def Dev.rxLink (d : Dev) (ackseq : Nat) (rr : Bool) (limR limP : Word) : Dev :=
  let d := { d with link := { d.link with
    hostMsgs := [fld limR 0 16, fld limP 0 16], hostData := [fld limR 16 16, fld limP 16 16] } }
  let d := d.takeAck ackseq
  if rr then d.replay else d

def execLink (crcOk : Bool) (ackseq : Half) (replayReq : Bool) (limR limP : Word) (s : State) :
    Host.Outcome State Fault Refusal :=
  onDev (fun _ _ d =>
    if !d.linkUp then d else if crcOk then d.rxLink ackseq.toNat replayReq limR limP else d.rxBad) s

/-! ### Flags and refusals (R236, R242, R249, R250, R442) -/

def Dev.bootReady (d : Dev) : Bool := bit (d.rd R.SYS_BOOT_STAGE) 31
def Dev.resetting (d : Dev) : Bool := bit (d.rd R.SYS_RST_STATUS) 31

/-- Answer an accepted request. -/
def Dev.done (d : Dev) (x : HostMsg) (data : List Byte) : Dev := if x.noack then d else d.ack x.seq.toNat data

/-- Refuse an input message (R147, R242); `lag`: the events or values it carried. -/
def Dev.refuseInput (d : Dev) (x : HostMsg) (w lag code credit : Nat) : Dev :=
  let d := if (d.wld w).live then (d.wcount w wNacks 1).wcount w wLag (if code = cOrder then 0 else lag) else d
  let d := if code = cRetry then d.updWld w (fun y => { y with blocked := true }) else d
  d.nack x.seq.toNat code credit

/-- The refusals of an input message before its own conditions (R442): BUSY, BAD_FIELD, RESET, NO_WORLD, WORLD_FAULT,
ORDER. -/
def Dev.inputRefusal (d : Dev) (w : Nat) (bad : Bool) : Option Nat :=
  let x := d.wld w
  if !d.bootReady then some cBusy
  else if bad then some cBadField
  else if d.resetting then some cReset
  else if !x.live then some cNoWorld
  else if x.faulted then some cWorldFault
  else if x.blocked then some cOrder
  else none

/-- RESUME lifts the block of a world. -/
def Dev.resumeWorld (d : Dev) (x : HostMsg) (w : Nat) : Dev :=
  if x.resume ∧ (d.wld w).blocked then d.updWld w (fun y => { y with blocked := false }) else d

def Dev.queueFree (d : Dev) (w : Nat) : Nat := 512 - d.queueUsed w

/-! ### EVT_IN, VAL_IN, MOD_IN -/

/-- The events of a payload: key and second word. -/
def eventsOf : List Word → List (Word × Word)
  | k :: v :: rest => (k, v) :: eventsOf rest
  | _ => []

/-- EVT_IN (R146, R147, R234). -/
def Dev.evtIn (d : Dev) (x : HostMsg) : Dev :=
  let w := fld x.arg 0 12
  let len := x.len.toNat
  let evs := eventsOf (wordsOf (recBytes x.payload 0 len))
  let d := d.resumeWorld x w
  let bad := len % 8 != 0 || decide (4096 < len) || (len == 0 && !x.endStep) || evs.any (fun e => fld e.1 20 12 != w)
  let need := evs.length + (if x.endStep then 1 else 0)
  match d.inputRefusal w bad with
  | some c => d.refuseInput x w (len / 8) c 0
  | none =>
    if d.queueFree w < need then d.refuseInput x w evs.length cRetry (d.queueFree w)
    else
      let d := evs.foldl (fun (d : Dev) e =>
        d.queuePut w (.event (mkWord e.1 (fld e.2 0 16) (fld e.2 16 5) (bit e.2 21) false false) x.vc)) d
      let d := if x.endStep then d.queuePut w .mark else d
      d.done x []

def execEvtIn (msg : HostMsg) (s : State) : Host.Outcome State Fault Refusal :=
  onDev (fun _ _ d => d.rx msg 2 (fun d => d.evtIn msg)) s

/-- The encoder-channel checks of R253. -/
def Dev.encRefuses (d : Dev) (q : EncCfg) (w k : Nat) : Bool :=
  !bit q.cfg 31 || q.world != w || k != q.nval || decide (1024 < q.nval)
    || (q.code == 4 && bit (d.rd (prjReg R.QNT_PRJ_STATUS (fld q.cfg 16 2))) 29
        && k != (d.prj (fld q.cfg 16 2)).matrix.k)
    || ((q.code == 2 || q.code == 3 || q.code == 4) && decide (14 ≤ fld q.cfg 23 4))

/-- VAL_IN (R253, R254). -/
def Dev.valIn (d : Dev) (x : HostMsg) : Dev :=
  let w := fld x.arg 0 12
  let e := fld x.arg 12 8
  let len := x.len.toNat
  let k := len / 4
  let d := d.resumeWorld x w
  let bad := len % 4 != 0 || len == 0 || decide (4096 < len)
  match d.inputRefusal w bad with
  | some c => d.refuseInput x w k c 0
  | none =>
    if d.encRefuses (d.encCfg e) w k then d.refuseInput x w k cBadField 0
    else if d.queueFree w < (d.wld w).reserve ∨ (x.endStep ∧ d.queueFree w = 0) ∨ ((d.wld w).held ∧ d.queueFree w = 0) then
      d.refuseInput x w k cRetry (d.queueFree w)
    else (d.encode e (wordsOf (recBytes x.payload 0 len)) x.endStep).done x []

def execValIn (msg : HostMsg) (s : State) : Host.Outcome State Fault Refusal :=
  onDev (fun _ _ d => d.rx msg 2 (fun d => d.valIn msg)) s

/-- MOD_IN (R140). -/
def Dev.modIn (d : Dev) (x : HostMsg) : Dev :=
  let w := fld x.arg 0 12
  let d := d.resumeWorld x w
  match d.inputRefusal w (x.len.toNat != 0 || d.member w) with
  | some c => d.refuseInput x w 0 c 0
  | none =>
    if (d.wld w).latch.isSome ∨ ((d.wld w).held ∧ d.queueFree w = 0) then d.refuseInput x w 0 cRetry 0
    else
      (d.updWld w (fun y => { y with latch := some (BitVec.ofNat 16 (fld x.arg 16 16), bit x.arg 12) })).done x []

def execModIn (msg : HostMsg) (s : State) : Host.Outcome State Fault Refusal :=
  onDev (fun _ _ d => d.rx msg 2 (fun d => d.modIn msg)) s

/-! ### Rings (R245, R247) -/

/-- RING_SET. -/
def Dev.ringSet (d : Dev) (x : HostMsg) : Dev :=
  let r := fld x.arg 0 8
  let p := recBytes x.payload 0 32
  let seq := x.seq.toNat
  let base := recNat p 0 8 % 2 ^ 40
  let size := recNat p 8 4
  let flags := recWord p 12
  let widx := recNat p 16 8 % 2 ^ 40
  let enable := bit flags 31
  let sizeOk := decide (size % 4096 = 0 ∧ 4096 ≤ size ∧ size ≤ 2 ^ 27)
  let placeOk := decide (base % 64 = 0 ∧ widx % 8 = 0 ∧ base + size ≤ 2 ^ 40 ∧ widx + 8 ≤ 2 ^ 40)
  if !d.bootReady then d.nack seq cBusy 0
  else if x.len.toNat ≠ 32 then d.nack seq cBadField 0
  else if !enable ∧ !d.ringOn r then d.ack seq []
  else if !sizeOk ∨ !placeOk ∨ (enable ∧ d.ringOn r) then d.nack seq cBadField 0
  else if enable then
    let d := d.setRing r { base := base, widx := widx, recs := 0, drop := false, waiting := [] }
    let d := d.upd (ringState r) (fun w => setFld (setFld (setFld w 0 27 0) 28 1 (if bit flags 30 then 1 else 0)) 30 2 2)
    let d := (d.wr (R.XCH_RING_RIDX + 16 * r) 0).wr (R.XCH_RING_SIZE + 16 * r) (w32 size)
    (d.writeIndex r).ackAfter seq []
  else
    let k := (d.ring r).waiting.length
    let d := d.setRing r { d.ring r with waiting := [] }
    let d := ((d.ringDrop r k).writeIndex r).upd (ringState r) (fun w => setFld w 30 2 0)
    d.ackAfter seq []

/-- RING_FREE. -/
def Dev.ringFree (d : Dev) (x : HostMsg) : Dev :=
  let r := fld x.arg 0 8
  let idx := 8 * fld x.arg 8 24
  let size := d.ringSize r
  let rd := d.ringR r
  if !d.bootReady then d.nack x.seq.toNat cBusy 0
  else if x.len.toNat ≠ 0 ∨ !d.ringOn r ∨ size ≤ idx ∨ (d.ringW r + size - rd) % size < (idx + size - rd) % size then
    d.nack x.seq.toNat cBadField 0
  else (d.wr (R.XCH_RING_RIDX + 16 * r) (w32 idx)).done x []

/-- RECORD_PLACE (R246). -/
def execRecordPlace (ring : Fin 256) (s : State) : Host.Outcome State Fault Refusal := onDev (fun _ _ d => d.placeRecord ring) s

/-! ### MSG (R297) -/

/-- MSG to a request channel: all of its entries, or none. -/
def Dev.msgIn (d : Dev) (x : HostMsg) : Dev :=
  let ch := fld x.arg 0 5
  let len := x.len.toNat
  let es := (eventsOf (wordsOf (recBytes x.payload 0 len))).map (fun e => word64 e.2 e.1)
  let setBlock := fun (d : Dev) (b : Bool) => { d with link := { d.link with blocked := d.link.blocked.set (fun _ => false) ch b } }
  let d := if x.resume then setBlock d false else d
  if !d.bootReady then d.nack x.seq.toNat cBusy 0
  else if len % 8 ≠ 0 ∨ len < 8 ∨ 128 < len then d.nack x.seq.toNat cBadField 0
  else if d.link.blocked.get (fun _ => false) ch then d.nack x.seq.toNat cOrder 0
  else if d.chFree ch < es.length then (setBlock d true).nack x.seq.toNat cRetry (d.chFree ch)
  else (((d.setEntries ch (d.chEntries ch ++ es)).served (64 + ch) theInterchange).chServe ch 16).done x []

/-- MSG_TO_DEVICE (R297). -/
def execMsgToDevice (msg : HostMsg) (s : State) : Host.Outcome State Fault Refusal :=
  onDev (fun _ _ d => d.rx msg 3 (fun d => d.msgIn msg)) s

end Sys2Proof.Machine
end

