-- ==== Sys2Proof/Machine/System.lean ====
section
/-! DEFINITION. Multi-device systems: tokens as they arrive, the forming of the system, system worlds at their members and
their manager, and the distribution engine (R409 to R420). -/

namespace Sys2Proof.Machine

/-! ### Tokens as they arrive (R410) -/

/-- Kinds that concern the two ends of a link only (Table 19-3). -/
def linkLocal (kind : Nat) : Bool := [1, 2, 3, 4, 14].contains kind

/-- The token at the head of lane T has been handled. -/
def Dev.popToken (d : Dev) (n : Nv) (k : Nat) (last : Bool) : Dev :=
  (d.updTrunk k (fun x => { x with inT := x.inT.drop 1 }.free 4 (if last then 1 else 0))).giveCredit n k

/-- The token at the head of lane T of link `k`, if it is of a kind: one for another device goes on toward it; `f` handles one
for this device, and answers none while it has to wait. -/
def Dev.tokenAt (d : Dev) (n : Nv) (k kind : Nat) (f : Token → Dev → Option Dev) : Dev :=
  match (d.trunk k).inT with
  | [] => d
  | (t, last) :: _ =>
    if t.kind ≠ kind then d
    else if linkLocal kind ∨ t.ddev = d.device then
      match f t d with
      | some d => d.popToken n k last
      | none => d
    else
      let d := if d.orphan || !d.formed then d else match d.route t.ddev with
        | some j => if d.trunkHeld n j then d.tokenOn n j t else d
        | none => d
      d.popToken n k last

/-- A command that handles a kind of token at its device. -/
def onToken (k kind : Nat) (f : Nv → Token → Dev → Option Dev) (s : State) : Host.Outcome State Fault Refusal :=
  onIsl 2 k (fun n _ d => d.tokenAt n k kind (f n)) s

/-- The IDENT token that stage 7 sends on a link (R409). -/
def Dev.identToken (d : Dev) (n : Nv) (k role : Nat) : Token :=
  { d.mkToken 1 0 0 0 with
    a := loWord n.serial, b := hiWord n.serial,
    c := w32 (d.device + role % 4 * 2 ^ 8 + k % 8 * 2 ^ 12 + d.sysSize * 2 ^ 16), d := d.rd R.SYS_ORDER }

/-- The partner of link `k` shows who it is (R409). -/
def Dev.takeIdent (d : Dev) (k : Nat) (t : Token) : Dev :=
  let d := (d.wr (trk R.TRK_PEER_LO k) t.a).wr (trk R.TRK_PEER_HI k) t.b
  let d := d.wr (trk R.TRK_PEER_ID k) (w32 (fld t.d 0 16 * 2 ^ 16 + fld t.c 16 7 * 2 ^ 8 + fld t.c 0 6))
  (d.wr (trk R.TRK_PEER_LINK k) (w32 (fld t.c 8 2 * 2 ^ 4 + fld t.c 12 3))).orBits (trk R.TRK_STATUS k) (2 ^ 29)

/-- TOKEN_IDENT. -/
def execTokenIdent (k : Fin 8) (s : State) : Host.Outcome State Fault Refusal :=
  onToken k 1 (fun _ t d => some (d.takeIdent k t)) s

/-! ### Forming (R411, R412) -/

/-- Device `v` is reached by link `k`. -/
def Dev.setRoute (d : Dev) (v k : Nat) : Dev := d.wr (R.TRK_ROUTE + 4 * v) (w32 (2 ^ 31 + k % 8))

/-- A wave reaches a worker for the first time, on link `k` (R411 step 2). -/
def Dev.joinWave (d : Dev) (n : Nv) (k depth : Nat) : Dev :=
  let d := (d.treeClear.treeSet k).andNot R.TRK_SYS (2 ^ 28)
  let d := (d.setF R.TRK_SYS 25 3 k).setF R.TRK_SYS 8 6 ((depth + 1) % 64)
  let d := (List.range d.sysSize).foldl (fun (d : Dev) v => if v = d.device then d else d.setRoute v k)
    (d.resetRegs R.TRK_ROUTE (R.TRK_ROUTE + 256))
  let d : Dev := { d.sysState 1 with sys := { d.sys with seen := true } }
  let d := d.sendTopo n ((d.partners n).filter (· != k))
  let m : SMsg := { kind := sRecord, sdev := d.device, ddev := 0, tag := 0, len := d.ownRecord.length, status := 0, addr := 0,
                    payload := d.ownRecord }
  d.sendBytes n k 3 m.bytes

/-- TOPO at a worker that has an expected record; one that has joined the wave on another link ignores it. -/
def Dev.takeTopo (d : Dev) (n : Nv) (k : Nat) (t : Token) : Dev :=
  if d.isManager ∨ d.sys.topo = [] ∨ (d.sys.seen ∧ d.f R.TRK_SYS 25 3 ≠ k) then d else d.joinWave n k (fld t.c 0 6)

/-- TOKEN_TOPO. -/
def execTokenTopo (k : Fin 8) (s : State) : Host.Outcome State Fault Refusal :=
  onToken k 2 (fun n t d => some (d.takeTopo n k t)) s

/-- Links of the tree that lead away from the manager. -/
def Dev.children (d : Dev) : List Nat := (List.range 8).filter (fun k => d.tree k && (d.isManager || d.f R.TRK_SYS 25 3 != k))

/-- Traffic that waited for FORMED goes out. -/
def Dev.pumpLinks (d : Dev) (n : Nv) : Dev := (List.range 8).foldl (fun (d : Dev) k => d.pumpAll n k) d

/-- SYSOK or SYSFAIL comes down the tree. -/
def Dev.treeVerdict (d : Dev) (n : Nv) (k state : Nat) (t : Token) : Dev :=
  if d.isManager ∨ d.f R.TRK_SYS 25 3 ≠ k ∨ !d.sys.seen then d
  else
    let d : Dev := { d.sysState state with sys := { d.sys with seen := false } }
    let d := (d.children.foldl (fun (d : Dev) j => d.tokenOn n j { t with sdev := d.device }) d).pumpLinks n
    if state = 2 then d.sendWaiting n else d

/-- TOKEN_SYSOK. -/
def execTokenSysok (k : Fin 8) (s : State) : Host.Outcome State Fault Refusal :=
  onToken k 3 (fun n t d => some (d.treeVerdict n k 2 t)) s

/-- TOKEN_SYSFAIL. -/
def execTokenSysfail (k : Fin 8) (s : State) : Host.Outcome State Fault Refusal :=
  onToken k 4 (fun n t d => some (d.treeVerdict n k 3 t)) s

/-- TOKEN_LINKDOWN (R412). -/
def execTokenLinkdown (k : Fin 8) (s : State) : Host.Outcome State Fault Refusal :=
  onToken k 5 (fun n _ d => some (if d.isManager then d.wave n else d)) s

/-- TRK_REFORM (R412), a register of the manager. -/
def execTrkReform (s : State) : Host.Outcome State Fault Refusal :=
  onDev (fun n _ d => if d.isManager then d.wave n else d) s

/-- A RECORD message at the head of lane S: it sets the route to its device and goes up, to the manager (R411 step 3). -/
def Dev.takeRecord (d : Dev) (n : Nv) (k : Nat) : Dev :=
  match (d.trunk k).inS with
  | [] => d
  | (lus, bs) :: rest =>
    let x := SMsg.ofBytes bs
    if x.kind ≠ sRecord then d
    else
      let d := d.updTrunk k (fun t => { t with inS := rest }.free 3 lus)
      let lost := d.trkCount R.TRK_NOROUTE k 1
      let d :=
        if d.isManager then
          if sCrcOk bs && d.sys.forming then
            let d := (d.setRoute x.sdev k).treeSet k
            { d with sys := { d.sys with recs := d.sys.recs ++ [x.payload] } }
          else d
        else if d.orphan then lost
        else
          let up := d.f R.TRK_SYS 25 3
          let d := (d.setRoute x.sdev k).treeSet k
          if d.trunkHeld n up then d.sendBytes n up 3 bs else lost
      d.giveCredit n k

/-- S_MSG_RECORD. -/
def execSMsgRecord (k : Fin 8) (s : State) : Host.Outcome State Fault Refusal := onIsl 2 k (fun n _ d => d.takeRecord n k) s

/-! ### The system checks (Table 19-4) -/

abbrev recRole : Nat := 0x13
abbrev recDevice : Nat := 0x14
abbrev recSize : Nat := 0x15
/-- NEIGH[k] of a record: VALID, the partner's link, the partner's device. -/
def neigh (r : List Byte) (k : Nat) : Bool × Nat × Nat :=
  let v := recNat r (0x18 + 2 * k) 2
  (v.testBit 15, v / 2 ^ 8 % 8, v % 64)
/-- Device and link of the partner that link `k` reported, in a RECORD payload: none where no IDENT came. -/
def peerIn (r : List Byte) (k : Nat) : Option (Nat × Nat) :=
  let v := recNat r (64 + 16 * k + 12) 4
  if v.testBit 31 then some (recNat r (64 + 16 * k + 8) 4 % 64, v % 8) else none
/-- Link `k` was up when the record was made. -/
def upIn (r : List Byte) (k : Nat) : Bool := (recNat r (64 + 16 * k + 12) 4).testBit 30

/-- A valid NEIGH entry is matched by the partner's entry and by the identity that the link reported. -/
def neighMatched (rs : List (List Byte)) (r : List Byte) (k : Nat) : Bool :=
  let (v, l, e) := neigh r k
  !v || (peerIn r k == some (e, l)
    && rs.any (fun q => recNat q recDevice 1 == e && neigh q l == (true, k, recNat r recDevice 1)))

/-- With 16 or more devices, joined pairs are joined twice, and the links are up.  DEDUCED (log entry 35): a wave that runs again
when a link is lost does not ask that every link is up, since such a system loses no member to the failure of one link (R411). -/
def doublyJoined (again : Bool) (r : List Byte) : Bool :=
  (List.range 8).all (fun k => let (v, _, e) := neigh r k
    !v || ((again || upIn r k) && (List.range 8).any (fun j => j != k && (neigh r j).1 && (neigh r j).2.2 == e)))

/-- The settings of the running image name a spare worker. -/
def Nv.spareOk (n : Nv) (d : Dev) (size : Nat) : Bool :=
  match n.settings (n.bootRec.slot d.fwu.running).region with
  | some (_, _, b) => match settingsRecord 2 b.length (b.drop 32) with
    | some r => recNat r 0 1 == size && decide (1 ≤ recNat r 1 1 ∧ recNat r 1 1 < size)
    | none => false
  | none => false

def systemOk (n : Nv) (d : Dev) : Bool :=
  let rs := d.sys.recs
  let size := d.sysSize
  decide (rs.length = size)
    && (List.range size).all (fun v => rs.any (fun r => recNat r recDevice 1 == v))
    && rs.all (fun r => recNat r recSize 1 == size && decide (recNat r recRole 1 = 1 ↔ recNat r recDevice 1 = 0)
        && (List.range 8).all (neighMatched rs r))
    && (decide (size < 16) || rs.all (doublyJoined (!(d.stageRunning && d.stage == 9))))
    && (decide (size < 32) || n.spareOk d size)

/-- The manager sends the last token of a live system world again, and its PROBE rounds begin afresh (R412). -/
def Dev.resumeWorldTokens (d : Dev) (n : Nv) (w : Nat) : Dev :=
  let x := d.wld w
  if !x.live || !d.manages w then d
  else
    let d := d.updWld w (fun x => { x with lastRound := none, reports := [] })
    match x.lastToken with
    | some (kind, step, a) => d.toMembers n w (fun t => { t with a := w32 a }) kind step
    | none => d

/-- The manager closes the wave: FORMED, or failed with CODE 0x07. -/
def Dev.formEnd (d : Dev) (n : Nv) : Dev :=
  if !d.sys.forming then d
  else
    let ok := systemOk n d
    let d : Dev := { d.sysState (if ok then 2 else 3) with sys := { d.sys with forming := false } }
    let t := d.mkToken (if ok then 3 else 4) 0 0 0
    let d := d.children.foldl (fun (d : Dev) j => d.tokenOn n j { t with a := if ok then 0 else 7 }) d
    if ok then d.liveIds.foldl (fun (d : Dev) w => d.resumeWorldTokens n w) ((d.pumpLinks n).sendWaiting n) else d

/-- FORM_TIMEOUT (R411). -/
def execFormTimeout (s : State) : Host.Outcome State Fault Refusal := onDev (fun n _ d => d.formEnd n) s

/-! ### Tokens of system worlds (R413 to R418) -/

/-- Step `t` lies before the present step of a world. -/
def World.passed (x : World) (t : Nat) : Bool :=
  x.started && decide (1 ≤ (x.step + 65536 - t) % 65536 ∧ (x.step + 65536 - t) % 65536 < 32768)

/-- The world is in step `t`. -/
def World.at_ (x : World) (t : Nat) : Bool := x.live && x.started && x.step == t

/-- RELEASE at a member: its fault ends, and the step is released as soon as it may be. -/
def Dev.takeRelease (d : Dev) (n : Nv) (t : Token) : Dev :=
  let w := t.world
  let x := d.wld w
  let next := if x.started then (x.step + 1) % 65536 else 0
  if !x.live || !d.member w || t.step != next then d
  else
    let d := (d.clearFault w).updWld w (fun x => { x with pendRelease := some t.step })
    if d.releasable w then d.release n w else d

/-- TOKEN_RELEASE. -/
def execTokenRelease (k : Fin 8) (s : State) : Host.Outcome State Fault Refusal :=
  onToken k tkRelease (fun n t d => some (d.takeRelease n t)) s

/-- PROBE at a member: a reading goes back in a REPORT. -/
def Dev.takeProbe (d : Dev) (n : Nv) (t : Token) : Dev :=
  let w := t.world
  let x := d.wld w
  let b := t.flags % 2
  if !x.live || !d.member w || x.passed t.step then d
  else
    let r := d.reading w b
    let q := r.limit
    let fl := d.reportFlags w b r % 8
    d.sendToken n { d.mkToken tkReport t.sdev w t.step with
      round := t.round, flags := if x.at_ t.step then fl else fl / 4 * 4,
      a := w32 q.created, b := w32 q.consumed, c := w32 q.lost }

/-- TOKEN_PROBE. -/
def execTokenProbe (k : Fin 8) (s : State) : Host.Outcome State Fault Refusal :=
  onToken k tkProbe (fun n t d => some (d.takeProbe n t)) s

/-- REPORT at the manager, of the round in progress. -/
def Dev.takeReport (d : Dev) (n : Nv) (t : Token) : Dev :=
  let w := t.world
  let x := d.wld w
  if !x.live || !d.manages w || x.reports == [] || t.round != x.round || x.reports.any (fun q => q.1 == t.sdev) then d
  else
    (d.updWld w (fun x => { x with
      reports := x.reports ++ [(t.sdev, t.a.toNat, t.b.toNat, t.c.toNat, t.flags)] })).judgeRound n w

/-- TOKEN_REPORT. -/
def execTokenReport (k : Fin 8) (s : State) : Host.Outcome State Fault Refusal :=
  onToken k tkReport (fun n t d => some (d.takeReport n t)) s

/-- QUIET at a member (R415). -/
def Dev.takeQuiet (d : Dev) (n : Nv) (t : Token) : Dev :=
  let x := d.wld t.world
  if x.at_ t.step && d.member t.world && !x.quiescent && !x.skip && !x.done then (d.closeInput t.world).quiescence n t.world else d

/-- TOKEN_QUIET. -/
def execTokenQuiet (k : Fin 8) (s : State) : Host.Outcome State Fault Refusal :=
  onToken k tkQuiet (fun n t d => some (d.takeQuiet n t)) s

/-- DONE at the manager; the last one may complete the system barrier. -/
def Dev.takeDone (d : Dev) (t : Token) : Dev :=
  let x := d.wld t.world
  if x.at_ t.step && d.manages t.world && !x.dones.contains t.sdev then
    (d.updWld t.world (fun x => { x with dones := x.dones ++ [t.sdev] })).systemBarrier t.world
  else d

/-- TOKEN_DONE. -/
def execTokenDone (k : Fin 8) (s : State) : Host.Outcome State Fault Refusal :=
  onToken k tkDone (fun _ t d => some (d.takeDone t)) s

/-- ABANDON at a member (R416). -/
def Dev.takeAbandon (d : Dev) (n : Nv) (t : Token) : Dev :=
  let x := d.wld t.world
  if x.at_ t.step && d.member t.world && !x.done && !x.skip then d.skipBegin n t.world else d

/-- TOKEN_ABANDON. -/
def execTokenAbandon (k : Fin 8) (s : State) : Host.Outcome State Fault Refusal :=
  onToken k tkAbandon (fun n t d => some (d.takeAbandon n t)) s

/-- FAULT at a member (R416). -/
def Dev.takeFault (d : Dev) (n : Nv) (t : Token) : Dev :=
  let x := d.wld t.world
  if x.live && d.member t.world && !x.passed t.step then d.worldFault n t.world t.a.toNat else d

/-- TOKEN_FAULT. -/
def execTokenFault (k : Fin 8) (s : State) : Host.Outcome State Fault Refusal :=
  onToken k tkFault (fun n t d => some (d.takeFault n t)) s

/-- MOD at a member: injected at once, unless its step has passed (R412); it waits at the head of its lane while an output has
no room (R418). -/
def Dev.takeMod (d : Dev) (n : Nv) (t : Token) : Option Dev :=
  let x := d.wld t.world
  if x.live && !x.passed t.step && d.member t.world then
    d.injectCopy n (modCopy t.world t.step (BitVec.ofNat 16 (fld t.a 0 16)) (bit t.a 16))
  else some d

/-- TOKEN_MOD. -/
def execTokenMod (k : Fin 8) (s : State) : Host.Outcome State Fault Refusal :=
  onToken k tkMod (fun n t d => d.takeMod n t) s

/-- TOKEN_WAKE (R421): the token at the head of its lane; while the link's branch does not run, the partner's lanes that leave
electrical idle. -/
def execTokenWake (k : Fin 8) (s : State) : Host.Outcome State Fault Refusal :=
  if s.dev.branchOn 2 k then onToken k 14 (fun _ _ d => some (d.wakeLink k)) s
  else onDev (fun n _ d => if n.trunkOn k then d.wakeLink k else d) s

/-! ### Distribution (R420) -/

abbrev dPlan : Nat := 1
abbrev dFirmware : Nat := 2
abbrev dGo : Nat := 3

def Dev.distState (d : Dev) : Nat := d.f R.TRK_DIST_STATUS 0 3
def Dev.distRound (d : Dev) : Nat := d.f R.TRK_DIST_STATUS 4 2

/-- Workers selected in TRK_DIST_SEL. -/
def Dev.distWorkers (d : Dev) : List Nat :=
  (List.range d.sysSize).filter (fun v => v != 0 && v != d.device && bit (d.rd (R.TRK_DIST_SEL_LO + 4 * (v / 32))) (v % 32))

/-- Selected workers that have not acknowledged. -/
def Dev.distFailing (d : Dev) : List Nat :=
  d.distWorkers.filter (fun v => !bit (d.rd (R.TRK_DIST_ACK_LO + 4 * (v / 32))) (v % 32))

/-- The command ends with a REASON. -/
def Dev.distEnd (d : Dev) (reason : Nat) : Dev :=
  let d := ((d.setF R.TRK_DIST_STATUS 0 3 0).setF R.TRK_DIST_STATUS 8 8 reason).orBits R.TRK_DIST_STATUS
    (2 ^ 31 + if reason = 0 then 0 else 2 ^ 30)
  { d with sys := { d.sys with distLeft := [], distWait := [], distHold := [], distSeen := [], distOut := [] } }.irq1 92

/-- A WR or RD to a worker; its TAG. -/
def Dev.distMsg (d : Dev) (n : Nv) (v kind a : Nat) (payload : List Byte) : Nat × Dev :=
  let (tag, d) := d.nextTag
  (tag, (d.sendS n { kind := kind, sdev := d.device, ddev := v, tag := tag, len := if kind = sRd then 4 else payload.length,
                     status := 0, addr := a, payload := payload }).1)

/-- Write a register of a worker. -/
def Dev.distReg (d : Dev) (n : Nv) (v a : Nat) (x : Word) : Dev := (d.distMsg n v sWr a (wordBytes x)).2

/-- An access whose RSP the engine acts on. -/
def Dev.distTrack (d : Dev) (n : Nv) (v kind a : Nat) (payload : List Byte) (times : Nat) : Dev :=
  let (tag, d) := d.distMsg n v kind a payload
  { d with sys := { d.sys with distOut := d.sys.distOut ++ [(tag, v, a, payload, times)] } }

/-- TRK_DIST_ENT[v]: SRC, DST, LEN. -/
def Dev.distEnt (d : Dev) (v : Nat) : Nat × Nat × Nat :=
  let w := fun (i : Nat) => d.rd (R.TRK_DIST_ENT + 16 * v + 4 * i)
  ((w 0).toNat + fld (w 1) 0 8 * 2 ^ 32, (w 3).toNat + fld (w 1) 8 8 * 2 ^ 32, (w 2).toNat)

/-- The worker's loader is told where the image lies, and to LOAD it. -/
def Dev.distLoad (d : Dev) (n : Nv) (v : Nat) : Dev :=
  let dst := (d.distEnt v).2.1
  ((d.distReg n v R.TPL_SRC_LO (w32 dst)).distReg n v R.TPL_SRC_HI (w32 (dst / 2 ^ 32))).distReg n v R.TPL_CTRL 1

/-- Bytes in pieces of at most 2,048, each with its offset. -/
def pieces (bs : List Byte) : List (Nat × List Byte) :=
  (List.range ((bs.length + 2047) / 2048)).map (fun i => (2048 * i, recBytes bs (2048 * i) (min 2048 (bs.length - 2048 * i))))

/-- The source of a worker's copy lies, in part, in a Depot bank under test: the engine waits for it (R287). -/
def Dev.distHeld (d : Dev) (v : Nat) : Dev := { d with sys := { d.sys with distHold := d.sys.distHold ++ [v] } }

/-- The whole sequence of PLAN for a worker: its image over remote Signal writes or remote Freight, then LOAD. -/
def distPlanTo (n : Nv) (x : Mem × Dev) (v : Nat) : Mem × Dev :=
  let (src, dst, len) := x.2.distEnt v
  if x.2.banksTested src len then (x.1, x.2.distHeld v) else
  let (ok, (m, d)) := if src < depotSize then depotScan x src len else (true, x)
  let bs := m.devBytes src len
  if !ok then (m, d)
  else if dst + len ≤ depotSize then
    (m, ((pieces bs).foldl (fun (d : Dev) p => (d.distMsg n v sWr (dst + p.1) p.2).2) d).distLoad n v)
  else
    let rs := (splitAt4K dst len).map (fun (a, k) => (d.endpointOf n a).bind (fun e => (d.trunkToward v).map (fun t =>
      ({ ep := epHost, typ := pWrite, dst := t, addr := a, rdst := e, rcount := 0, data := recBytes bs (a - dst) k,
         owner := .dist v, place := 0, rdev := some v } : FReq))))
    if rs.any Option.isNone then (m, d)
    else (m, ({ d with sys := { d.sys with distWait := d.sys.distWait ++ [v] } } : Dev).ask n (rs.filterMap id))

/-- The image window (R235). -/
abbrev imageWindow : Nat := 0x100078000

/-- A chunk of Table 18-6. -/
def chunkOf (off : Nat) (data : List Byte) : List Byte :=
  let h := leBytes 4 0x4B4E4843 ++ leBytes 4 off ++ leBytes 4 data.length
  h ++ wordBytes (crc32c (h ++ data)) ++ data

/-- The whole sequence of FIRMWARE for a worker. -/
def distFirmwareTo (n : Nv) (x : Mem × Dev) (v : Nat) : Mem × Dev :=
  let src := x.2.addr40 R.TRK_DIST_FW_LO
  let len := (x.2.rd R.TRK_DIST_FW_LEN).toNat
  if x.2.banksTested src len then (x.1, x.2.distHeld v) else
  let (ok, (m, d)) := if src < depotSize then depotScan x src len else (true, x)
  if !ok then (m, d)
  else
    let d := (d.distReg n v R.FWU_SOURCE 0).distReg n v R.FWU_CTRL 1
    (m, (pieces (m.devBytes src len)).foldl (fun (d : Dev) p => d.distTrack n v sWr imageWindow (chunkOf p.1 p.2) 1) d)

/-- The sequence of the command in progress goes out to a list of workers. -/
def distTo (n : Nv) (vs : List Nat) (x : Mem × Dev) : Mem × Dev :=
  match x.2.distState with
  | 1 => vs.foldl (distPlanTo n) x
  | 2 => vs.foldl (distFirmwareTo n) x
  | _ => (x.1, vs.foldl (fun (d : Dev) v => d.distReg n v R.TPL_CTRL 2) x.2)

/-- A pass of the command in progress begins, over a list of workers. -/
def distSend (n : Nv) (vs : List Nat) (x : Mem × Dev) : Mem × Dev :=
  distTo n vs (x.1, { x.2 with sys := { x.2.sys with distLeft := vs } })

/-- Workers whose source waited for a bank under test are sent theirs. -/
def distResume (n : Nv) (x : Mem × Dev) : Mem × Dev :=
  if x.2.sys.distHold = [] then x
  else distTo n x.2.sys.distHold (x.1, { x.2 with sys := { x.2.sys with distHold := [] } })

/-- The pass is over when every worker has been heard of: another round, or the end. -/
def distJudge (n : Nv) (x : Mem × Dev) : Mem × Dev :=
  let (m, d) := x
  if d.sys.distLeft ≠ [] then x
  else if d.distFailing = [] then (m, (if d.distState = dGo then d.tplGo n m else d).distEnd 0)
  else if d.distRound = 3 then
    let d := d.distFailing.foldl (fun (d : Dev) v => d.orBits (R.TRK_DIST_FAIL_LO + 4 * (v / 32)) (2 ^ (v % 32))) d
    (m, d.distEnd 2)
  else
    let d := d.setF R.TRK_DIST_STATUS 4 2 (d.distRound + 1)
    let d : Dev := { d with sys := { d.sys with distOut := [], distWait := [], distHold := [] } }
    distSend n d.distFailing (m, d)

/-- Begin a command: none while another runs, and none off the manager. -/
def distBegin (n : Nv) (cmd : Nat) (x : Mem × Dev) : Mem × Dev :=
  let (m, d) := x
  if !d.isManager ∨ d.distState ≠ 0 then x
  else
    let d := ((d.wr R.TRK_DIST_STATUS 0).resetRegs R.TRK_DIST_ACK_LO (R.TRK_DIST_FAIL_HI + 4))
    if !d.formed then (m, d.distEnd 1)
    else
      let d := d.setF R.TRK_DIST_STATUS 0 3 cmd
      let vs := d.distWorkers
      if cmd = dGo ∧ vs ≠ [] then
        (m, vs.foldl (fun (d : Dev) v => d.distTrack n v sRd R.TPL_STATUS [] 1)
          { d with sys := { d.sys with distLeft := vs } })
      else distJudge n (distSend n vs (m, d))

/-- DIST_PLAN. -/
def execDistPlan (s : State) : Host.Outcome State Fault Refusal := onMem (fun n x => distBegin n dPlan x) s

/-- DIST_FIRMWARE. -/
def execDistFirmware (s : State) : Host.Outcome State Fault Refusal := onMem (fun n x => distBegin n dFirmware x) s

/-- DIST_GO. -/
def execDistGo (s : State) : Host.Outcome State Fault Refusal := onMem (fun n x => distBegin n dGo x) s

/-- The messages that wait on a lane, each by its link units; the first may be the rest of one that is on its way. -/
def waitingMsgs : List Lu → List (List Lu)
  | [] => []
  | u :: us => match waitingMsgs us with
    | [] => [[u]]
    | g :: gs => if g.head?.any Lu.first then [u] :: g :: gs else (u :: g) :: gs

/-- A waiting message is one of the distribution engine: an access from this device that no master has out. -/
def Dev.distOwn (d : Dev) (us : List Lu) : Bool :=
  let x := SMsg.ofBytes (us.map Lu.payload).flatten
  us.head?.any Lu.first && (x.kind == sRd || x.kind == sWr) && x.sdev == d.device
    && !masters.any (fun m => (d.ra m).any (fun r => r.tag == x.tag))

/-- CANCEL stops what has not been sent: requests of Freight, and messages that no link has begun to send. -/
def Dev.distCancel (d : Dev) : Dev :=
  if !d.isManager ∨ d.distState = 0 then d
  else
    let d := (List.range 8).foldl (fun (d : Dev) k => d.updTrunk k (fun x => { x with
      wait := x.wait.set noLus 3 (((waitingMsgs (x.wait.get noLus 3)).filter (fun us => !d.distOwn us)).flatten) })) d
    (d.disown (fun r => match r.owner with | .dist _ => true | _ => false)).distEnd 4

/-- DIST_CANCEL. -/
def execDistCancel (s : State) : Host.Outcome State Fault Refusal := onDev (fun _ _ d => d.distCancel) s

/-- What a worker came to in this pass: whether it acknowledged. -/
def distHeard (n : Nv) (v : Nat) (ok : Bool) (x : Mem × Dev) : Mem × Dev :=
  let (m, d) := x
  if d.distState = 0 ∨ !d.sys.distLeft.contains v then x
  else if d.distState = dGo ∧ d.sys.distOut ≠ [] then (m, if ok then d else d.distEnd 3)
  else
    let d := if ok then d.orBits (R.TRK_DIST_ACK_LO + 4 * (v / 32)) (2 ^ (v % 32)) else d
    distJudge n (m, { d with sys := { d.sys with distLeft := d.sys.distLeft.filter (· != v) } })

/-- DIST_WORKER_ACK. -/
def execDistWorkerAck (d : Fin 64) (ok : Bool) (s : State) : Host.Outcome State Fault Refusal :=
  onMem (fun n x => distHeard n d ok x) s

/-- A RSP to the engine: a refused chunk goes again up to three times; a state that is not LOADED refuses GO. -/
def distRsp (n : Nv) (x : SMsg) (y : Mem × Dev) : Mem × Dev :=
  let (m, d) := y
  match d.sys.distOut.find? (fun q => q.1 == x.tag && q.2.1 == x.sdev) with
  | none => y
  | some (tag, v, a, payload, times) =>
    let d : Dev := { d with sys := { d.sys with distOut := d.sys.distOut.filter (fun q => q.1 != tag) } }
    if payload ≠ [] then
      (m, if x.status ≠ 0 ∧ times < 4 then d.distTrack n v sWr a payload (times + 1) else d)
    else if x.status ≠ 0 ∨ fld (recWord x.payload 0) 0 4 ≠ tLoaded then (m, d.distEnd 3)
    else
      let d : Dev := { d with sys := { d.sys with distSeen := d.sys.distSeen ++ [v] } }
      if d.sys.distOut = [] then distSend n d.distWorkers (m, d) else (m, d)

/-! ### Freight that the engine sent has ended -/

/-- Workers whose image has gone over whole are told to LOAD. -/
def Dev.distAdvance (d : Dev) (n : Nv) : Dev :=
  let busy := fun (v : Nat) => d.fwait.any (fun r => r.owner == .dist v) || d.txns.any (fun t => t.req.owner == .dist v)
  let go := d.sys.distWait.filter (fun v => !busy v)
  let d : Dev := { d with sys := { d.sys with distWait := d.sys.distWait.filter (fun v => !go.contains v) } }
  go.foldl (fun (d : Dev) v => d.distLoad n v) d

/-- A packet that arrives, and what its transaction's end sets going. -/
def arrivePacket (n : Nv) (i : Nat) (err : PacketError) (x : Mem × Dev) : Mem × Dev :=
  let y := arrive1 n i err.hchkBad err.crcBad x
  (y.1, y.2.distAdvance n)

/-- TIMEOUT of a transaction, and what its end sets going. -/
def freightTimeout (n : Nv) (ep txn : Nat) (x : Mem × Dev) : Mem × Dev :=
  match x.2.txns.find? (fun y => y.req.ep == ep && y.txn == txn) with
  | some y =>
    let z := afterFreight n (x.2.timeoutTxn n x.1 y)
    (z.1, z.2.distAdvance n)
  | none => x

end Sys2Proof.Machine
end

