-- ==== Sys2Proof/Machine/Reset.lean ====
section
/-! DEFINITION. Resets of the device (R363 to R368), and power (R427). -/

namespace Sys2Proof.Machine

/-! ### What COLD and WARM leave (R363, R364, R371) -/

/-- The fields that FUSE_CRC covers (Table 17-6), as bytes in the order of the table; an entry of DEFECT takes two, VALID above PY
above PX (log entry 52). -/
def Nv.fuseBytes (n : Nv) : List Byte :=
  let defect := fun (i : Nat) => match n.defects[i]? with
    | some q => 4096 + q.2 % 64 * 64 + q.1 % 64
    | none => 0
  leBytes 2 n.order ++ leBytes 2 n.grid.toNat ++ leBytes 3 n.chanEn.toNat ++ leBytes 1 n.trkEn.toNat ++ leBytes 8 n.serial.toNat
    ++ ((List.range 32).map (fun i => leBytes 2 (defect i))).flatten ++ n.sramRepair
    ++ ((List.range 64).map (fun k => leBytes 2 (n.hsmRef.getD k 0).toNat)).flatten
    ++ ((List.range 4).map (fun r => leBytes 2 (n.tokBudget.getD r 0).toNat)).flatten
    ++ leBytes 1 (if n.auto then 1 else 0) ++ leBytes 32 n.rootHash.toNat ++ leBytes 32 n.devSeed.toNat

/-- FUSE_CRC agrees with the fields it covers; stage 0 checks it (R369). -/
def Nv.fuseCrcOk (n : Nv) : Bool := crc32c n.fuseBytes == n.fuseCrc

/-- The clock branches of an island whose units are enabled (R335): a fused-off unit's bits read as 0. -/
def Nv.branches (n : Nv) (i : Nat) : Nat :=
  match i with
  | 1 => maskOf n.streamerList + 2 ^ 12
  | 2 => n.trkEn.toNat
  | _ => 0xFFFF

/-- Registers that stage 0 shadows from the fuses (Table 17-6, Table 17-7), and those that follow from them. -/
def Nv.fused (n : Nv) : PMap Word :=
  let put := fun (m : PMap Word) (a v : Nat) => m.set regDflt a (w32 v)
  let m := put [] R.SYS_ORDER n.order
  let m := put m R.SYS_GRID n.grid.toNat
  let m := put m R.SYS_CHAN_EN n.chanEn.toNat
  let m := put m R.SYS_TRK_EN (n.trkEn.toNat)
  let m := put m R.SYS_SERIAL_LO n.serial.toNat
  let m := put m R.SYS_SERIAL_HI (n.serial.toNat / 2 ^ 32)
  let m := put m R.SYS_BRING_STATUS (if n.auto then 2 ^ 31 else 0)
  let m := (n.defects.take 32).zipIdx.foldl (fun (m : PMap Word) (q, i) =>
    put m (R.SYS_CENSUS_BAD + 4 * i) (2 ^ 31 + q.2 % 64 * 256 + q.1 % 64)) m
  let m := (List.range 64).foldl (fun (m : PMap Word) k => put m (R.CLK_HSM + 4 * k) ((n.hsmRef.getD k 0).toNat * 65536)) m
  let m := (List.range 4).foldl (fun (m : PMap Word) r => put m (R.PWR_TOK_BUDGET + 4 * r) (n.tokBudget.getD r 0).toNat) m
  let m := put m R.STM_ENABLED (maskOf n.streamerList)
  [1, 2].foldl (fun (m : PMap Word) i =>
    let a := R.CLK_EN_RUN + 4 * i
    m.set regDflt a (regDflt a &&& w32 (n.branches i))) m

/-- The device as a COLD reset leaves it: what lies outside it goes on. -/
def Dev.fresh (d : Dev) (n : Nv) : Dev :=
  { Dev.init with
    regs := n.fused, fwu := { Fwu.init with custHash := n.custHash }, irq := { Irq.init with pinOut := d.pins },
    boot := { Boot.init with started := d.sbclk }, compl := d.compl, jtag := d.jtag, pins := d.pins, smbUse := d.smbUse, sbclk := d.sbclk,
    powered := d.powered, fwdClk := d.fwdClk, now := d.now, freeCtr := d.freeCtr }

/-- SOURCE of SYS_RST_STATUS. -/
def sourceCode : ResetSource → Nat
  | .powerUp => 0 | .sideband => 1 | .transport => 2 | .sb0 => 3 | .smbus => 4 | .jtag => 5

/-- GDDR6 training runs: stage 6, or a rerun of it. -/
def Dev.trainingNow (d : Dev) : Bool := bit (d.rd R.SYS_BOOT_STAGE) 28 && d.f R.SYS_BOOT_STAGE 0 4 == 6

/-- A Track Plan command is in progress: a drain that has met its limit or a CANCEL is none (R45, R49). -/
def Dev.tplBusy (d : Dev) : Bool :=
  let st := d.tplState
  st == 1 || st == 2 || st == 7 || ((st == 5 || st == 8) && !d.tpl.limitHit)

/-- The operations in progress, as bits of SYS_RST_OPS (R368). -/
def Dev.opsNow (d : Dev) : Nat :=
  let prj := (List.range 4).any (fun u => d.prjIsLoading u || (d.prj u).queue != [])
  let walks := d.streamers.any (fun q => q.2.walks.any (fun w => w.2.isSome))
  maskOf (((List.range 10).zip [d.tplBusy, d.qntState != 0, prj, d.mbt.isSome,
    d.sdma != [], d.link.jobs != [], walks, d.trainingNow, d.fwuState != 0 && d.fwuState != 5, bit (d.rd R.PWR_STATE) 28]).filterMap
      (fun q => if q.2 then some q.1 else none))

/-- LAST, SOURCE, SYS_RST_OPS and SYS_RST_QNT of a reset of a kind. -/
def Dev.rstNote (d : Dev) (kind source ops qnt : Nat) : Dev :=
  (((d.setF R.SYS_RST_STATUS 24 3 kind).setF R.SYS_RST_STATUS 20 4 source).wr R.SYS_RST_OPS (w32 ops)).wr R.SYS_RST_QNT (w32 qnt)

/-- A COLD reset. -/
def coldReset (n : Nv) (source : Nat) (x : Mem × Dev) : Mem × Dev :=
  let ops := x.2.opsNow
  let qnt := (x.2.rd R.QNT_PROGRESS).toNat
  let (m, d) := gddrLose x
  (m, (d.fresh n).rstNote 1 source ops qnt)

/-- A COLD reset at the rise of VDD_AON: nothing was in progress. -/
def powerUp (n : Nv) (x : Mem × Dev) : Mem × Dev :=
  let (m, d) := gddrLose x
  (m, { d with powered := true }.fresh n)

/-- What a WARM reset keeps: SYS_RST_STATUS but BUSY, AUTO, the report of stage 0, TRIPPED, the sideband's own registers, and
a COLD reset that is due. -/
def warmReset (n : Nv) (source : Nat) (x : Mem × Dev) : Mem × Dev :=
  let ops := x.2.opsNow
  let qnt := (x.2.rd R.QNT_PROGRESS).toNat
  let (m, d) := gddrLose x
  let f := d.fresh n
  let f := (f.wr R.SYS_RST_STATUS (d.rd R.SYS_RST_STATUS)).andNot R.SYS_RST_STATUS (2 ^ 31)
  let f := (f.setF R.SYS_BRING_STATUS 30 1 (d.f R.SYS_BRING_STATUS 30 1)).wr R.SYS_BOOT_REPORT (d.rd R.SYS_BOOT_REPORT)
  let f := f.setF R.PWR_STATE 29 1 (d.f R.PWR_STATE 29 1)
  let f := ((f.wr R.SYS_BOOT_STAGE (w32 (2 ^ 28 + 1))).wr (R.SYS_BOOT_REPORT + 4) (w32 (2 ^ 30))).bootCore
  let own := fun (k : Nat) => decide (mkey .sideband 0x10000 ≤ k ∧ k < mkey .sideband 0x10010)
  let due := match d.rst.due with | some (t, 1, s) => some (t, 1, s) | _ => none
  (m, { f.rstNote 2 source ops qnt with
    boot := { f.boot with repairs := d.boot.repairs },
    mregs := d.mregs.filter (fun q => own q.1), rst := { Rst.init with due := due } })

/-! ### Requests (R364) -/

/-- The kind of the reset in progress or accepted, 5 for none; a stronger one has a lower number.  What the FWU block will request
(R386) is not accepted yet. -/
def Dev.rstNow (d : Dev) : Nat :=
  match d.rst.due with
  | some (_, k, .transport) => k
  | _ => if d.resetting then d.rst.kind else 5

/-- A request is refused. -/
def Dev.rstRefuse (d : Dev) (why : Nat) : Dev := (d.orBits R.SYS_RST_STATUS (2 ^ 29)).setF R.SYS_RST_STATUS 8 8 why

/-- Why a request of a kind is refused, 0 if it is not. -/
def Dev.rstWhy (d : Dev) (kind : Nat) : Nat :=
  if d.rstNow ≤ kind then 7
  else if kind = 2 ∧ bit (d.rd R.PWR_STATE) 29 then 6
  else if 3 ≤ kind ∧ (!d.bootReady ∨ (bit (d.rd R.SYS_BOOT_STAGE) 28 ∧ d.f R.SYS_BOOT_STAGE 0 4 = 4)) then 1
  else 0

/-- A COLD or WARM request: one from the transport is carried out 10 µs later. -/
def strongReset (n : Nv) (kind : Nat) (src : ResetSource) (x : Mem × Dev) : Mem × Dev :=
  let (m, d) := x
  let why := d.rstWhy kind
  if why ≠ 0 then (m, d.rstRefuse why)
  else if src = .transport then (m, { d with rst := { d.rst with due := some (d.now + 1000, kind, src) } })
  else if kind = 1 then coldReset n (sourceCode src) x
  else warmReset n (sourceCode src) x

/-- A command that needs the rails, but not SBCLK. -/
def onPower (f : Nv → Mem × Dev → Mem × Dev) (s : State) : Host.Outcome State Fault Refusal :=
  if s.dev.powered then
    let r := f s.nv (s.mem, s.dev)
    .next { s with mem := r.1, dev := r.2.settle }
  else .next s

/-- RESET_COLD. -/
def execResetCold (src : ResetSource) (s : State) : Host.Outcome State Fault Refusal := onPower (fun n x => strongReset n 1 src x) s

/-- RESET_WARM. -/
def execResetWarm (src : ResetSource) (s : State) : Host.Outcome State Fault Refusal := onPower (fun n x => strongReset n 2 src x) s

/-! ### What the host waits for (R250) -/

/-- The mesh positions of a section. -/
def Section.positions (s : Section) : List Nat :=
  ((List.range s.height).map (fun j => (List.range s.width).map (fun i => posOf (s.x0 + i) (s.y0 + j)))).flatten

/-- The stations of a window: a rank, or a section of the live or loaded plan. -/
def Dev.windowStations (d : Dev) (n : Nv) (w : Nat) : Option (List Nat) :=
  if w < 2304 then (d.posOfRank w).bind (fun p => if n.enabled p then some [p] else none)
  else (d.tpl.plan.bind (fun p => p.section? w)).map (fun s => s.positions.filter n.enabled)

/-- Whether an address belongs to a unit that the COMPUTE or SECTION reset in progress resets. -/
def Dev.underReset (d : Dev) (n : Nv) (a : Nat) : Bool :=
  if !d.resetting then false
  else if d.rst.kind = 4 then
    decide (stationBase ≤ a ∧ a < 0x300000000)
      && ((d.windowStations n ((a - stationBase) / 2 ^ 20)).getD []).any d.rst.stations.contains
  else
    decide (stationBase ≤ a ∧ a < 0x400000000) || decide (gddrBase ≤ a) || decide (0x1000A0000 ≤ a ∧ a < 0x1000C0000)
      || decide (0x1000E0000 ≤ a ∧ a < 0x1000F0000) || decide (0x100094000 ≤ a ∧ a < 0x100096100)
      || decide (0x100098000 ≤ a ∧ a < 0x1000A0000)

/-- The address of a word access that Freight carries out. -/
def Dev.wordAddr (d : Dev) (id : Nat) : Option Nat :=
  ((d.txns.map (fun t => t.req) ++ d.fwait).find? (fun r => r.owner == .word id)).map (fun r => r.addr)

/-- A word access that answers a request of class C: not a block request of class B. -/
def WordAcc.classC (x : WordAcc) : Bool :=
  x.host.isSome && (match x.bank with | some (.range _ _ _) => false | _ => true)

/-- Units of class B credit that a block request at a Depot range holds. -/
def DepotOp.units : DepotOp → Nat
  | .range _ _ (some bs) => (bs.length + 15) / 16
  | _ => 1

/-- Every request of class B that has not completed is answered with RESET as a COMPUTE or SECTION reset begins; what Freight still
carries of it goes to its own end. -/
def Dev.resetsB (d : Dev) : Dev :=
  let waits := fun (x : WordAcc) => x.host.isSome && !x.classC && x.ended.isNone
  let d := d.link.jobs.foldl (fun (d : Dev) j => (d.nack j.seq cReset 0).raise 1 j.units) d
  let d := (d.words.filter waits).foldl (fun (d : Dev) x => match x.host, x.bank with
    | some (seq, _), some op => (d.nack seq cReset 0).raise 1 op.units
    | _, _ => d) d
  { d.disown (fun r => match r.owner with | .host _ => true | _ => false) with
    link := { d.link with jobs := [] }, words := d.words.filter (fun x => !waits x) }

/-- Requests of class C to units under reset, those that wait and the one in progress, are answered with RESET as the reset
begins. -/
def Dev.resetsC (d : Dev) (n : Nv) : Dev :=
  let (hit, rest) := d.link.waitC.partition (fun q => decide (q.1 < 2) && d.underReset n q.2.addr)
  let d : Dev := { d with link := { d.link with waitC := rest } }
  let d := hit.foldl (fun (d : Dev) q => (d.nack q.2.seq.toNat cReset 0).raise 0 (unitsOf q.2)) d
  let ws := d.words.filter (fun x => x.host.isSome && (d.wordAddr x.id).any (d.underReset n))
  ws.foldl (fun (d : Dev) x =>
    let d := d.withdraw n x.id
    { d with words := d.words.filter (fun y => y.id != x.id) }.nack (x.host.getD (0, false)).1 cReset 0) d

/-! ### Stations (R365, R366) -/

/-- Modulators stand at zero (R112). -/
def Dev.modsZero (d : Dev) (p : Nat) : Dev :=
  (List.range 16).foldl (fun (d : Dev) m =>
    ((d.setSW p (R.STN_MOD_VALUE + 16 * m) 0).setSW p (R.STN_MOD_PEND + 16 * m) 0).updSW p (R.STN_MOD_T + 16 * m)
      (fun w => setFld w 16 2 0)) d

/-- A station is reset: its memories, tables, directory and seeds stay; the copies in its Junction are cleared (R167). -/
def Dev.stationReset (d : Dev) (p : Nat) : Dev :=
  let d := (d.clearAllPre p).modsZero p
  let d := d.updStn p (fun x => { x with emit := [], arb := [], mods := [], samples := [], bufs := [] })
  ((d.stationRegs p).rebuildOcc p).seedStation p

/-- Records that wait in the output store are discarded (R250). -/
def Dev.dropRecords (d : Dev) : Dev :=
  d.rings.foldl (fun (d : Dev) q =>
    if q.2.waiting = [] then d
    else ((d.ringDrop q.1 q.2.waiting.length).setRing q.1 { (d.ringDrop q.1 q.2.waiting.length).ring q.1 with waiting := [] }).andNot
      (ringState q.1) (2 ^ 30)) d

/-! ### COMPUTE (R365) -/

/-- A transaction or request that survives a COMPUTE reset and ends at TIMEOUT (R207), one of the Signal Box too that nobody waits
for. -/
def FReq.survives (r : FReq) : Bool := match r.owner with
  | .sdma _ | .core _ _ | .word _ | .dist _ => true
  | .gone => r.ep == epSdma
  | _ => false

/-- The data path of the Interchange, the quantiser, the projection units and the streamers. -/
def Dev.pathReset (d : Dev) : Dev :=
  let d := (d.xchRegs.encDecReset.resetRegs R.XCH_LINK_CTRL (R.XCH_TP_ERR + 4)).resetRegs 0x1000A0000 0x1000B0000
  let d := (List.range 12).foldl (fun (d : Dev) s =>
    ((d.resetRegs (R.STM_CONSIST_BASE + 0x100 * s) (R.STM_FRT_CFG + 0x100 * s)).resetRegs (R.STM_FRT_RESEND + 0x100 * s)
      (R.STM_CONSIST_BASE + 0x100 * (s + 1)))) d
  let d := (List.range 17 ++ [rqLoader]).foldl (fun (d : Dev) q => d.tokStop q) d
  { d.wr R.QNT_RNG d.tpl.qSeed with
    edgeBuf := [], notices := [], packets := [], txns := d.txns.filter (fun t => t.req.survives),
    fwait := d.fwait.filter FReq.survives, frtTurn := 0, streamers := [], qnt := Qnt.init, prjs := [],
    sdma := d.sdma.map (fun (q : SdmaDesc) => if q.started then q else { q with started := true, left := 0, result := 3 }) }

/-- The loader is in NO_PLAN; a command in progress has ended with REASON 0x0A (R44, R47). -/
def Dev.loaderReset (d : Dev) (n : Nv) : Dev :=
  let st := d.tplState
  let busy := d.tplBusy
  let d := if st = 1 ∨ st = 2 ∨ st = 7 then d.loadFail n 0x0A else d
  let d := { d.clearLive n with worlds := [] }.resetRegs R.TPL_CTRL (R.TPL_CTRL + 0x1000)
  { (d.wr R.TPL_STATUS (if busy then 0x00030A00#32 else 0)).resetRegs R.SEC_M_PLAN (R.SEC_M_PLAN + 32) with
    tpl := { d.tpl with limitHit := false } }

/-- A march run of stations or edge tables ends (R289). -/
def marchReset (x : Mem × Dev) : Mem × Dev :=
  match x.2.mbt with
  | some r =>
    if r.target = 2 then x
    else
      if x.2.mbtState < 3 then (x.1, x.2.mbtEnd 5)
      else
        let y := r.units.foldl (fun y u => unitOpen r.target u y) x
        (y.1, (y.2.mbtResults r).mbtEnd 5)
  | none => x

/-- A power-state entry that a reset meets is refused (Table 17-5). -/
def Dev.entryEnds (d : Dev) : Dev :=
  if bit (d.rd R.PWR_STATE) 28 then (d.andNot R.PWR_STATE (2 ^ 28)).setF R.PWR_STATE 8 8 3 else d

/-- The COMPUTE reset begins: BUSY until RESET_DONE. -/
def computeBegin (n : Nv) (source : Nat) (x : Mem × Dev) : Mem × Dev :=
  let march := match x.2.mbt with | some r => r.target != 2 | none => false
  let ops := x.2.opsNow &&& (0x277 + if march then 8 else 0)
  let qnt := (x.2.rd R.QNT_PROGRESS).toNat
  let (m, d) := marchReset (x.1, x.2.resetsB.dropRecords)
  let d := n.positions.foldl (fun (d : Dev) p => d.stationReset p) d
  -- stations that only pass copies on are emptied too
  let d := (List.range 2304).foldl (fun (d : Dev) p => if n.enabled p then d else d.updStn p (fun s => { s with bufs := [] })) d
  let d := (d.pathReset.loaderReset n).levelsFollow
  let d := (d.entryEnds.rstNote 3 source ops qnt).orBits R.SYS_RST_STATUS (2 ^ 31)
  (m, ({ d with rst := { d.rst with kind := 3, stations := n.positions, waiting := false } } : Dev).resetsC n)

/-- RESET_COMPUTE; during a rerun of stage 6 it waits with BUSY set (R364). -/
def computeRequest (n : Nv) (src : ResetSource) (x : Mem × Dev) : Mem × Dev :=
  let (m, d) := x
  let why := d.rstWhy 3
  if why ≠ 0 then (m, d.rstRefuse why)
  else if d.trainingNow then
    (m, { (d.orBits R.SYS_RST_STATUS (2 ^ 31)).setF R.SYS_RST_STATUS 20 4 (sourceCode src) with
      rst := { d.rst with kind := 3, stations := [], waiting := true } })
  else computeBegin n (sourceCode src) x

/-! ### SECTION (R366) -/

/-- Whether a station serves a world that is live and not held. -/
def Dev.servesActive (d : Dev) (p : Nat) : Bool := (List.range 16).any (fun m => (d.slotWorld p m).any d.active)

/-- Why a SECTION request is refused, with the stations it would reset. -/
def Dev.sectionWhy (d : Dev) (n : Nv) (w : Nat) : Nat × List Nat :=
  let why := d.rstWhy 4
  if why ≠ 0 then (why, [])
  else match d.windowStations n w with
    | none => (2, [])
    | some ps =>
      if ps.any d.servesActive then (3, ps)
      else if !([tNoPlan, tLoaded, tLive, tDrained].contains d.tplState) then (4, ps)
      else if ps.any d.stnTested then (5, ps)
      else (0, ps)

/-- Writes that wait in a station's row arbiter are answered with NACK code 3 (R207). -/
def Dev.nackArb (d : Dev) (n : Nv) (p : Nat) : Dev :=
  (d.stn p).arb.foldl (fun (d : Dev) r =>
    match r, d.rankOf p with
    | .write _ _ (some y), some k => d.respond n (some p) k y pNack 3 []
    | .page _ _ y, some k => d.respond n (some p) k y pNack 3 []
    | _, _ => d) d

/-- The transactions that reach a station of a list. -/
def Dev.reaches (d : Dev) (ps : List Nat) (r : FReq) : Bool := (d.posOfRank r.dst).any ps.contains

/-- The SECTION reset begins. -/
def Dev.sectionBegin (d : Dev) (n : Nv) (source : Nat) (ps : List Nat) : Dev :=
  let hit := fun (f : Owner → Bool) => d.txns.any (fun t => f t.req.owner && d.reaches ps t.req)
  let ops := (if hit (fun o => match o with | .sdma _ => true | _ => false) then 16 else 0)
    + (if hit (fun o => match o with | .host _ => true | _ => false) then 32 else 0)
    + (if bit (d.rd R.PWR_STATE) 28 then 512 else 0)
  let qnt := (d.rd R.QNT_PROGRESS).toNat
  let d := ps.foldl (fun (d : Dev) p => (d.nackArb n p).stationReset p) d.resetsB.dropRecords
  let d := (d.entryEnds.rstNote 4 source ops qnt).orBits R.SYS_RST_STATUS (2 ^ 31)
  ({ d with rst := { d.rst with kind := 4, stations := ps, waiting := false } } : Dev).resetsC n

/-- A request for a SECTION reset. -/
def Dev.sectionRequest (d : Dev) (n : Nv) (src : ResetSource) (w : Nat) : Dev :=
  let q := d.sectionWhy n w
  if q.1 ≠ 0 then d.rstRefuse q.1 else d.sectionBegin n (sourceCode src) q.2

/-! ### The end of a COMPUTE or SECTION reset -/

/-- The loader restores a station of a section: the step of each world slot, STN_SWEEP_EPOCH, and the sweeps to come. -/
def Dev.stationRestore (d : Dev) (p : Nat) : Dev :=
  (List.range 16).foldl (fun (d : Dev) m =>
    match d.slotWorld p m with
    | some w =>
      let x := d.wld w
      if !x.live then d
      else
        let d := (d.updSW p (R.STN_WORLD_STEP + 4 * m) (setFld · 0 16 x.step)).setSW p (R.STN_SWEEP_EPOCH + 4 * m)
          (w32 (x.step / 8192 * 8192))
        d.updStn p (fun s => { s with opened := s.opened.set noOcc m true, sweepDue := s.sweepDue ++ [m] })
    | none => d) d

/-- RESET_DONE. -/
def Dev.resetDone (d : Dev) : Dev :=
  if !d.resetting ∨ d.rst.waiting then d
  else
    let d := if d.rst.kind = 4 then d.rst.stations.foldl (fun (d : Dev) p => d.stationRestore p) d else d
    let d := (d.andNot R.SYS_RST_STATUS (2 ^ 31)).orBits R.SYS_RST_STATUS (2 ^ 30)
    { d with rst := { Rst.init with due := d.rst.due } }.irq1 107

def execResetDone (s : State) : Host.Outcome State Fault Refusal := onDev (fun _ _ d => d.resetDone) s

/-! ### Power and time -/

/-- VDD_AON_RISE: a COLD reset. -/
def execVddAonRise (s : State) : Host.Outcome State Fault Refusal :=
  let r := powerUp s.nv (s.mem, s.dev)
  .next { s with mem := r.1, dev := r.2.settle }

/-- SBCLK_START: the first start after power-up. -/
def execSbclkStart (s : State) : Host.Outcome State Fault Refusal :=
  if s.dev.powered && !s.dev.boot.started then
    .next { s with dev := { s.dev with sbclk := true, boot := { s.dev.boot with started := true } }.settle }
  else .next s

/-- POWER_REMOVED: nothing that is not non-volatile remains. -/
def execPowerRemoved (s : State) : Host.Outcome State Fault Refusal :=
  let r := gddrLose ({ s.mem with depot := [], depotErr := [] }, { s.dev with powered := false, sbclk := false, fwdClk := false })
  .next { s with mem := r.1, dev := ({ r.2.fresh s.nv with compl := [], jtag := Jtag.init } : Dev).settle }

end Sys2Proof.Machine
end

