-- ==== Sys2Proof/Machine/Bringup.lean ====
section
/-! DEFINITION. Bring-up (R354 to R362): stages, their commands and outcomes, census, topology; and the island resets
(R367). -/

namespace Sys2Proof.Machine

/-! ### SYS_BOOT_STAGE and its fellows -/

def Dev.stageFailed (d : Dev) : Bool := bit (d.rd R.SYS_BOOT_STAGE) 30
def Dev.stageWaits (d : Dev) : Bool := bit (d.rd R.SYS_BOOT_STAGE) 29
def bootReport (s : Nat) : Nat := R.SYS_BOOT_REPORT + 4 * s

/-! ### Census (R358 to R360) -/

/-- Unusable physical stations of row `py`, by column. -/
def Dev.badIn (d : Dev) (py : Nat) : List Nat :=
  (List.range 50).filter (fun px => (List.range 64).any (fun i =>
    let v := d.rd (R.SYS_CENSUS_BAD + 4 * i)
    bit v 31 && fld v 8 6 == py && fld v 0 6 == px))

/-- Stage 3 appends an unusable station that is not listed; false when there is no place. -/
def Dev.censusAdd (d : Dev) (q : Nat × Nat) : Dev × Bool :=
  if (d.badIn q.2).contains q.1 then (d, true)
  else match (List.range 64).find? (fun i => !bit (d.rd (R.SYS_CENSUS_BAD + 4 * i)) 31) with
    | some i => (d.wr (R.SYS_CENSUS_BAD + 4 * i) (w32 (2 ^ 31 + 2 ^ 30 + q.2 * 256 + q.1)), true)
    | none => (d, false)

/-- Physical rows that are kept, from north to south. -/
def Dev.keptRows (d : Dev) : List Nat := (List.range 50).filter (fun y => decide ((d.badIn y).length ≤ 2))

/-- The map of stage 8; false when fewer than 48 rows are kept. -/
def Dev.census (d : Dev) (n : Nv) : Dev × Bool :=
  let kept := d.keptRows
  let bad := ((List.range 50).map (fun y => (d.badIn y).length)).sum
  let ok := decide (48 ≤ kept.length)
  let d := d.wr R.SYS_CENSUS (w32 (2 ^ 31 + (if ok then 0 else 2 ^ 30) + bad * 2 ^ 16 + (50 - kept.length) % 16 * 2 ^ 8))
  if !ok then (d, false)
  else
    let d := (kept.take 48).zipIdx.foldl (fun (d : Dev) (py, y) =>
      let b := d.badIn py
      d.wr (R.SYS_CENSUS_ROW + 4 * y) (w32 (2 ^ 31 + py * 2 ^ 24 + b.getD 0 0x3F * 2 ^ 16 + b.getD 1 0x3F * 2 ^ 8))) d
    ({ d with tpl := { d.tpl with ranks := n.defaultRanks } }, true)

/-! ### Topology (R361, R362, R396) -/

/-- The expected record, if there is one, among what Depot memory and the settings hold. -/
def Dev.topoRecord (d : Dev) (n : Nv) (m : Mem) : Option (List Byte) :=
  let src := d.rd R.SYS_TOPO_SRC
  if bit src 31 then some (m.depotBytes (fld src 6 18 * 64) 64)
  else match n.settings (n.bootRec.slot d.fwu.running).region with
    | some (_, _, b) => match settingsRecord 1 b.length (b.drop 32) with
      | some r => if r.length = 64 then some r else none
      | none => none
    | none => none

/-- The expected record is read: from Depot memory under its check bits, where an uncorrectable word leaves no record (R279). -/
def topoRead (n : Nv) (x : Mem × Dev) : Option (List Byte) × (Mem × Dev) :=
  let src := x.2.rd R.SYS_TOPO_SRC
  if bit src 31 then
    let y := depotScan x (fld src 6 18 * 64) 64
    (if y.1 then x.2.topoRecord n x.1 else none, y.2)
  else (x.2.topoRecord n x.1, x)

/-- The expected record lies in a Depot bank under test: reading it waits (R287). -/
def Dev.topoTested (d : Dev) : Bool :=
  let src := d.rd R.SYS_TOPO_SRC
  bit src 31 && d.banksTested (fld src 6 18 * 64) 64

/-- Places of a record whose bytes differ from those expected there. -/
def differ (r : List Byte) (off : Nat) (bs : List Byte) : List Nat :=
  (bs.zipIdx.filter (fun q => r.getD (off + q.2) 0 != q.1)).map (fun q => off + q.2)

/-- Where ROLE, DEVICE or SYS_SIZE conflict with one another or with what the partners said. -/
def Dev.roleConflicts (d : Dev) (r : List Byte) : List Nat :=
  let role := recNat r recRole 1
  let dev := recNat r recDevice 1
  let size := recNat r recSize 1
  let said := (List.range 8).filter (fun k => bit (d.rd (trk R.TRK_STATUS k)) 29)
  (if 2 < role ∨ (role = 0 ∧ size ≠ 1) ∨ (role ≠ 0 ∧ size = 1) then [recRole] else [])
    ++ (if size ≤ dev ∨ (dev = 0 ∧ role = 2) ∨ (dev ≠ 0 ∧ role ≠ 2)
          ∨ said.any (fun k => d.f (trk R.TRK_PEER_ID k) 0 6 == dev) then [recDevice] else [])
    ++ (if size = 0 ∨ 64 < size ∨ said.any (fun k => d.f (trk R.TRK_PEER_ID k) 8 7 != size) then [recSize] else [])

/-- A valid NEIGH entry that its link's partner does not bear out. -/
def Dev.neighDiffers (d : Dev) (r : List Byte) (k : Nat) : List Nat :=
  let (v, l, e) := neigh r k
  if !v then []
  else if !bit (d.rd (trk R.TRK_STATUS k)) 29 then [0x18 + 2 * k]
  else
    let q := d.f (trk R.TRK_PEER_ID k) 0 6
    let j := d.f (trk R.TRK_PEER_LINK k) 0 3
    (if q = e then [] else [0x18 + 2 * k]) ++ (if j = l then [] else [0x19 + 2 * k])

/-- The checks of Table 17-3 but those of the system, in order, with the places that disagree. -/
def Dev.topoChecks (d : Dev) (r : List Byte) : List (Nat × List Nat) :=
  let crc := wordBytes (crc32c (r.take 0x3C))
  let drm := d.rd R.DRM_STATUS
  [(1, differ r 0 (leBytes 4 0x4F504F54 ++ leBytes 2 1) ++ differ r 0x16 [0, 0]
     ++ differ r 0x28 (List.replicate 20 0) ++ differ r 0x3C crc),
   (2, differ r 8 (leBytes 2 (d.f R.SYS_ORDER 0 16) ++ leBytes 1 (d.f R.SYS_GRID 8 8) ++ leBytes 1 (d.f R.SYS_GRID 0 8))),
   (3, differ r 0xC (wordBytes (d.rd R.DRM_TRAINED))),
   (4, (if recNat r 6 1 % 2 = d.f R.DRM_CFG 31 1 then [] else [6])
     ++ differ r 0x10 [BitVec.ofNat 8 (fld drm 8 2), BitVec.ofNat 8 (fld drm 4 2)]),
   (5, differ r 0x12 [d.boot.partner]),
   (6, ((List.range 8).map (d.neighDiffers r)).flatten),
   (7, d.roleConflicts r)]

/-- The CODE of the first check that fails, 0 if none does; the place goes into SYS_TOPO_DETAIL. -/
def Dev.topoCheck (d : Dev) (r : Option (List Byte)) : Nat × Dev :=
  match r with
  | none => (1, d.wr R.SYS_TOPO_DETAIL 0)
  | some r => match (d.topoChecks r).find? (fun q => q.2 != []) with
    | some (c, ofs) => (c, d.wr R.SYS_TOPO_DETAIL (w32 (ofs.headD 0)))
    | none => (0, d)

/-- Stage 7 gives the device its place in the system and sends IDENT on the links that trained. -/
def Dev.joinSystem (d : Dev) (n : Nv) (r : Option (List Byte)) (trained : List Nat) : Dev :=
  let r := r.getD []
  let role := recNat r recRole 1
  let d := ((d.setF R.TRK_SYS 0 7 (recNat r recSize 1 % 128)).setF R.TRK_SYS 16 6 (recNat r recDevice 1 % 64)).setF R.TRK_SYS 29 1
    (if role = 1 then 1 else 0)
  trained.foldl (fun (d : Dev) k => (d.trunkTrained n k).tokenOn n k (d.identToken n k role)) d

/-! ### A stage starts -/

/-- SYS_BOOT_STAGE and the report of a stage that starts. -/
def Dev.stageMark (d : Dev) (s : Nat) : Dev :=
  let d := ({ d with boot := { d.boot with joined := false, topoWait := false, begun := d.now } } : Dev).andNot R.SYS_BOOT_STAGE (2 ^ 30 + 2 ^ 29)
  ((d.orBits R.SYS_BOOT_STAGE (2 ^ 28)).setF R.SYS_BOOT_STAGE 0 4 s).wr (bootReport s) (w32 (2 ^ 30))

/-- A stage or rerun has ended: LAST, its report, and from stage 4 onward STAGE_EVT with source 107. -/
def Dev.stageOver (d : Dev) (s code time : Nat) : Dev :=
  let d := (d.setF R.SYS_BRING_STATUS 0 4 s).wr (bootReport s)
    (w32 ((if code = 0 then 2 else 3) * 2 ^ 30 + code % 64 * 2 ^ 24 + min time 0xFFFFFF))
  let d := d.andNot R.SYS_BOOT_STAGE (2 ^ 28)
  if 4 ≤ s then (d.orBits R.SYS_BRING_STATUS (2 ^ 28)).irq1 107 else d

/-- A COMPUTE reset that waited for a rerun of stage 6 begins (R364). -/
def releaseCompute (n : Nv) (x : Mem × Dev) : Mem × Dev :=
  if x.2.rst.waiting then computeBegin n (x.2.f R.SYS_RST_STATUS 20 4) x else x

/-- How long the present stage has run, in the 10 µs of TIME (R357), where no report gives it. -/
def Dev.stageTime (d : Dev) : Nat := (d.now - d.boot.begun) / 1000

/-- A stage or rerun fails. -/
def stageFail (n : Nv) (code time : Nat) (x : Mem × Dev) : Mem × Dev :=
  let (m, d) := x
  let s := d.stage
  let d := if s = 6 then d.tokStop rqTrain else d
  let d := (((d.stageOver s code time).orBits R.SYS_BOOT_STAGE (2 ^ 30)).setF R.SYS_BRING_STATUS 8 8 code).alert 2
  releaseCompute n (m, { d with boot := { d.boot with all := false } })

/-- Stage 6 begins: its registers are fresh, DRM_CFG.ECC_EN is read and cannot change from then on (R174), and training needs its
grant (R343, R372). -/
def dramStart (n : Nv) (x : Mem × Dev) : Mem × Dev :=
  let (m, d) := x
  let d := d.resetRegs R.DRM_STATUS (R.DRM_CH_ERR + 96)
  let (d, ok) := ({ d with boot := { d.boot with eccLatched := bit (d.rd R.DRM_CFG) 31 },
                           locked := d.locked.set (fun _ => false) R.DRM_CFG true } : Dev).tokAsk rqTrain
  if ok then (m, d) else stageFail n 3 d.stageTime (m, d)

/-- Stage 9 begins: the expected record is taken, and the manager of a system sends its wave (R411).  It waits for a record in
a bank under test. -/
def topoStart (n : Nv) (x : Mem × Dev) : Mem × Dev :=
  if x.2.topoTested then (x.1, { x.2 with boot := { x.2.boot with topoWait := true } })
  else
  let (r, m, d) := topoRead n x
  let r := r.getD []
  let d : Dev := { d with boot := { d.boot with topoWait := false }, sys := { d.sys with topo := r } }
  (m, if d.isManager ∧ 2 ≤ d.sysSize ∧ (d.topoCheck (some r)).1 = 0 then d.wave n else d)

/-- Stage 4 begins: the sequence of the link before it ends (R237), and the LINK island switches to source 0 (R333). -/
def Dev.linkStart (d : Dev) : Dev :=
  let d := d.linkLost true
  if bit (d.rd R.CLK_SEL) 31 then d else d.setF R.CLK_SEL 0 1 0

/-- Stage `s` starts. -/
def stageStart (n : Nv) (s : Nat) (x : Mem × Dev) : Mem × Dev :=
  let y : Mem × Dev := (x.1, x.2.stageMark s)
  match s with
  | 1 => (y.1, y.2.bootCore)
  | 4 => (y.1, y.2.linkStart)
  | 6 => dramStart n y
  | 9 => topoStart n y
  | _ => y

/-! ### Commands (R355, R356) -/

/-- A command that does not fit. -/
def Dev.bringReject (d : Dev) : Dev := d.orBits R.SYS_BRING_STATUS (2 ^ 29)

/-- NEXT. -/
def bringStep (n : Nv) (x : Mem × Dev) : Mem × Dev :=
  let d := x.2
  if d.resetting ∨ !d.stageWaits then (x.1, d.bringReject) else stageStart n (d.stage + 1) x

def execBringNext (s : State) : Host.Outcome State Fault Refusal := onMem (fun n x => bringStep n x) s

/-- ALL: what remains runs without waiting. -/
def bringRest (n : Nv) (x : Mem × Dev) : Mem × Dev :=
  let (m, d) := x
  if d.resetting ∨ d.bootReady ∨ d.stageFailed then (m, d.bringReject)
  else
    let d : Dev := { d with boot := { d.boot with all := true } }
    if d.stageWaits then stageStart n (d.stage + 1) (m, d) else (m, d)

def execBringAll (s : State) : Host.Outcome State Fault Refusal := onMem (fun n x => bringRest n x) s

/-- RETRY: the failed stage runs again. -/
def bringAgain (n : Nv) (x : Mem × Dev) : Mem × Dev :=
  let d := x.2
  if d.resetting ∨ !d.stageFailed ∨ d.stage < 4 then (x.1, d.bringReject) else stageStart n d.stage x

def execBringRetry (s : State) : Host.Outcome State Fault Refusal := onMem (fun n x => bringAgain n x) s

/-- RERUN of stage 4, 6 or 7 after READY. -/
def bringRepeat (n : Nv) (s : Nat) (x : Mem × Dev) : Mem × Dev :=
  let (m, d) := x
  if d.resetting ∨ !d.bootReady ∨ d.stageRunning ∨ !([4, 6, 7].contains s) then (m, d.bringReject)
  else stageStart n s (m, { d with boot := { d.boot with rerun := some s } })

def execBringRerun (stage : BitVec 4) (s : State) : Host.Outcome State Fault Refusal :=
  onMem (fun n x => bringRepeat n stage.toNat x) s

/-- AUTO written; as 1 while the device waits, it acts as ALL. -/
def autoSet (n : Nv) (v : Bool) (x : Mem × Dev) : Mem × Dev :=
  let d := x.2.setF R.SYS_BRING_STATUS 30 1 (if v then 1 else 0)
  if v ∧ d.stageWaits ∧ !d.resetting then bringRest n (x.1, d) else (x.1, d)

def execAutoWrite (v : Bool) (s : State) : Host.Outcome State Fault Refusal := onMem (fun n x => autoSet n v x) s

/-! ### What each stage comes to (Table 17-1) -/

/-- Stage 2: PLLs locked, so that CLK_MON shows them running (R338), islands on source 1, VDD_FAB at 750 mV; and what each of its
failures leaves: the PLLs that did lock, switches that hang, ERR or DENIED of PWR_VFAB_STATE. -/
def Dev.pllDone (d : Dev) (code : Nat) (r : StageReport) : Dev :=
  let locks := if code = 1 then r.locks.toNat else 15
  let d := d.setF R.CLK_STATUS 0 4 locks
  let d := d.upd R.CLK_MON (fun w => setFld (setFld (setFld w 0 1 1) 2 4 locks) 6 1 (locks % 2))
  if code = 1 then d
  else
    let d := [1, 2, 3].foldl (fun (d : Dev) i =>
      if code = 2 ∧ r.hung.getLsbD (i - 1) then d.clkSequenceHang i else d.clkSequence i) d
    if code = 2 then d
    else if code = 3 then d.vfabFlag (if r.denied then 27 else 30)
    else d.setF R.PWR_VFAB_STATE 0 10 750

/-- The target of a march run that a failing instance belongs to, by its MEM (Table 13-11). -/
def marchTarget (f : MarchFail) : Nat := if f.mem = 8 then 2 else if f.mem = 9 then 3 else 1

/-- Stage 3 runs ALG 0 with REPAIR over every SRAM: its results go into the MBT registers, with the soft repairs it makes
(R288, R290); whether everything outside the stations that has a MEM is repaired. -/
def Dev.sramMarch (d : Dev) (r : StageReport) : Bool × Dev :=
  let d := d.mbtClear.wr R.MBT_TIME (satWord (10 * r.time.toNat))
  r.fails.foldl (fun (a : Bool × Dev) f =>
    let t := marchTarget f
    let (ok, d) := a.2.failNote { target := t, units := [], alg := 0, repair := true, began := 0, stopping := false } f
    if ok then (a.1, d) else (a.1 && t == 1, d.markFail t f.unit.toNat)) (true, d)

/-- Stage 3: unusable stations are recorded; Depot, Blocks and all station memories end at zero, and SB0 starts again. -/
def sramDone (r : StageReport) (x : Mem × Dev) : Nat × (Mem × Dev) :=
  let (good, d) := x.2.sramMarch r
  let (d, ok) := (r.unrepaired.map (fun q => (q.1.toNat, q.2.toNat))).foldl (fun (acc : Dev × Bool) q =>
    let (d, ok) := acc.1.censusAdd q
    (d, acc.2 && ok)) (d, true)
  if !good then (1, (x.1, d))
  else if !ok then (2, (x.1, d))
  else (0, ({ x.1 with depot := [], depotErr := [] },
    { d with stnM := [], stnW := d.stnW.filter (fun q => decide (0x70000 ≤ q.1 % 2 ^ 20)), coreMem := [], edgeTab := [],
             cores := d.cores.set core0 0 { Core.init 0 with running := true },
             regs := d.regs.clear R.BLK_CFG (R.BLK_CFG + 0x100000) }))

/-- Stage 4: the mainband trains, and LINK takes the forwarded clock once CLK_MON shows it beside the safe clock (R330, R338). -/
def Dev.linkDone (d : Dev) (r : StageReport) : Nat × Dev :=
  match d.trainStatus r.train with
  | none => (1, d.wr R.XCH_LINK_STATUS 0)
  | some st =>
    let runs := decide (r.code.toNat ≠ 2)
    let d := { d.setF R.CLK_MON 1 1 (if runs then 1 else 0) with fwdClk := runs }
    if !d.clkConfirmed 0 then (2, d.wr R.XCH_LINK_STATUS 0)
    else (0, { (d.wr R.XCH_LINK_STATUS st).clkSequence 0 with link := Link.init })

/-- Stage 5: a slot is chosen, its settings are read, and the processors are loaded. -/
def firmDone (r : StageReport) (x : Nv × Mem × Dev) : Nat × (Nv × Mem × Dev) :=
  let (n, m, d) := x
  match n.choose with
  | (none, n) => (1, (n, m, d))
  | (some (s, watched), n) =>
    let n := n.startSettings s (Config.freeResult d.freeCtr).toNat r.migrated
    let d : Dev := { d with freeCtr := d.freeCtr + 1 }
    if !n.settingsOk s then (2, (n, m, d)) else (0, (n, m, d.loadImage n s watched))

/-- Stage 6: the channels that were fitted have trained, all alike. -/
def Dev.dramDone (d : Dev) (n : Nv) (r : StageReport) : Nat × Dev :=
  let en := n.chanEn.toNat
  let fitted := en &&& r.chFitted.toNat
  let trained := fitted &&& r.chTrained.toNat
  let d := d.tokStop rqTrain
  if fitted = 0 then (0, d.wr R.DRM_STATUS (w32 (2 ^ 31)))
  else
    let failed := en ^^^ trained
    let den := r.density.toNat
    let mode := r.mode.toNat
    let mixed := decide (den = 0 ∨ den = 3 ∨ mode = 2 ∨ mode = 3)
    let code := if failed ≠ 0 then 1 else if mixed then 2 else 0
    let d := ((d.wr R.DRM_TRAINED (w32 trained)).wr R.DRM_FAILED (w32 failed)).wr R.DRM_STATUS
      (w32 ((if code = 0 then 2 ^ 31 else 2 ^ 30) + (if den = 0 then 3 else den) * 2 ^ 8 + (if 2 ≤ mode then 3 else mode) * 2 ^ 4))
    (code, if failed ≠ 0 then d.irq1 104 else d)

/-- A link is up whose partner has not shown who it is. -/
def Dev.identsDue (d : Dev) (n : Nv) : Bool := (List.range 8).any (fun k => d.trunkUp n k && !bit (d.rd (trk R.TRK_STATUS k)) 29)

/-- Stage 7: links with a partner have trained; once they have, it is over when every identity has come. -/
def Dev.trunkDone (d : Dev) (n : Nv) (rec : Option (List Byte)) (r : StageReport) : Nat × Dev :=
  if d.boot.joined then (if d.identsDue n then 1 else 0, d) else
  let en := n.trkEn.toNat
  let partner := en &&& r.trkPartner.toNat
  let trained := partner &&& r.trkTrained.toNat
  let d : Dev := { d with boot := { d.boot with partner := BitVec.ofNat 8 partner } }
  let d := d.joinSystem n rec (onesBelow 8 trained)
  (if partner = trained then 0 else 1, d)

/-- The code that the physical work of a stage may report by itself. -/
def physical (s code : Nat) : Nat :=
  if (s ≤ 1 ∧ code = 1) ∨ (s = 2 ∧ 1 ≤ code ∧ code ≤ 3) ∨ (s = 3 ∧ code = 1) then code else 0

/-- The work of a stage: its CODE, 0 when it passes. -/
def stageWork (s : Nat) (r : StageReport) (x : Nv × Mem × Dev) : Nat × (Nv × Mem × Dev) :=
  let (n, m, d) := x
  let p := physical s r.code.toNat
  if p ≠ 0 then (p, if s = 2 then (n, m, d.pllDone p r) else if s = 3 then (n, m, (d.sramMarch r).2) else x)
  else match s with
    | 0 => (if n.fuseCrcOk then 0 else 1, (n, m, { d with boot := { d.boot with repairs := n.sramRepair } }))
    | 1 => (0, (n, m, d.deriveKey n))
    | 2 => (0, (n, m, d.pllDone 0 r))
    | 3 => let (c, y) := sramDone r (m, d); (c, (n, y.1, y.2))
    | 4 => let (c, d) := d.linkDone r; (c, (n, m, d))
    | 5 => firmDone r x
    | 6 => let (c, d) := d.dramDone n r; (c, (n, m, d))
    | 7 =>
      if d.boot.joined then let (c, d) := d.trunkDone n none r; (c, (n, m, d))
      else
        let (rec, m, d) := topoRead n (m, d)
        let (c, d) := d.trunkDone n rec r
        (c, (n, m, d))
    | 8 => let (d, ok) := d.census n; (if ok then 0 else 1, (n, m, d))
    | _ =>
      let (c, d) := d.topoCheck (some d.sys.topo)
      (if c ≠ 0 then c else if d.isManager ∧ 2 ≤ d.sysSize ∧ !d.formed then 7 else 0, (n, m, d))

/-- A stage has passed: the next one starts, or the device waits, or it is READY. -/
def stagePass (n : Nv) (time : Nat) (x : Mem × Dev) : Mem × Dev :=
  let (m, d) := x
  let s := d.stage
  let d := d.stageOver s 0 time
  if d.boot.rerun.isSome then releaseCompute n (m, { d with boot := { d.boot with rerun := none } })
  else if s = 9 then (m, (({ d with boot := { d.boot with all := false } } : Dev).orBits R.SYS_BOOT_STAGE (2 ^ 31)).alert 3)
  else
    let auto := decide (s = 3) && (bit (d.rd R.SYS_BRING_STATUS) 31 || bit (d.rd R.SYS_BRING_STATUS) 30)
    let d : Dev := { d with boot := { d.boot with all := d.boot.all || auto } }
    if s < 3 ∨ d.boot.all then stageStart n (s + 1) (m, d) else (m, d.orBits R.SYS_BOOT_STAGE (2 ^ 29))

/-- The end of a stage reads the expected record: stage 7 its own place in the system, and a rerun what it compares with. -/
def Dev.endReadsTopo (d : Dev) : Bool := (d.stage == 7 && !d.boot.joined) || (d.boot.rerun.isSome && d.stage != 4)

/-- A stage cannot end yet: training without its grant, the manager's wave, or an expected record in a Depot bank under test. -/
def Dev.stageBlocked (d : Dev) : Bool :=
  (d.stage == 6 && !d.tok.grants.any (fun q => q.req == rqTrain)) || (d.stage == 9 && (d.sys.forming || d.boot.topoWait))
    || (d.endReadsTopo && d.topoTested)

/-- The record that stage 9 waited for can be read. -/
def topoResume (n : Nv) (x : Mem × Dev) : Mem × Dev :=
  if x.2.boot.topoWait && x.2.stage == 9 && x.2.stageRunning then topoStart n x else x

/-- A rerun of stage 6 or 7 compares what it found with the expected record (R356). -/
def rerunCheck (n : Nv) (x : Mem × Dev) : Nat × (Mem × Dev) :=
  let (r, m, d) := topoRead n x
  let (c, d) := d.topoCheck r
  (c, (m, d))

/-- STAGE_END.  Stage 7 goes on after its links have trained, until their partners have shown who they are. -/
def stageEnds (r : StageReport) (x : Nv × Mem × Dev) : Nv × Mem × Dev :=
  let d := x.2.2
  if !d.stageRunning ∨ d.stageBlocked then x
  else
    let waits := d.stage = 7 ∧ !d.boot.joined
    let (c, (n, m, d)) := stageWork d.stage r x
    if waits ∧ c = 0 ∧ d.identsDue n then (n, m, { d with boot := { d.boot with joined := true } })
    else
    let (c, (m, d)) := if c = 0 ∧ d.boot.rerun.isSome ∧ d.stage ≠ 4 then rerunCheck n (m, d) else (c, (m, d))
    (n, if c = 0 then stagePass n r.time.toNat (m, d) else stageFail n c r.time.toNat (m, d))

/-! ### Island resets (R333, R367) -/

/-- LINK: transport and rings are lost as at a WARM reset. -/
def Dev.linkIsland (d : Dev) : Dev :=
  ((d.linkLost false).resetRegs R.XCH_LINK_STATUS (R.XCH_LINK_STATUS + 0x4000)).resetReg R.CLK_SEL

/-- A walk's consist ends as though CONSIST_END had come, and the world's overrun bit is set; the event of source 65 is R141's
and R149's alone (Table 14-6). -/
def Dev.endConsist (d : Dev) (n : Nv) (s w : Nat) : Dev :=
  if (d.wld w).consist.contains s then
    ((d.updStreamer s (fun y => { y with ends := [w] })).consistEnd n s w).mapSet R.XCH_WLD_OVR_MAP w
  else d

/-- Pages on their way to stations, or waiting in their row arbiters, are not applied. -/
def Dev.dropPages (d : Dev) : Dev :=
  let d := (List.range 2304).foldl (fun (d : Dev) p =>
    if (d.stn p).arb.any RowReq.isPage then d.updStn p (fun s => { s with arb := s.arb.filter (fun r => !r.isPage) }) else d) d
  { d with packets := d.packets.filter (fun k => k.typ != pDeliver) }

/-- DRAM: controllers, training engine and streamers; GDDR6 contents are undefined. -/
def dramIsland (n : Nv) (x : Mem × Dev) : Mem × Dev :=
  let d := n.streamerList.foldl (fun (d : Dev) s => d.liveIds.foldl (fun (d : Dev) w => d.endConsist n s w) d) x.2
  let cfg := d.rd R.DRM_CFG
  let d := (d.resetRegs R.STM_CONSIST_BASE (R.STM_CONSIST_BASE + 0xC00)).resetRegs R.DRM_CFG (R.DRM_CH_ERR + 96)
  let d := (d.wr R.DRM_CFG cfg).resetReg (R.CLK_SEL + 4)
  let d := (List.range 12 ++ [rqTrain]).foldl (fun (d : Dev) q => d.tokStop q) d
  let page := fun (r : FReq) => match r.owner with | .stream _ => true | _ => false
  let d := d.dropPages
  gddrLose (x.1, { d with streamers := [], txns := d.txns.filter (fun t => !page t.req), boot := { d.boot with gdReleased := 0 } })

/-- TRUNK: every link goes down; TRK_SW and TRK_DIST_ENT stay. -/
def Dev.trunkIsland (d : Dev) (n : Nv) : Dev :=
  let d := (List.range 8).foldl (fun (d : Dev) k => if d.trunkHeld n k then d.trunkDown n k else d) d
  let d := (d.resetRegs R.TRK_STATUS R.TRK_DIST_ENT).resetReg (R.CLK_SEL + 8)
  let own := fun (k : Nat) => decide (R.TRK_STATUS ≤ k % 2 ^ 40 ∧ k % 2 ^ 40 < R.TRK_DIST_ENT)
  { d with trunks := [], sys := { Sys.init with topo := d.sys.topo, ra := d.sys.ra, tag := d.sys.tag },
           mregs := d.mregs.filter (fun q => !own q.1) }

/-- ISLAND_RESET: the islands of bits 0 to 2; a stage that runs fails with its lowest CODE. -/
def islandResets (n : Nv) (v : Nat) (x : Mem × Dev) : Mem × Dev :=
  let x : Mem × Dev := if v.testBit 0 then (x.1, x.2.linkIsland) else x
  let x := if v.testBit 1 then dramIsland n x else x
  let x : Mem × Dev := if v.testBit 2 then (x.1, x.2.trunkIsland n) else x
  if v % 8 ≠ 0 ∧ x.2.stageRunning then stageFail n 1 x.2.stageTime x else x

def execIslandReset (v : Word) (s : State) : Host.Outcome State Fault Refusal := onMem (fun n x => islandResets n v.toNat x) s

end Sys2Proof.Machine
end

