-- ==== Sys2Proof/Machine/TokenCmd.lean ====
section
/-! DEFINITION. What a grant or a refusal of the Token Office sets going at its requester (R343 to R346). -/

namespace Sys2Proof.Machine

/-- The requester goes on with its grant. -/
def granted (n : Nv) (q : Nat) (x : Mem × Dev) : Mem × Dev :=
  let (m, d) := x
  if q < 12 then (m, d.updStreamer q (fun y => { y with grant := 2 }))
  else if q = rqQnt then Dev.qntAdvance n (m, d.qntGranted n)
  else if q < 17 then (m, d.setPrj (q - 13) { d.prj (q - 13) with grant := 2 })
  else if q = rqXch then (m, d.xchGranted)
  else if q = rqLoader then loaderGo n x
  else if q = rqTrain then (m, { d with boot := { d.boot with gdReleased := BitVec.ofNat 12 (maskOf n.streamerList) } })
  else if q = rqMarch then (m, d.mbtGranted)
  else if q = rqAvs then (m, { d with vfab := { d.vfab with waiting := false } })
  else x

/-- A grant chance: the fitting request of lowest priority number, the earliest of its class. -/
def tokenTurn (n : Nv) (x : Mem × Dev) : Mem × Dev :=
  match x.2.tokPick with
  | some q => granted n q.req (x.1, x.2.tokGrant q)
  | none => x

/-- TOKEN_GRANT (R344). -/
def execTokenGrant (s : State) : Host.Outcome State Fault Refusal := onMem (fun n x => tokenTurn n x) s

/-- What a refused requester does. -/
def denied (n : Nv) (q : Nat) (x : Mem × Dev) : Mem × Dev :=
  let (m, d) := x
  if q < 12 then (m, d.streamDenied q)
  else if q = rqQnt then (m, d.qntEnd 7)
  else if q < 17 then (m, d.prjDeny (q - 13))
  else if q = rqXch then (m, { d.orBits R.CLK_XCH (2 ^ 31) with xchWant := none })
  else if q = rqLoader then (m, d.loadFail n 8)
  else if q = rqTrain then stageFail n 3 x.2.stageTime x
  else if q = rqMarch then (m, d.mbtEnd 3)
  else if q = rqAvs then (m, d.vfabDenied)
  else x

/-- PWR_TOK_WAIT of its class passes for a request that still waits. -/
def tokenExpire (n : Nv) (q : Nat) (x : Mem × Dev) : Mem × Dev :=
  if x.2.tok.queue.any (fun r => r.req == q) then denied n q (x.1, (x.2.tokWithdraw q).tokRefuse (tokClass q)) else x

/-- TOKEN_WAIT_EXPIRY (R345). -/
def execTokenWaitExpiry (req : Fin 22) (s : State) : Host.Outcome State Fault Refusal := onMem (fun n x => tokenExpire n req x) s

end Sys2Proof.Machine
end

