-- ==== Sys2Proof/Machine/Registers.lean ====
section
/-! DEFINITION. What a read of a register returns and does (R7, R9, R31): registers whose value stands elsewhere in the
state, registers that each master has for itself, and registers that a read changes. -/

namespace Sys2Proof.Machine

/-- The place of an address among `count` registers from `base`, `stride` bytes apart. -/
def place (base stride count a : Nat) : Option Nat :=
  if base ≤ a ∧ (a - base) % stride = 0 ∧ (a - base) / stride < count then some ((a - base) / stride) else none

/-- A word with the bits of a list set. -/
def flags (l : List (Nat × Bool)) : Word := w32 (maskOf ((l.filter (·.2)).map (·.1)))

/-! ### Registers of each master (R31, R149, R171, R284, R315, R408) -/

/-- The registers that each master has for itself and that a plain write stores and a plain read returns. -/
def ownReg (a : Nat) : Bool :=
  a == R.XCH_WLD_SEL || a == R.XCH_EDGE_SEL || a == R.IRQ_STN_SEL || (place R.XCH_EDGE_DATA 4 3 a).isSome
    || a == R.TRK_RA_DEV || a == R.TRK_RA_ADDR_LO || a == R.TRK_RA_ADDR_HI || a == R.TRK_SDMA_DEV
    || (place R.XCH_SDMA_D 4 3 a).isSome

/-- The Signal DMA's registers, which masters 0 to 7 alone have: for any other they read as zero and ignore writes (R282). -/
def sdmaReg (a : Nat) : Bool := decide (R.XCH_SDMA_D ≤ a ∧ a ≤ R.XCH_SDMA_QUEUED)

/-- Own registers that a command of their own writes. -/
def ownRead (a : Nat) : Bool :=
  ownReg a || a == R.XCH_EDGE_IDX || a == R.XCH_EDGE_DATA + 12 || a == R.XCH_SDMA_D + 12 || a == R.XCH_SDMA_LAST

/-! ### Values that stand elsewhere -/

/-- SYS_SB_CTRL, SYS_SB_STATE and SYS_SB_PC (Table 13-3); that of SB0 always shows RUN, and a core held in reset has no
program counter to show but the Reset value. -/
def Dev.sbCtrlWord (d : Dev) (n : Nat) : Word := flags [(31, n == 0 || (d.core n).running)]
def Dev.sbStateWord (d : Dev) (n : Nat) : Word :=
  let c := d.core n
  d.rd (R.SYS_SB_STATE + 4 * n) |||
    flags [(31, c.running), (30, c.wfi), (29, c.verified), (28, c.verifyFail), (27, c.halted)]

def Dev.sysValue (d : Dev) (a : Nat) : Word :=
  match place R.SYS_SB_CTRL 4 8 a, place R.SYS_SB_STATE 4 8 a, place R.SYS_SB_PC 4 8 a with
  | some n, _, _ => d.sbCtrlWord n
  | _, some n, _ => d.sbStateWord n
  | _, _, some n => if (d.core n).running then (d.core n).pc else 0
  | _, _, _ => d.rd a

/-- IRQ_STN_MAP[i] of a kind: bit r mod 32 is what the station of rank r has reported (R309). -/
def Dev.stnMapWord (d : Dev) (kind i : Nat) : Word :=
  flags ((List.range 32).map (fun b => (b, decide (kind < 6) &&
    (d.posOfRank (32 * i + b)).any (fun p => d.irq.stnMap.get (fun _ => false) (kind * 4096 + p)))))

/-- IRQ_CLAIM[t]. -/
def Dev.claimWord (d : Dev) (t : Nat) : Word :=
  match (List.range 256).find? (fun k => (d.irq.dset t).getLsbD k) with
  | some k => w32 (2 ^ 31 + k)
  | none => 0

def Dev.irqValue (d : Dev) (m : Master) (a : Nat) : Word :=
  match place R.IRQ_PEND 4 24 a with
  | some i => wordOf256 d.pendNow (i % 8)
  | none =>
    let en := fun (i : Nat) => wordOf256 (d.irq.en.get zero256 (i / 8)) (i % 8)
    match place R.IRQ_EN 4 72 a, place R.IRQ_EN_SET 4 72 a, place R.IRQ_EN_CLR 4 72 a with
    | some i, _, _ => en i
    | _, some i, _ => en i
    | _, _, some i => en i
    | _, _, _ =>
      match place R.IRQ_CLAIM 4 9 a, place R.IRQ_STN_MAP 4 72 a with
      | some t, _ => d.claimWord t
      | _, some i => d.stnMapWord (fld (d.mrd m R.IRQ_STN_SEL) 0 3) i
      | _, _ => if a = R.IRQ_LINE then w32 d.irq.line.toNat else d.rd a

/-- CHN_REQ_STATUS and CHN_RPY_STATUS: PEAK and COUNT. -/
def Dev.chnValue (d : Dev) (a : Nat) : Word :=
  match place R.CHN_REQ_STATUS 4 64 a with
  | some ch => w32 (d.chn.peak.get zeroNat ch * 2 ^ 16 + (d.chEntries ch).length)
  | none => d.rd a

/-- XCH_WLD_STATE (Table 6-7), with the phase given. -/
def World.stateWord (x : World) (phase : Nat) : Word :=
  setFld (setFld (setFld (setFld (flags [(31, x.live), (30, x.held), (29, x.faulted)]) 27 2 x.cause) 24 3 phase) 16 2
    x.policy) 0 16 x.step

/-- PHASE: OPENING gives way to RUN once every station of the world has run its opening pass (Table 6-2). -/
def Dev.wldPhase (d : Dev) (w : Nat) : Nat :=
  if (d.wld w).phase = 1 ∧ d.allOpened w then 2 else (d.wld w).phase

/-- The registers of the world that a master has selected, by their place from XCH_WLD_SEL. -/
def Dev.worldWord (d : Dev) (w i : Nat) : Word :=
  let x := d.wld w
  match i with
  | 2 => x.stateWord (d.wldPhase w)
  | 3 => w32 x.ext
  | 9 => w32 (x.peak * 2 ^ 16 + d.queueUsed w)
  | _ => d.wreg w i

/-- The position that a master's XCH_EDGE_SEL selects. -/
def Dev.edgeAt (d : Dev) (m : Master) : Nat := 64 * fld (d.mrd m R.XCH_EDGE_SEL) 8 1 + fld (d.mrd m R.XCH_EDGE_SEL) 0 6
def Dev.edgeKind (d : Dev) (m : Master) (kind : Nat) : Nat := d.edgeCnt.get zeroNat (d.edgeAt m * 4 + kind)
def Dev.edgeOcc (d : Dev) (m : Master) : Nat :=
  ((List.range 4).map (fun vc => (d.edgeBuf.get noCopies (d.edgeAt m * 4 + vc)).length)).sum

def Dev.xchValue (d : Dev) (m : Master) (a : Nat) : Word :=
  match place R.XCH_WLD_SEL 4 12 a with
  | some i => d.worldWord (fld (d.mrd m R.XCH_WLD_SEL) 0 12) i
  | none =>
    if a = R.XCH_EDGE_FLITS then w32 (d.edgeKind m 0)
    else if a = R.XCH_EDGE_FULL then w32 (d.edgeKind m 1)
    else if a = R.XCH_EDGE_OCC then w32 (d.edgeKind m 2 * 2 ^ 16 + d.edgeOcc m)
    else if a = R.XCH_EDGE_OVF then d.rd a ||| w32 (d.edgeOvf (d.edgeAt m))
    else if a = R.XCH_FRT_OUT then w32 (d.slotsHeld epSdma * 2 ^ 16 + d.slotsHeld epHost)
    else if a = R.XCH_SDMA_QUEUED then d.sdQueued m
    else d.rd a

/-- STM_STATUS[s] (R192). -/
def Dev.stmStatus (d : Dev) (s : Nat) : Word :=
  let x := d.streamer s
  setFld (setFld (flags [(31, x.grant == 2), (30, x.walks.any (fun q => q.2.isSome))]) 16 12 (d.slotsHeld (epStreamer s))) 0 7
    x.reads.length

def Dev.stmValue (d : Dev) (a : Nat) : Word :=
  match place R.STM_STATUS 0x100 12 a with
  | some s => d.stmStatus s
  | none => d.rd a

/-- QNT_PRJ_STATUS[u]: its grant and queued batches stand with the unit. -/
def Dev.qntValue (d : Dev) (a : Nat) : Word :=
  match place R.QNT_PRJ_STATUS 0x100 4 a with
  | some u => setFld (setBit (d.rd a) 30 ((d.prj u).grant == 2)) 0 5 (d.prj u).queue.length
  | none => d.rd a

/-- PIN_IN, the output latch under its three addresses, and PIN_SMB_CFG with its strapped address (R431, R434). -/
def Dev.pinValue (d : Dev) (n : Nv) (a : Nat) : Word :=
  if a = R.PIN_IN then
    w32 (d.irq.pinOut.toNat * 2 ^ 16 + maskOf ((List.range 16).filter (fun p => d.pinRaw p)))
  else if a = R.PIN_OUT_SET ∨ a = R.PIN_OUT_CLR then d.rd R.PIN_OUT
  else if a = R.PIN_SMB_CFG then setFld (d.rd a) 8 2 n.smbAddr.toNat
  else d.rd a

/-- The 64-bit value of a timer's LO register and the HI register above it. -/
def Timer.value (t : Timer) (lo : Nat) : Option (BitVec 64) :=
  if lo = R.TMR_COUNT_LO then some t.count
  else if lo = R.TMR_PERIOD_LO then some t.period
  else if lo = R.TMR_PHASE_LO then some t.phase
  else if lo = R.TMR_CMP_LO then some t.cmp
  else if lo = R.TMR_CAP_LO then some t.cap
  else none

/-- A timer register: its channel, and its address in channel 0. -/
def tmrReg (a : Nat) : Nat × Nat := ((a - R.TMR_CFG) / 0x40, R.TMR_CFG + (a - R.TMR_CFG) % 0x40)

def Dev.tmrRead (d : Dev) (m : Master) (a : Nat) : Word × Dev :=
  if R.TMR_GSTART ≤ a then (d.rd a, d)
  else
    let (c, r) := tmrReg a
    let t := d.timer c
    if r = R.TMR_STATUS then (d.tstatus c, d)
    else if r = R.TMR_CAP_LO then d.tcapRead m c false
    else match t.value r, t.value (r - 4) with
      | some v, _ => (loWord v, d.latch m (a + 4) (hiWord v))
      | none, some v => d.unlatch m a (hiWord v)
      | none, none => (d.rd a, d)

/-! ### Reads -/

/-- The registers of device 0 alone: off the manager they read as zero and ignore writes (R420). -/
def distOnly (a : Nat) : Bool := decide (R.TRK_DIST_CTRL ≤ a ∧ a < R.TRK_DIST_ENT + 0x400)

/-- What a read of a register returns and leaves, where no rule of its own gives it another effect. -/
def Dev.regValue (d : Dev) (n : Nv) (m : Master) (a : Nat) : Word :=
  if sdmaReg a && (sdmaCore m).isNone then 0
  else if ownRead a then d.mrd m a
  else match a / 0x10000 with
  | 0x10000 => d.sysValue a
  | 0x10002 => if a = R.PWR_THERM_STATE then setBit (d.rd a) 29 d.throttled else d.rd a
  | 0x10003 => d.irqValue m a
  | 0x10005 => d.chnValue a
  | 0x10007 =>
    if a = R.FWU_BOOT then fwuBootWord n d
    else match place R.FWU_SLOT 4 2 a with
      | some s => fwuSlotWord n d s
      | none => d.rd a
  | 0x10009 => d.xchValue m a
  | 0x1000A => d.qntValue a
  | 0x1000B => d.stmValue a
  | 0x1000D => if distOnly a && !d.isManager then 0 else d.rd a
  | 0x1000F => d.pinValue n a
  | _ => d.rd a

/-- Clear what a read clears. -/
def Dev.clearRead (d : Dev) (m : Master) (a : Nat) : Dev :=
  match regRow a with
  | none => d
  | some r =>
    if r.rc = 0 then d
    else match place R.XCH_WLD_SEL 4 12 a with
      | some i => d.setWreg (fld (d.mrd m R.XCH_WLD_SEL) 0 12) i 0
      | none =>
        if a = R.XCH_EDGE_FLITS then { d with edgeCnt := d.edgeCnt.set zeroNat (d.edgeAt m * 4) 0 }
        else if a = R.XCH_EDGE_FULL then { d with edgeCnt := d.edgeCnt.set zeroNat (d.edgeAt m * 4 + 1) 0 }
        else d.upd a (accRead r.rc)

/-- A read of a register of a block of Table 1-2 or of a Block. -/
def Dev.regRead (d : Dev) (n : Nv) (m : Master) (a : Nat) : Word × Dev :=
  if 0x100040000 ≤ a ∧ a < 0x100050000 then d.tmrRead m a
  else if a = R.XCH_SDMA_CPL then d.sdCplTake m
  else
    match if 0x101000000 ≤ a ∧ a < 0x101100000 then place R.BLK_OP 16 65536 a else none with
    | some i => d.blkTake i
    | none => (d.regValue n m a, d.clearRead m a)

end Sys2Proof.Machine
end

