-- ==== Sys2Proof/Machine/Writes.lean ====
section
/-! DEFINITION. What a write of a register stores and does (R7, R9), block by block: registers with commands in their fields
carry them out as the commands' own rows do. -/

namespace Sys2Proof.Machine

/-- Everything that a command may act on. -/
abbrev Whole := Nv × Mem × Dev
def onD (f : Nv → Mem → Dev → Dev) (x : Whole) : Whole := (x.1, x.2.1, f x.1 x.2.1 x.2.2)
def onMD (f : Nv → Mem × Dev → Mem × Dev) (x : Whole) : Whole := (x.1, f x.1 x.2)

/-! ### Plain writes -/

/-- A write by the access codes of a register's bits. -/
def Dev.plainWrite (d : Dev) (a : Nat) (v : Word) : Dev :=
  match regRow a with
  | some r => d.upd a (fun o => accWrite r.rw r.w1c r.w1s o v)
  | none => d

/-- A write of a register that each master has for itself. -/
def Dev.ownWrite (d : Dev) (m : Master) (a : Nat) (v : Word) : Dev :=
  if sdmaReg a && (sdmaCore m).isNone then d
  else match regRow a with
  | some r => d.mwr m a (accWrite r.rw 0 0 (d.mrd m a) v)
  | none => d

/-- A write of a register with access code RWL: the first since the last COLD or WARM reset (R7). -/
def Dev.lockWrite (d : Dev) (a : Nat) (v : Word) : Dev :=
  if d.locked.get (fun _ => false) a then d
  else { d.plainWrite a v with locked := d.locked.set (fun _ => false) a true }

/-! ### SYS (R276, R281, R355, R356, R364) -/

/-- SOURCE of a reset that a master requests; the others request none. -/
def rstSource : Master → Option ResetSource
  | .sb n => if n = 0 then some .sb0 else none
  | .transport => some .transport
  | .sideband => some .sideband
  | .jtag => some .jtag
  | .smbus => some .smbus
  | _ => none

/-- A write of SYS_RST_CTRL. -/
def rstCtrl (m : Master) (v : Word) (x : Whole) : Whole :=
  match rstSource m with
  | none => x
  | some src => match fld v 0 3 with
    | 1 => onMD (fun n y => strongReset n 1 src y) x
    | 2 => onMD (fun n y => strongReset n 2 src y) x
    | 3 => onMD (fun n y => computeRequest n src y) x
    | 4 => onD (fun n _ d => d.sectionRequest n src (fld v 16 12)) x
    | _ => x

/-- A write of SYS_BRING_CMD. -/
def bringCmd (v : Word) (x : Whole) : Whole :=
  match fld v 0 4 with
  | 1 => onMD bringStep x
  | 2 => onMD bringRest x
  | 3 => onMD bringAgain x
  | 4 => onMD (fun n y => bringRepeat n (fld v 8 4) y) x
  | _ => x

/-- Who may write the core registers: SB0, and the host by REG_WR or the sideband (R276). -/
def coreOwner (m : Master) : Bool := m == .sb 0 || m == .transport || m == .sideband

/-- RUN of a core: from its reset vector, or held in reset, abandoning an access on which it is blocked (R276). -/
def Dev.coreRun (d : Dev) (n : Nat) (run : Bool) : Dev :=
  if n = 0 ∨ (run ∧ (d.core n).running) then d
  else d.updCore n (fun c => { Core.init n with running := run, verified := c.verified, verifyFail := c.verifyFail })

def sysWrite (m : Master) (a : Nat) (v : Word) (x : Whole) : Whole :=
  if a = R.SYS_BRING_CMD then bringCmd v x
  else if a = R.SYS_BRING_STATUS then
    onMD (fun n y => autoSet n (bit v 30) (y.1, y.2.upd a (fun o => o &&& ~~~(v &&& 0x30000000#32)))) x
  else if a = R.SYS_RST_CTRL then rstCtrl m v x
  else if a = R.SYS_DPT_UE_ADDR then onD (fun _ _ d => if bit v 31 then d.wr a 0 else d) x
  else match place R.SYS_SB_CTRL 4 8 a, place R.SYS_SB_STATE 4 8 a with
    | some n, _ => onD (fun _ _ d => if coreOwner m then d.coreRun n (bit v 31) else d) x
    | _, some _ => onD (fun _ _ d => if coreOwner m then d.plainWrite a v else d) x
    | _, _ => onD (fun _ _ d => d.plainWrite a v) x

/-! ### CLK and PWR (R332 to R334, R347, R349, R350) -/

def clkWrite (a : Nat) (v : Word) (x : Whole) : Whole :=
  match place R.CLK_SEL 4 4 a with
  | some i => onD (fun _ _ d => d.clkSwitch i v) x
  | none =>
    if a = R.CLK_ISL_RST then onMD (fun n y => islandResets n v.toNat y) x
    else if a = R.CLK_XCH then onD (fun _ _ d => d.xchWrite v) x
    else if R.CLK_EN_RUN ≤ a ∧ a < R.CLK_EN_DEEP + 20 then onD (fun n _ d => d.plainWrite a (v &&& w32 (n.branches ((a / 4) % 8)))) x
    else onD (fun _ _ d => d.plainWrite a v) x

/-- Who may ask for a power state: SB0 and the host (R349). -/
def powerOwner (m : Master) : Bool := m == .sb 0 || m == .transport || m == .sideband || m == .jtag

/-- A write of PWR_STATE_CTRL; WAKE is a wake cause from the sideband only, and what is no request is a bad one. -/
def Dev.stateCtrl (d : Dev) (m : Master) (v : Word) : Dev :=
  if fld v 0 2 = 1 ∧ powerOwner m then d.pwrRequest 1
  else if fld v 0 2 = 2 ∧ powerOwner m then d.pwrRequest 2
  else if fld v 0 2 = 3 ∧ m = .sideband then d.wake 0
  else d.setF R.PWR_STATE 8 8 6

def Dev.pwrWrite (d : Dev) (m : Master) (a : Nat) (v : Word) : Dev :=
  if a = R.PWR_STATE_CTRL then d.stateCtrl m v
  else if a = R.PWR_VFAB_TARGET then d.vfabTarget v
  else if (place R.PWR_TOK_BUDGET 4 8 a).isSome then d.lockWrite a v
  else d.plainWrite a v

/-! ### IRQ (R308, R310, R311, R315) -/

def Dev.irqWrite (d : Dev) (a : Nat) (v : Word) : Dev :=
  match place R.IRQ_PEND_SET 4 8 a, place R.IRQ_PEND_CLR 4 8 a with
  | some i, _ => d.irqPendSet i v
  | _, some i => d.irqPendClr i v
  | _, _ => match place R.IRQ_EN_SET 4 72 a, place R.IRQ_EN_CLR 4 72 a with
    | some i, _ => d.enSet i v
    | _, some i => d.enClr i v
    | _, _ => match place R.IRQ_PIN_CFG 4 16 a with
      | some p => d.pinCfgWrite p v
      | none => d.plainWrite a v

/-! ### TMR (R318 to R325) -/

def Dev.tmrWrite (d : Dev) (m : Master) (a : Nat) (v : Word) : Dev :=
  if R.TMR_GSTART ≤ a then
    if a = R.TMR_GSTART then (maskChans v).foldl (fun (d : Dev) c => d.tstart c) d
    else if a = R.TMR_GSTOP then (maskChans v).foldl (fun (d : Dev) c => d.tstop c) d
    else if a = R.TMR_GSTAGGER then d.tstagger v
    else d.plainWrite a v
  else
    let (c, r) := tmrReg a
    if r = R.TMR_CFG then d.tcfgWrite c v
    else if r = R.TMR_COUNT_LO then d.tcountCommit m c v
    else if r = R.TMR_PERIOD_LO then d.tperiodCommit m c v
    else if r = R.TMR_PHASE_LO then d.tphaseCommit m c v
    else if r = R.TMR_CMP_LO then d.tcmpCommit m c v
    else if [R.TMR_COUNT_HI, R.TMR_PERIOD_HI, R.TMR_PHASE_HI, R.TMR_CMP_HI].contains r then d.mwr m (stageReg c) v
    else if r = R.TMR_CTRL then
      match fld v 0 3 with
      | 1 => d.tstart c
      | 2 => d.tstop c
      | 3 => d.tcapture c
      | 4 => d.treload c
      | _ => d
    else d.plainWrite a v

/-! ### MBT, FWU, SEC (R286, R381 to R391, R394) -/

def mbtWrite (a : Nat) (v : Word) (x : Whole) : Whole :=
  if a = R.MBT_CTRL then
    match fld v 0 2 with
    | 1 => onD (fun n _ d => d.mbtBegin n) x
    | 2 => onMD (fun _ y => mbtStop y) x
    | _ => x
  else onD (fun _ _ d => d.plainWrite a v) x

/-- What the SD card of the board holds, where a plain write starts its route: not known to the block (log entry 2). -/
def Dev.freeCard (d : Dev) : SdCard × Dev :=
  let (w, d) := d.freeWord
  let (k, d) := d.freeWord
  let c := d.freeCtr
  let here := bit w 0 && bit w 1
  ({ answers := bit w 0, fat32 := bit w 1, readError := bit w 3,
     file := if here && bit w 2 then some ((List.range (k.toNat % 0x1000001)).map (fun i => Config.freeByte c i)) else none },
    { d with freeCtr := c + 1 })

def fwuWrite (a : Nat) (v : Word) (x : Whole) : Whole :=
  if a = R.FWU_CTRL then
    match fld v 0 4 with
    | 1 => fwuStart 0 x
    | 2 => let (sd, d) := x.2.2.freeCard; fwuReadSd sd (x.1, x.2.1, d)
    | 3 => onD (fun _ _ d => d.fwuCancel) x
    | 4 => fwuPick (fld v 8 1) x
    | 5 => fwuSettings x
    | 6 => fwuKey x
    | _ => x
  else if a = R.FWU_HEALTH_OK then fwuConfirm v x
  else onD (fun _ _ d => d.plainWrite a v) x

def Dev.secWrite (d : Dev) (n : Nv) (a : Nat) (v : Word) : Dev :=
  if a = R.SEC_CTRL then if bit v 0 then d.attest n else d
  else if (place R.SEC_NONCE 4 8 a).isSome ∧ bit (d.rd R.SEC_STATUS) 31 then d.orBits R.SEC_STATUS (2 ^ 29)
  else d.plainWrite a v

/-! ### XCH (R149, R171, R238, R252, R265, R282) -/

/-- The outcome of a training that a plain write asks for: not known to the block (log entry 2). -/
def Dev.freeTrain (d : Dev) : TrainOutcome × Dev :=
  let (w, d) := d.freeWord
  ({ modulesX64 := w.extractLsb' 0 4, modulesX32 := w.extractLsb' 4 4, repaired := w.extractLsb' 8 4,
     hostRate := w.extractLsb' 12 2 }, d)

def Dev.xchRegWrite (d : Dev) (n : Nv) (m : Master) (a : Nat) (v : Word) : Dev :=
  if a = R.XCH_WLD_CFG then d.setWreg (fld (d.mrd m R.XCH_WLD_SEL) 0 12) 1 (v &&& 0xF00003FF#32)
  else if a = R.XCH_LINK_CTRL then
    if bit v 0 then let (tr, d) := d.freeTrain; d.linkRetrain m tr else d
  else if a = R.XCH_EDGE_OVF then
    -- FLITS_OVF and FULL_OVF are those of the position that the master has selected (Table 7-12)
    (d.plainWrite a v).setEdgeOvf (d.edgeAt m) (fld (w32 (d.edgeOvf (d.edgeAt m)) &&& ~~~v) 0 2)
  else if a = R.XCH_EDGE_IDX then d.edgeIdx m v
  else if a = R.XCH_EDGE_DATA + 12 then d.edgeCommit m v
  else if a = R.XCH_SDMA_D + 12 then d.sdSubmit n m v
  -- a larger pool lets waiting requests go (R204)
  else if a = R.XCH_FRT_POOL then (d.plainWrite a v).serveSlots n
  else match place R.XCH_ENC_CFG 0x20 256 a, place R.XCH_DEC_CFG 0x20 256 a with
    | some e, _ => d.encCfgWrite e v
    | _, some c => d.decCfgWrite c v
    | _, _ => d.plainWrite a v

/-! ### QNT (R212, R224, R229) -/

def Dev.qntWrite (d : Dev) (n : Nv) (a : Nat) (v : Word) : Dev :=
  if a = R.QNT_CTRL then
    match fld v 0 2 with
    | 1 => d.qntStart n
    | 2 => d.qntCancel
    | _ => d
  else if R.QNT_SRC_LO ≤ a ∧ a ≤ R.QNT_RNG ∧ d.qntState ≠ 0 then d.orBits R.QNT_STATUS (2 ^ 19)
  else if a = R.QNT_RNG ∧ v = 0 then d
  else match place R.QNT_PRJ_CTRL 0x100 4 a with
    | some u => if fld v 0 2 = 1 ∨ fld v 0 2 = 2 then d.prjCmd n u (fld v 0 2) else d
    | none => d.plainWrite a v

/-! ### TRK (R408, R411, R413, R420 to R422) -/

def Dev.trkCtrl (d : Dev) (n : Nv) (k : Nat) (v : Word) : Dev :=
  let d := if bit v 0 then let (w, d) := d.freeWord; d.trunkRetrain n k (bit w 0) else d
  if bit v 1 then d.trunkWake n k else d

def distCtrl (v : Word) (x : Whole) : Whole :=
  match fld v 0 3 with
  | 1 => onMD (fun n y => distBegin n dPlan y) x
  | 2 => onMD (fun n y => distBegin n dFirmware y) x
  | 3 => onMD (fun n y => distBegin n dGo y) x
  | 4 => onD (fun _ _ d => d.distCancel) x
  | _ => x

/-- A member mask of a system world: refused while the world is live and not held (R413). -/
def Dev.swWrite (d : Dev) (i : Nat) (v : Word) : Dev :=
  if d.active (i / 2) then d.refuseCfg none else d.wr (R.TRK_SW + 4 * i) v

def trkWrite (a : Nat) (v : Word) (x : Whole) : Whole :=
  if distOnly a && !x.2.2.isManager then x
  else if a = R.TRK_DIST_CTRL then distCtrl v x
  else onD (fun n _ d =>
    if a = R.TRK_SYS_CTRL then if bit v 0 && d.isManager then d.wave n else d
    else match place R.TRK_CTRL 0x40 8 a, place R.TRK_SW 4 8192 a with
      | some k, _ => d.trkCtrl n k v
      | _, some i => d.swWrite i v
      | _, _ => d.plainWrite a v) x

/-! ### TPL (R44 to R52) -/

def tplCtrl (v : Word) (x : Whole) : Whole :=
  match fld v 0 4 with
  | 1 => onMD (fun n y => loadOrPatch n false [tNoPlan] y) x
  | 2 => onD (fun n m d => d.tplGo n m) x
  | 3 => onMD (fun n y => loadOrPatch n true [tDrained] y) x
  | 4 => onD (fun _ _ d => d.tplHold) x
  | 5 => onD (fun _ _ d => d.tplRelease) x
  | 6 => onD (fun _ _ d => d.tplStop) x
  | 7 => onD (fun n _ d => d.tplCancel n) x
  | _ => x

/-! ### PIN and BLK (R301, R302, R431) -/

def Dev.pinWrite (d : Dev) (a : Nat) (v : Word) : Dev :=
  if a = R.PIN_OUT_SET then d.upd R.PIN_OUT (· ||| (v &&& 0xFFFF#32))
  else if a = R.PIN_OUT_CLR then d.upd R.PIN_OUT (· &&& ~~~(v &&& 0xFFFF#32))
  else d.plainWrite a v

def Dev.blkRegWrite (d : Dev) (a : Nat) (v : Word) : Dev :=
  let i := (a - R.BLK_CFG) / 16
  match a % 16 / 4 with
  | 0 => d.blkCfgWrite i v
  | 1 => d.blkPlainWrite R.BLK_VALUE i v
  | 2 => d.blkPlainWrite R.BLK_LIMIT i v
  | _ => d.blkWrite i v

/-- A change of HOST leaves the entries for the new reader: a core that waits for one is served (R297). -/
def Dev.chnWrite (d : Dev) (a : Nat) (v : Word) : Dev :=
  match place R.CHN_RPY_CFG 4 32 a with
  | some c => (d.plainWrite a v).chServe (32 + c) 16
  | none => d.plainWrite a v

/-! ### All blocks -/

/-- A write of a register of a block of Table 1-2 or of a Block; channel data registers, CHN_PARK_CTRL and TRK_RA_DATA have
access paths of their own. -/
def regWrite (m : Master) (a : Nat) (v : Word) (x : Whole) : Whole :=
  if ownReg a then onD (fun _ _ d => d.ownWrite m a v) x
  else if 0x101000000 ≤ a ∧ a < 0x101100000 then onD (fun _ _ d => d.blkRegWrite a v) x
  else match a / 0x10000 with
  | 0x10000 => sysWrite m a v x
  | 0x10001 => clkWrite a v x
  | 0x10002 => onD (fun _ _ d => d.pwrWrite m a v) x
  | 0x10003 => onD (fun _ _ d => d.irqWrite a v) x
  | 0x10004 => onD (fun _ _ d => d.tmrWrite m a v) x
  | 0x10005 => onD (fun _ _ d => d.chnWrite a v) x
  | 0x10006 => mbtWrite a v x
  | 0x10007 => fwuWrite a v x
  | 0x10008 => onD (fun n _ d => d.secWrite n a v) x
  | 0x10009 => onD (fun n _ d => d.xchRegWrite n m a v) x
  | 0x1000A => onD (fun n _ d => d.qntWrite n a v) x
  | 0x1000C => onD (fun _ _ d => if a = R.DRM_CFG then d.lockWrite a v else d.plainWrite a v) x
  | 0x1000D => trkWrite a v x
  | 0x1000E => if a = R.TPL_CTRL then tplCtrl v x else onD (fun _ _ d => d.plainWrite a v) x
  | 0x1000F => onD (fun _ _ d => d.pinWrite a v) x
  | _ => onD (fun _ _ d => d.plainWrite a v) x

end Sys2Proof.Machine
end

