-- ==== Sys2Proof/Machine/Access.lean ====
section
/-! DEFINITION. The device address map (R15 to R21): what lies at an address, whether bring-up has reached it, and a word
access by a master to each of the places, with the status it ends with. -/

namespace Sys2Proof.Machine

/-! ### The map (Table 1-2) -/

/-- What lies at a device address.  Depot: the offset and 0 direct, 1 bit-set alias, 2 bit-clear alias. -/
inductive Target where
  | depot (kind off : Nat)
  | reg
  | station (rank off : Nat)
  | sect (w off : Nat)
  | broadcast (group off : Nat)
  | gddr (off : Nat)
  | unmapped
deriving DecidableEq, Repr

/-- A bring-up stage has passed. -/
def Dev.passed (d : Dev) (s : Nat) : Bool := d.f (bootReport s) 30 2 == 2

/-- Stage 0 has ended, passed or failed: the sideband, JTAG and SMBus are served (R357, R434). -/
def Dev.awake (d : Dev) : Bool := decide (2 ≤ d.f (bootReport 0) 30 2)

/-- What a word access at an address reaches; units that bring-up has not reached are unmapped (R15, R249). -/
def Dev.targetOf (d : Dev) (n : Nv) (a : Nat) : Target :=
  let depot := fun (kind off : Nat) => if d.passed 3 then Target.depot kind off else .unmapped
  if a % 4 ≠ 0 then .unmapped
  else if a < depotSize then depot 0 a
  else if 0x10000000 ≤ a ∧ a < 0x10000000 + depotSize then depot 1 (a - 0x10000000)
  else if 0x20000000 ≤ a ∧ a < 0x20000000 + depotSize then depot 2 (a - 0x20000000)
  else if 0x100000000 ≤ a ∧ a < 0x100110000 then
    if imageWindow ≤ a ∧ a < imageWindow + 0x1000 then .unmapped else .reg
  else if 0x101000000 ≤ a ∧ a < 0x101100000 then if d.passed 3 then .reg else .unmapped
  else if stationBase ≤ a ∧ a < 0x300000000 then
    let w := (a - stationBase) / 2 ^ 20
    let off := a % 2 ^ 20
    if !d.passed 8 then .unmapped
    else if w < 2304 then .station w off
    else if (d.livePlan.bind (fun p => p.section? w)).isSome then .sect w off
    else .unmapped
  else if 0x300000000 ≤ a ∧ a < 0x400000000 then
    if d.passed 8 then .broadcast (a / 2 ^ 24 % 256) (a % 2 ^ 24) else .unmapped
  else if gddrBase ≤ a ∧ a < gddrBase + d.gddrSize n then .gddr (a - gddrBase)
  else .unmapped

/-- How an access ends, with the word read; none when it has been recorded already or ends later. -/
abbrev Answer := Option (Status × Word)

def okWord (v : Word) : Answer := some (.ok, v)
def aborted : Answer := some (.abort, 0)
def notThere : Answer := some (.unmapped, 0)

/-! ### Depot memory (R277 to R279) -/

/-- An access to one Depot word, by the byte enables. -/
def depotWord (kind off : Nat) (be : BitVec 4) (wr : Option Word) (x : Mem × Dev) : Answer × (Mem × Dev) :=
  match wr with
  | none =>
    let (ok, y) := depotScan x off 4
    (if ok then okWord (y.1.depotWord off) else aborted, y)
  | some v =>
    let f := fun (w : Word) => if kind = 0 then v else if kind = 1 then w ||| v else w &&& ~~~v
    let (ok, y) := depotModify x off be (kind == 0) f
    (if ok then okWord 0 else aborted, y)

/-- The same, once its bank is under no test: until then it waits (R287), and a core with it at its address `ca`. -/
def depotAccess (m : Master) (kind off : Nat) (be : BitVec 4) (ca : Word) (width : Nat) (wr : Option Word)
    (host : Option (Nat × Bool)) (x : Mem × Dev) : Answer × (Mem × Dev) :=
  let off := off / 4 * 4
  let d := x.2
  if d.banksTested off 4 then
    let d := match m with
      | .sb n => d.updCore n (fun c => { c with blocked := some (.freight d.accNext wr.isSome ca width d.now) })
      | _ => d
    (none, (x.1, d.bankWait m (.word kind off be wr) wr.isSome host none))
  else depotWord kind off be wr x

/-! ### By Freight (R18, R25, R275) -/

/-- The bytes that an access of a width selects in its word. -/
def lanes (ca width : Nat) : BitVec 4 := BitVec.ofNat 4 ((2 ^ width - 1) <<< (ca % 4))
/-- The data of an access in the lanes of its word. -/
def toLanes (ca : Nat) (v : Word) : Word := v <<< (8 * (ca % 4))

/-- An access of a core takes an access fault. -/
def Dev.coreFails (d : Dev) (n : Fin 8) (wr : Bool) (ca : Word) : Dev := (d.coreFault n wr ca).complete (.sb n) .fault []

/-- A core's access: one transaction of 4 bytes through the Signal DMA endpoint; the bytes of the word that a narrow store does
not write travel too, with values the spec does not state (log entry 12). -/
def Dev.coreFreight (d : Dev) (nv : Nv) (n : Fin 8) (a : Nat) (ca : Word) (width : Nat) (wr : Option Word) : Dev :=
  match d.endpointOf nv (a / 4 * 4) with
  | none => d.coreFails n wr.isSome ca
  | some e =>
    if 64 ≤ d.descQueue then d.coreFails n wr.isSome ca
    else
      let (other, d) := if wr.isSome ∧ width < 4 then d.freeWord else (0, d)
      let data := match wr with
        | some v => (List.range 4).map (fun i =>
            if (lanes ca.toNat width).getLsbD i then BitVec.ofNat 8 ((toLanes ca.toNat v).toNat >>> (8 * i))
            else BitVec.ofNat 8 (other.toNat >>> (8 * i)))
        | none => []
      let id := d.accNext
      let r : FReq := { ep := epSdma, typ := if wr.isSome then pWrite else pRead, dst := e, addr := a / 4 * 4, rdst := 0,
                        rcount := if wr.isSome then 0 else 4, data := data, owner := .core n id, place := 0, rdev := none }
      let d := { d with accNext := id + 1 }.updCore n (fun c =>
        { c with blocked := some (.freight id wr.isSome ca width d.now) })
      d.ask nv [r]

/-- A word access to a station memory or to GDDR6 goes by Freight and ends later. -/
def Dev.freightAccess (d : Dev) (n : Nv) (m : Master) (a : Nat) (wr : Option Word) (host : Option (Nat × Bool)) : Answer × Dev :=
  match m with
  | .sb c => (none, d.coreFreight n c a (coreAddr a) 4 wr)
  | _ => match d.wordFreight n m a wr host with
    | some d => (none, d)
    | none => (notThere, d)

/-! ### Station windows (R18, R19, R20) -/

/-- An access to the tables and registers of the station at a mesh position, which holds a rank. -/
def Dev.stnAccess (d : Dev) (m : Master) (rank p off : Nat) (wr : Option Word) : Word × Dev :=
  match wr with
  | none => d.stnRead m rank p off
  | some v => (0, d.stnWrite p m.idx off v)

/-- Registers of a station that count, and so read as a sum through a section window. -/
def isCounter (off : Nat) : Bool :=
  off == stnCfgRefused || isOpsLo off || isOpsHi off || decide (R.STN_CR_CREATED ≤ off ∧ off < R.STN_CR_CONSUMED + 128)
    || (regRow off).any (fun r => r.rc == 0xFFFFFFFF)

/-- The stations of a section of the live plan, with their ranks, in ascending rank. -/
def Dev.sectionRanks (d : Dev) (n : Nv) (s : Section) : List (Nat × Nat) :=
  let ps := s.positions.filter n.enabled
  (List.range d.tpl.ranks.length).filterMap (fun r => (d.posOfRank r).bind (fun p => if ps.contains p then some (r, p) else none))

/-- The sum of a counter over the members; STN_SYN_OPS is summed whole, and a read of its low word latches the high one. -/
def Dev.sectionSum (d : Dev) (m : Master) (w : Nat) (ms : List (Nat × Nat)) (off : Nat) : Word × Dev :=
  let at_ := fun (o : Nat) => (ms.map (fun q => (d.stnValue q.2 o).toNat)).sum
  let winAt := fun (o : Nat) => stationBase + w * 2 ^ 20 + o
  let ops := fun (lo : Nat) => min (2 ^ 64 - 1) (at_ lo + 2 ^ 32 * at_ (lo - R.STN_SYN_OPS_LO + R.STN_SYN_OPS_HI))
  if isOpsLo off then
    (w32 (ops off), d.latch m (winAt (off - R.STN_SYN_OPS_LO + R.STN_SYN_OPS_HI)) (w32 (ops off / 2 ^ 32)))
  else if isOpsHi off then d.unlatch m (winAt off) (w32 (ops (off - R.STN_SYN_OPS_HI + R.STN_SYN_OPS_LO) / 2 ^ 32))
  else (satWord (at_ off), ms.foldl (fun (d : Dev) q => (d.stnRead m q.1 q.2 off).2) d)

/-- An access through a section window (R19, R157, R309). -/
def Dev.sectionAccess (d : Dev) (n : Nv) (m : Master) (w off : Nat) (wr : Option Word) : Answer × Dev :=
  match d.livePlan.bind (fun p => p.section? w) with
  | none => (notThere, d)
  | some s =>
    let ms := d.sectionRanks n s
    let all := fun (v : Word) => (okWord 0, ms.foldl (fun (d : Dev) q => d.stnWrite q.2 m.idx off v) d)
    let at_ := fun (q : Nat × Nat) (off : Nat) => let (v, d) := d.stnAccess m q.1 q.2 off wr; (okWord v, d)
    if off < 0x60000 then (notThere, d)
    else if ms.any (fun q => d.stnTested q.2) then (aborted, d)
    else if off < 0x62000 then
      let e := s.view.getD ((off - 0x60000) / 32) 0
      match if bit e 31 then d.posOfRank (fld e 0 12) else none with
      | some p => at_ (fld e 0 12, p) (0x60000 + 32 * fld e 16 8 + off % 32)
      | none => (notThere, d)
    else match ms with
    | [] => (okWord 0, d)
    | q :: _ =>
      if 0x68000 ≤ off ∧ off < 0x6C000 then at_ q off
      else match wr with
      | some v => all v
      | none =>
        if off = stnIrqLatch then (okWord (ms.foldl (fun (v : Word) q => v ||| d.sW q.2 off) 0), d)
        else if isCounter off then let (v, d) := d.sectionSum m w ms off; (okWord v, d)
        else at_ q off

/-- A broadcast write at one station: its memories are reached through the row arbiter. -/
def Dev.stnTakes (d : Dev) (m p off : Nat) (v : Word) : Dev :=
  if off < 0x5C000 then d.signalStore p off (wordBytes v)
  else if off < 0x60000 then d
  else d.stnWrite p m off v

/-- An access through the broadcast window at bits [23:0] of its address (R20).  A write for a group that no live plan defines
reaches no station and is done: R20 does not say how it completes (DESIGN CHOICE, log entry 50).  One that a station under
march test cannot take is aborted there, as at its window, so that nothing is lost in silence (R287; log entry 50). -/
def Dev.broadcastAccess (d : Dev) (n : Nv) (m : Master) (g off : Nat) (wr : Option Word) : Answer × Dev :=
  match wr with
  | none => (okWord 0, d)
  | some v =>
    if 2 ^ 20 ≤ off then (notThere, d)
    else
      let (tested, ps) := (((d.groupStations n g).getD []).filter n.enabled).partition d.stnTested
      (if tested = [] then okWord 0 else aborted, ps.foldl (fun (d : Dev) p => d.stnTakes m.idx p off v) d)

/-! ### Registers with access paths of their own (R292, R296, R408) -/

/-- An access to a word of a channel data register, which only the cores reach (R292). -/
def Dev.chanAccess (d : Dev) (n : Nv) (m : Master) (a : Nat) (wr : Option Word) : Answer × Dev :=
  match m with
  | .sb c =>
    let ch := (a - R.CHN_REQ_DATA) / 8
    match wr with
    | some v => (none, if a % 8 = 0 then d.stageWrite n c ch v else d.pushWrite n c ch v)
    | none =>
      if a % 8 = 0 then (none, d.popRead n c ch)
      else if chanClosed c ch then (none, d.denyCore c m false a)
      else let (v, d) := d.latchRead c; (okWord v, d)
  | _ => (notThere, d)

/-- A write of CHN_PARK_CTRL[o]; for a core the access may block, and is recorded where it ends. -/
def Dev.parkAccess (d : Dev) (n : Nv) (m : Master) (o : Nat) (v : Word) : Answer × Dev :=
  let ends := fun (d : Dev) => (match m with | .sb _ => none | _ => some ((d.completion m).status, 0), d)
  if fld v 0 2 = 1 then ends (d.parkCtrl n m o (fun d => d.parkRetry m o))
  else if fld v 0 2 = 2 then ends (d.parkCtrl n m o (fun d => (d.unpark o).complete m .ok []))
  else ends (d.parkCtrl n m o (fun d => d.complete m .ok []))

/-- Registers of CHN and IRQ that are closed to some cores for writes (R298, R311). -/
def writeClosed (a c : Nat) : Bool :=
  if 0x100030000 ≤ a ∧ a < 0x100040000 then
    let own := match place R.IRQ_EN_SET 4 72 a, place R.IRQ_EN_CLR 4 72 a, place R.IRQ_MOD 4 9 a, place R.IRQ_CLAIM 4 9 a with
      | some i, _, _, _ => some (i / 8)
      | _, some i, _, _ => some (i / 8)
      | _, _, some t, _ => some t
      | _, _, _, some t => some t
      | _, _, _, _ => none
    irqClosed own c
  else c != 0 && ((place R.CHN_RPY_CFG 4 32 a).isSome || a == R.CHN_STALL_LIMIT)

/-! ### An access (R15, R25, R273) -/

/-- A word access to a register that has reached its block.  DESIGN CHOICE (log entry 54): a commit to an edge table under test
is aborted, where R287 speaks of copies alone. -/
def regAccess (m : Master) (a : Nat) (wr : Option Word) (x : Whole) : Answer × Whole :=
  match wr with
  | none => let (v, d) := x.2.2.regRead x.1 m a; (okWord v, (x.1, x.2.1, d))
  | some v =>
    if a = R.XCH_EDGE_DATA + 12 ∧ x.2.2.testing 3 (x.2.2.edgeSel m).1 then (aborted, x)
    else if a = R.XCH_EDGE_IDX ∧ edgeBeyond v then (notThere, x)
    else (okWord 0, regWrite m a v x)

/-- Put a device-level answer back into the whole. -/
def withDev (x : Whole) (r : Answer × Dev) : Answer × Whole := (r.1, (x.1, x.2.1, r.2))

/-- A word access by a master: its rights, the gate of its target, and the target.  `reply`: the host request that waits for
a remote access (R408), for Freight, or for a Depot bank.  Accesses to station memories and GDDR6 go by Freight. -/
def access (m : Master) (a : Nat) (wr : Option Word) (reply : Option (Nat × Bool)) (x : Whole) : Answer × Whole :=
  let (n, mem, d) := x
  let closed := match m with | .sb c => wr.isSome && writeClosed a c | _ => false
  let deny := match m with | .sb c => (none, (n, mem, d.denyCore c m wr.isSome a)) | _ => (aborted, x)
  let t := d.targetOf n a
  if t = .reg ∧ R.CHN_REQ_DATA ≤ a ∧ a < R.CHN_REQ_STATUS then withDev x (d.chanAccess n m a wr)
  else if closed then deny
  else match d.gate n m wr.isSome a with
  | .deny => deny
  | .zero => (okWord 0, x)
  | .abort => (if t = .unmapped then notThere else aborted, x)
  | .open_ =>
    match t with
    | .unmapped => (notThere, x)
    | .depot kind off => let (r, y) := depotAccess m kind off 15#4 (coreAddr a) 4 wr reply (mem, d); (r, (n, y))
    | .station r off =>
      match d.posOfRank r with
      | some p =>
        if off < 0x60000 then withDev x (d.freightAccess n m a wr reply)
        else let (v, d) := d.stnAccess m r p off wr; (okWord v, (n, mem, d))
      | none => (okWord 0, x)
    | .sect w off => withDev x (d.sectionAccess n m w off wr)
    | .broadcast g off => withDev x (d.broadcastAccess n m g off wr)
    | .gddr _ => withDev x (d.freightAccess n m a wr reply)
    | .reg =>
      if a = R.TRK_RA_DATA then
        if (d.ra m).isSome then (aborted, x) else (none, (n, mem, d.raAccess n m wr reply))
      else match place R.CHN_PARK_CTRL 16 8 a, wr with
      | some o, some v => withDev x (d.parkAccess n m o v)
      | _, _ => regAccess m a wr x

/-- Record at the master how its access ended. -/
def record (m : Master) (a : Nat) (wr : Bool) (r : Answer × Whole) : Whole :=
  match r with
  | (none, x) => x
  | (some (.ok, v), x) => onD (fun _ _ d => d.complete m .ok (if wr then [] else [v])) x
  | (some (st, _), x) => onD (fun _ _ d => d.fail m wr a st) x

/-- A word access by a master, with its completion. -/
def accessOf (m : Master) (a : Nat) (wr : Option Word) (x : Whole) : Whole := record m a wr.isSome (access m a wr none x)

/-! ### Commands -/

/-- A write travels by the Signal network, under its parity (R22, R43). -/
def Target.bySignal (t : Target) (a : Nat) : Bool :=
  match t with
  | .station _ off => decide (0x60000 ≤ off)
  | .sect _ _ => true
  | .reg => decide (0x101000000 ≤ a)
  | _ => false

/-- REG_WRITE (R7): a write that fails parity at its destination is sent up to three times more, and then aborted with
nothing changed. -/
def execRegWrite (m : Master) (a : Addr) (v : Word) (parityFails : Nat) (s : State) : Host.Outcome State Fault Refusal :=
  onAll (fun x =>
    let a := a.toNat
    if 4 ≤ parityFails ∧ (x.2.2.targetOf x.1 a).bySignal a ∧ x.2.2.gate x.1 m true a = .open_ then
      record m a true (aborted, x)
    else accessOf m a (some v) x) s

/-- BROADCAST_WINDOW_WRITE (R20): at an address of the broadcast window. -/
def execBroadcastWindowWrite (m : Master) (a : Addr) (v : Word) (s : State) : Host.Outcome State Fault Refusal :=
  onAll (fun x => if 0x300000000 ≤ a.toNat ∧ a.toNat < 0x400000000 then accessOf m a.toNat (some v) x else x) s

/-- SECTION_WINDOW_ACCESS (R19): at an address of the section windows. -/
def execSectionWindowAccess (m : Master) (a : Addr) (wr : Option Word) (s : State) : Host.Outcome State Fault Refusal :=
  onAll (fun x => if stationBase + 2304 * 2 ^ 20 ≤ a.toNat ∧ a.toNat < 0x300000000 then accessOf m a.toNat wr x else x) s

/-- An alias write by the enabled bytes: a core's under its rights (R278, R273). -/
def aliasWrite (m : Master) (kind : Nat) (off : BitVec 24) (be : BitVec 4) (v : Word) (x : Whole) : Whole :=
  let a := kind * 0x10000000 + off.toNat
  let (n, mem, d) := x
  match d.gate n m true (a / 4 * 4), d.targetOf n (a / 4 * 4) with
  | .open_, .depot k o => let (r, y) := depotAccess m k o be (w32 a) 4 (some v) none (mem, d); record m a true (r, (n, y))
  | .abort, .depot _ _ => record m a true (aborted, x)
  | _, _ => record m a true (notThere, x)

/-- DEPOT_SET_ALIAS_WRITE (R278). -/
def execDepotSetAliasWrite (m : Master) (off : BitVec 24) (be : BitVec 4) (v : Word) (s : State) :
    Host.Outcome State Fault Refusal := onAll (fun x => aliasWrite m 1 off be v x) s

/-- DEPOT_CLEAR_ALIAS_WRITE (R278). -/
def execDepotClearAliasWrite (m : Master) (off : BitVec 24) (be : BitVec 4) (v : Word) (s : State) :
    Host.Outcome State Fault Refusal := onAll (fun x => aliasWrite m 2 off be v x) s

/-- SB_RUN (R272): RUN of SYS_SB_CTRL[n], by those who may write it. -/
def execSbRun (m : Master) (n : Fin 8) (run : Bool) (s : State) : Host.Outcome State Fault Refusal :=
  onDev (fun nv _ d => d.writeGate nv m (R.SYS_SB_CTRL + 4 * n) (fun d => if coreOwner m then d.coreRun n run else d)) s

end Sys2Proof.Machine
end

