-- ==== Sys2Proof/Machine/HostAccess.lean ====
section
/-! DEFINITION. Register and block access by the host (R232, R235, R241, R249, R250) and by other devices (R408). -/

namespace Sys2Proof.Machine

/-! ### Ranges of Depot memory -/

/-- Read or write Depot memory from a word on: none when a word that is read, or written in part, is uncorrectable (R279). -/
def depotRange (a len : Nat) (wr : Option (List Byte)) (x : Mem × Dev) : Option (List Byte) × (Mem × Dev) :=
  match wr with
  | some bs =>
    let k := bs.length / 4 * 4
    let y : Mem × Dev := (x.1.depotPut a (bs.take k), x.2)
    if k = bs.length then (some [], y)
    else
      let (ok, y) := depotModify y (a + k) (BitVec.ofNat 4 (2 ^ (bs.length - k) - 1)) false (fun _ => recWord (bs.drop k) 0)
      (if ok then some [] else none, y)
  | none =>
    let (ok, y) := depotScan x a len
    (if ok then some (y.1.depotBytes a len) else none, y)

/-- The Depot range of an address and a byte count, where it can be reached. -/
def Dev.inDepot (d : Dev) (a len : Nat) : Bool := d.passed 3 && decide (a % 4 = 0 ∧ a + len ≤ depotSize)

/-- A write of one chunk to the image window; a refused one counts in FWU_CHUNK_ERR (R382). -/
def chunkWrite (bs : List Byte) (x : Whole) : Bool × Whole :=
  match fwuChunk bs x.1 x.2.2 with
  | some (n, d) => (true, (n, x.2.1, d))
  | none => (false, onD (fun _ _ d => d.count0 R.FWU_CHUNK_ERR 1) x)

/-! ### Class C (R234, R241) -/

/-- Refuse a request. -/
def refuse (x : HostMsg) (code : Nat) (s : Whole) : Whole := onD (fun _ _ d => d.nack x.seq.toNat code 0) s

/-- The answer to a register access that has ended. -/
def Dev.regAnswer (d : Dev) (x : HostMsg) (read : Bool) (st : Status) (v : Word) : Dev :=
  match st with
  | .ok => if read then d.ack x.seq.toNat (wordBytes v) else d.done x []
  | .unmapped => d.nack x.seq.toNat cUnmapped 0
  | _ => d.nack x.seq.toNat cAbort 0

/-- A register access by the transport. -/
def hostWord (x : HostMsg) (wr : Option Word) (s : Whole) : Whole :=
  match access .transport x.addr wr (some (x.seq.toNat, x.noack && wr.isSome)) s with
  | (none, s) => s
  | (some (st, v), s) => onD (fun _ _ d => d.regAnswer x wr.isNone st v) s

/-- REG_RD and REG_WR: BAD_FIELD, RESET, then the access. -/
def hostReg (x : HostMsg) (write : Bool) (s : Whole) : Whole :=
  let d := s.2.2
  if x.len.toNat ≠ (if write then 4 else 0) ∨ x.addr % 4 ≠ 0 then refuse x cBadField s
  else if d.underReset s.1 x.addr then refuse x cReset s
  else hostWord x (if write then some (recWord x.payload 0) else none) s

/-- A request of class C, by its kind: 0 REG_RD, 1 REG_WR, 2 RING_SET, 3 RING_FREE. -/
def classC (kind : Nat) (x : HostMsg) (s : Whole) : Whole :=
  match kind with
  | 0 => hostReg x false s
  | 1 => hostReg x true s
  | 2 => onD (fun _ _ d => d.ringSet x) s
  | _ => onD (fun _ _ d => d.ringFree x) s

/-- Carry out the waiting requests of class C one at a time, in order: the next begins when the one before has completed.  A
request gives its credit back as it is taken up (R240). -/
def serveC : Nat → Whole → Whole
  | 0, s => s
  | fuel + 1, s =>
    let d := s.2.2
    match d.link.waitC with
    | [] => s
    | (kind, x) :: rest =>
      if (d.ra .transport).isSome || d.words.any WordAcc.classC then s
      else serveC fuel (classC kind x (s.1, s.2.1, { d with link := { d.link with waitC := rest } }.raise 0 (unitsOf x)))

def serveAll (s : Whole) : Whole := serveC s.2.2.link.waitC.length s

/-- Receive a message whose CRC passes, where what it does may reach everything. -/
def rxWhole (x : HostMsg) (c : Nat) (f : Whole → Whole) (s : Whole) : Whole :=
  let d := s.2.2
  if d.linkUp ∧ x.seq.toNat = d.link.rxNext then f (s.1, s.2.1, d.rxTake x c) else (s.1, s.2.1, d.rx x c id)

/-- Receive a request of class C. -/
def rxC (kind : Nat) (x : HostMsg) (s : Whole) : Whole :=
  rxWhole x 0 (fun s =>
    serveAll (onD (fun _ _ d => { d with link := { d.link with waitC := d.link.waitC ++ [(kind, x)] } }) s)) s

/-- REG_RD. -/
def execRegRd (msg : HostMsg) (s : State) : Host.Outcome State Fault Refusal := onAll (rxC 0 msg) s
/-- REG_WR. -/
def execRegWr (msg : HostMsg) (s : State) : Host.Outcome State Fault Refusal := onAll (rxC 1 msg) s
/-- RING_SET. -/
def execRingSet (msg : HostMsg) (s : State) : Host.Outcome State Fault Refusal := onAll (rxC 2 msg) s
/-- RING_FREE. -/
def execRingFree (msg : HostMsg) (s : State) : Host.Outcome State Fault Refusal := onAll (rxC 3 msg) s

/-! ### Class B (R203, R235, R241) -/

/-- The Freight range of a block request: the rank of its window, or none for GDDR6; not there: `none`. -/
def Dev.blkRange (d : Dev) (n : Nv) (a len : Nat) : Option (Option Nat) :=
  if stationBase ≤ a ∧ a < stationBase + 2304 * 2 ^ 20 then
    if d.passed 8 ∧ a % 2 ^ 20 + len ≤ 0x60000 then some (some ((a - stationBase) / 2 ^ 20)) else none
  else if gddrBase ≤ a ∧ a + len ≤ gddrBase + d.gddrSize n then some none
  else none

/-- Start the Freight transactions of a block request. -/
def Dev.blkStart (d : Dev) (n : Nv) (x : HostMsg) (a len : Nat) (wr : Option (List Byte)) : Dev :=
  let reqs := (splitAt4K a len).filterMap (fun q => (d.endpointOf n q.1).map (fun e =>
    ({ ep := epHost, typ := if wr.isSome then pWrite else pRead, dst := e, addr := q.1, rdst := 0,
       rcount := if wr.isSome then 0 else q.2, data := ((wr.getD []).drop (q.1 - a)).take q.2,
       owner := .host x.seq.toNat, place := q.1 - a, rdev := none } : FReq)))
  let job : HostJob := { seq := x.seq.toNat, write := wr.isSome, noack := x.noack && wr.isSome, len := len,
                         left := reqs.length, got := [], code := 0, units := unitsOf x }
  ({ d with link := { d.link with jobs := d.link.jobs ++ [job] } }.ask n reqs).finishJobs

/-- Refuse a block request, which frees its place at once. -/
def refuseB (x : HostMsg) (code : Nat) (s : Whole) : Whole := onD (fun _ _ d => d.raise 1 (unitsOf x)) (refuse x code s)

/-- A block request whose form is right. -/
def hostBlk (x : HostMsg) (a len : Nat) (wr : Option (List Byte)) (s : Whole) : Whole :=
  let (n, m, d) := s
  let finish := fun (s : Whole) (data : List Byte) =>
    onD (fun _ _ d => (if wr.isSome then d.done x [] else d.ack x.seq.toNat data).raise 1 (unitsOf x)) s
  if d.resetting then refuseB x cReset s
  else if d.inDepot a len then
    if d.gatedOff a then refuseB x cAbort s
    else if d.banksTested a len then
      (n, m, d.bankWait .transport (.range a len wr) wr.isSome (some (x.seq.toNat, x.noack && wr.isSome)) none)
    else match depotRange a len wr (m, d) with
      | (some data, y) => finish (n, y) data
      | (none, y) => refuseB x cAbort (n, y)
  else if a = imageWindow then
    match wr with
    | none => refuseB x cUnmapped s
    | some bs => match chunkWrite bs s with
      | (true, s) => finish s []
      | (false, s) => refuseB x cAbort s
  else match d.blkRange n a len with
  | none => refuseB x cUnmapped s
  | some r =>
    if d.tpl.waitFreight then refuseB x cBusy s
    else if r.any (fun k => !d.rankHeld n k) then finish s (List.replicate len 0)
    else (n, m, d.blkStart n x a len wr)

def blkCount (len : Nat) : Bool := decide (4 ≤ len ∧ len ≤ 4096 ∧ len % 4 = 0)

/-- BLK_WR. -/
def execBlkWr (msg : HostMsg) (s : State) : Host.Outcome State Fault Refusal :=
  onAll (rxWhole msg 1 (fun s =>
    let len := msg.len.toNat
    if !blkCount len ∨ msg.addr % 4 ≠ 0 then refuseB msg cBadField s
    else hostBlk msg msg.addr len (some (recBytes msg.payload 0 len)) s)) s

/-- BLK_RD. -/
def execBlkRd (msg : HostMsg) (s : State) : Host.Outcome State Fault Refusal :=
  onAll (rxWhole msg 1 (fun s =>
    let count := fld (recWord msg.payload 0) 0 13
    if msg.len.toNat ≠ 4 ∨ !blkCount count ∨ msg.addr % 4 ≠ 0 then refuseB msg cBadField s
    else hostBlk msg msg.addr count none s)) s

/-! ### The sideband (R232) -/

abbrev sbwAddrLo : Nat := 0x10000
abbrev sbwAddrHi : Nat := 0x10004
abbrev sbwData : Nat := 0x10008
abbrev sbwCtrl : Nat := 0x1000C

def Dev.sbwAddr (d : Dev) : Nat := fld (d.mrd .sideband sbwAddrHi) 0 8 * 2 ^ 32 + (d.mrd .sideband sbwAddrLo).toNat

/-- The window address moves on by 4 when bit 0 of XCH_SBW_CTRL is 1. -/
def Dev.sbwAdvance (d : Dev) : Dev :=
  if bit (d.mrd .sideband sbwCtrl) 0 then
    let a := (d.sbwAddr + 4) % 2 ^ 40
    (d.mwr .sideband sbwAddrLo (w32 a)).mwr .sideband sbwAddrHi (w32 (a / 2 ^ 32))
  else d

/-- An access to XCH_SBW_DATA. -/
def sbwAccess (wr : Option Word) (s : Whole) : Answer × Whole :=
  if s.2.2.sbwAddr % 4 ≠ 0 then (notThere, s)
  else
    let (r, s) := access .sideband s.2.2.sbwAddr wr none s
    (r, onD (fun _ _ d => d.sbwAdvance) s)

/-- A word of the vendor register space. -/
def sidebandWord (off : Nat) (wr : Option Word) (s : Whole) : Answer × Whole :=
  let d := s.2.2
  let own := fun (mask : Word) => match wr with
    | some v => (okWord 0, onD (fun _ _ d => d.mwr .sideband off (v &&& mask)) s)
    | none => (okWord (d.mrd .sideband off), s)
  if off % 4 ≠ 0 then (notThere, s)
  else if off < 0x10000 then access .sideband (0x100000000 + off) wr none s
  else if off = sbwAddrLo then own 0xFFFFFFFF#32
  else if off = sbwAddrHi then own 0xFF#32
  else if off = sbwCtrl then own 1#32
  else if off = sbwData then sbwAccess wr s
  else (notThere, s)

/-- A word access that ends later keeps the other word of its 64-bit request, or the number of the access to it. -/
def Dev.noteWide (d : Dev) (id : Nat) (r q : Answer) : Dev :=
  let word := fun (x : Answer) => match x with | some (.ok, v) => [v] | _ => []
  let both := r.isNone && q.isNone
  { d with words := d.words.map (fun (x : WordAcc) =>
      if id ≤ x.id then
        { x with pre := word r, post := word q, twin := if both then some (if x.id = id then id + 1 else id) else none }
      else x) }

/-- What a sideband access comes to: the words read, or the status of the first that failed. -/
def sidebandEnd (wr : Bool) (rs : List Answer) (s : Whole) : Whole :=
  if rs.any (·.isNone) then s
  else
    let st := ((rs.filterMap id).map (·.1)).find? (· != .ok)
    onD (fun _ _ d => match st with
      | some st => d.complete .sideband st []
      | none => d.complete .sideband .ok (if wr then [] else (rs.filterMap id).map (·.2))) s

/-- The word at an offset, and for 64 bits the next. -/
def sidebandAccess (off : Nat) (wide : Bool) (wr : Option (Word × Word)) (s : Whole) : Whole :=
  if !s.2.2.awake then s
  else
    let id := s.2.2.accNext
    let (r, s) := sidebandWord off (wr.map (·.1)) s
    if wide then
      let (q, s) := sidebandWord (off + 4) (wr.map (·.2)) s
      sidebandEnd wr.isSome [r, q] (onD (fun _ _ d => d.noteWide id r q) s)
    else sidebandEnd wr.isSome [r] s

/-- SIDEBAND_MEM_READ. -/
def execSidebandMemRead (off : Word) (wide : Bool) (s : State) : Host.Outcome State Fault Refusal :=
  onAll (fun x => serveAll (sidebandAccess off.toNat wide none x)) s

/-- SIDEBAND_MEM_WRITE. -/
def execSidebandMemWrite (off : Word) (wide : Bool) (lo hi : Word) (s : State) : Host.Outcome State Fault Refusal :=
  onAll (fun x => serveAll (sidebandAccess off.toNat wide (some (lo, hi)) x)) s

/-- SBW_DATA_ACCESS. -/
def execSbwDataAccess (wr : Option Word) (s : State) : Host.Outcome State Fault Refusal :=
  onAll (fun x => if x.2.2.awake then let (r, x) := sbwAccess wr x; serveAll (sidebandEnd wr.isSome [r] x) else x) s

/-! ### Other devices (R408) -/

/-- A command of the trunk link's clock branch that may act on everything. -/
def onTrunk (k : Nat) (f : Whole → Whole) (s : State) : Host.Outcome State Fault Refusal :=
  if s.dev.branchOn 2 k then onAll f s else .next s

/-- Take a message of lane S and handle it. -/
def sHeadWhole (k kind : Nat) (f : SMsg → Whole → Whole) (s : Whole) : Whole :=
  match s.2.2.sTake s.1 k kind with
  | (some x, d) => f x (s.1, s.2.1, d)
  | (none, d) => (s.1, s.2.1, d)

/-- Answer a device's message of a TAG with RSP. -/
def Dev.respond408 (d : Dev) (n : Nv) (dev tag status : Nat) (data : List Byte) : Dev :=
  (d.sendS n { kind := sRsp, sdev := d.device, ddev := dev, tag := tag, len := data.length, status := status, addr := 0,
               payload := data }).1

def statusOf : Status → Nat
  | .ok => 0 | .unmapped => 1 | _ => 2

/-- An access by a remote message: registers and Block words of 4 bytes, Depot memory of 4 to 2,048.  It has a STATUS and data,
or it ends later. -/
def remoteAccess (x : SMsg) (wr : Option (List Byte)) (s : Whole) : Option (Nat × List Byte) × Whole :=
  let (n, m, d) := s
  let len := match wr with | some bs => bs.length | none => x.len
  if d.inDepot x.addr len ∧ 4 ≤ len ∧ len ≤ 2048 then
    if d.gatedOff x.addr then (some (2, []), s)
    else if d.banksTested x.addr len then (none, (n, m, d.bankWait .trunk (.range x.addr len wr) wr.isSome none none))
    else match depotRange x.addr len wr (m, d) with
      | (some data, y) => (some (0, data), (n, y))
      | (none, y) => (some (2, []), (n, y))
  else if x.addr = imageWindow ∧ wr.isSome then
    -- as one BLK_WR: not while units are under reset (R250)
    if d.resetting then (some (2, []), s) else
    let (ok, s) := chunkWrite (wr.getD []) s
    (some (if ok then 0 else 2, []), s)
  else if len ≠ 4 then (some (2, []), s)
  else
    match access .trunk x.addr (wr.map (fun bs => recWord bs 0)) none s with
    | (some (.ok, v), s) => (some (0, if wr.isSome then [] else wordBytes v), s)
    | (some (st, _), s) => (some (statusOf st, []), s)
    | (none, s) => (if s.2.2.accNext = d.accNext then some (2, []) else none, s)

/-- Serve a remote message and answer it, at once or when Freight has carried it out. -/
def remoteServe (x : SMsg) (wr : Option (List Byte)) (s : Whole) : Whole :=
  let id := s.2.2.accNext
  match remoteAccess x wr s with
  | (some (st, data), s) => onD (fun n _ d => d.respond408 n x.sdev x.tag st data) s
  | (none, s) => onD (fun _ _ d => { d with words := d.words.map (fun (y : WordAcc) =>
      if y.id = id then { y with remote := some (x.sdev, x.tag) } else y) }) s

/-- S_MSG_RD. -/
def execSMsgRd (k : Fin 8) (s : State) : Host.Outcome State Fault Refusal :=
  onTrunk k (sHeadWhole k sRd (fun x s => remoteServe x none s)) s

/-- S_MSG_WR. -/
def execSMsgWr (k : Fin 8) (s : State) : Host.Outcome State Fault Refusal :=
  onTrunk k (fun s => serveAll (sHeadWhole k sWr (fun x s => remoteServe x (some (recBytes x.payload 0 x.len)) s) s)) s

/-- S_MSG_RSP (R408): the answer to a master's access, or to one of the engine's; the host's next access of class C follows
its own. -/
def execSMsgRsp (k : Fin 8) (s : State) : Host.Outcome State Fault Refusal :=
  onTrunk k (fun s => serveAll (sHeadWhole k sRsp (fun x s => (s.1, distRsp s.1 x (s.2.1, s.2.2.raDone x))) s)) s

/-! ### Accesses that end later than they began (R18, R241, R287) -/

/-- The host's answer to an access that has ended; one of class B gives its credit back. -/
def Dev.wordAnswer (d : Dev) (x : WordAcc) (seq : Nat) (noack : Bool) (r : Nat × List Byte) : Dev :=
  let d := match x.bank with
    | some op => if x.classC then d else d.raise 1 op.units
    | none => d
  if r.1 = 0 then (if x.wr && noack then d else d.ack seq (if x.wr then [] else r.2))
  else d.nack seq (if r.1 = 1 then cUnmapped else if r.1 = 2 then cFreight else cAbort) 0

/-- Tell whoever waits for a word access how it ended. -/
def Dev.wordDone (d : Dev) (n : Nv) (x : WordAcc) (r : Nat × List Byte) : Dev :=
  match x.master, x.host, x.remote, x.desc with
  | .sb c, _, _, _ => d.coreAnswer c x.id (if r.1 = 0 then .done r.2 else .fatal)
  | _, some (seq, noack), _, _ => d.wordAnswer x seq noack r
  | _, _, some (dev, tag), _ => d.respond408 n dev tag (min r.1 2) (if r.1 = 0 ∧ !x.wr then r.2 else [])
  | _, _, _, some id => d.sdOne id (if r.1 = 0 then 0 else 4)
  | m, _, _, _ =>
    d.complete m (if r.1 = 0 then .ok else if r.1 = 1 then .unmapped else .abort)
      (if r.1 = 0 ∧ !x.wr then x.pre ++ [recWord r.2 0] ++ x.post else [])

/-- The access to the other word of a 64-bit request, if it ends later too. -/
def Dev.twinOf (d : Dev) (x : WordAcc) : Option WordAcc := x.twin.bind (fun j => d.words.find? (fun y => y.id == j))

/-- How an access and its twin ended together: the first word is that of the lower number; none while the twin goes on, and
for the second of two. -/
def Dev.endedWith (d : Dev) (x : WordAcc) : Option (WordAcc × (Nat × List Byte)) :=
  match x.ended, d.twinOf x with
  | none, _ => none
  | some r, none => some (x, r)
  | some r, some y => match y.ended with
    | none => none
    | some q =>
      if y.id < x.id then none
      else if r.1 ≠ 0 then some (x, r)
      else if q.1 ≠ 0 then some (x, q)
      else some ({ x with post := [recWord q.2 0] }, r)

/-- The word accesses that have ended are done, and the host's next request of class C follows its own. -/
def finishWords (s : Whole) : Whole :=
  let d := s.2.2
  if d.words.all (fun x => x.ended.isNone) then s
  else
    let done := d.words.filterMap d.endedWith
    let goes := fun (x : WordAcc) => x.ended.isSome && (d.twinOf x).all (fun y => y.ended.isSome)
    let d := { d with words := d.words.filter (fun x => !goes x) }
    serveAll (s.1, s.2.1, done.foldl (fun (d : Dev) q => d.wordDone s.1 q.1 q.2) d)

/-- An access that waited for a bank is carried out once the bank is under no test. -/
def bankGoes (x : Mem × Dev) (y : WordAcc) : Mem × Dev :=
  match y.bank with
  | none => x
  | some (.word kind off be wr) =>
    if x.2.banksTested off 4 then x
    else
      let (r, (m, d)) := depotWord kind off be wr x
      (m, d.endWord y.id (match r with | some (.ok, v) => (0, wordBytes v) | _ => (3, [])))
  | some (.range off len wr) =>
    if x.2.banksTested off len then x
    else
      let (r, (m, d)) := depotRange off len wr x
      (m, d.endWord y.id (match r with | some bs => (0, bs) | none => (3, [])))

/-- RA_TIMEOUT: no RSP within 200 µs. -/
def execRaTimeout (m : Master) (s : State) : Host.Outcome State Fault Refusal :=
  onAll (fun s => serveAll (onD (fun _ _ d => match d.ra m with | some x => d.raFail m x | none => d) s)) s

end Sys2Proof.Machine
end

