-- ==== Sys2Proof/Machine/CoreAccess.lean ====
section
/-! DEFINITION. Accesses of the Signal Box cores at core addresses (R271, R273 to R275): local memories, the boot ROM, Depot
memory, the sliding window, register space, and station memories and GDDR6 by Freight. -/

namespace Sys2Proof.Machine

/-! ### The core address map (Table 13-2) -/

/-- What lies at a core address: a device address, a byte of a local memory (its core and place, R272), the boot ROM. -/
inductive CoreTarget where
  | device (a : Nat)
  | local_ (core off : Nat)
  | rom (off : Nat)
  | closed
  | nothing
deriving DecidableEq, Repr

/-- The local memories of another core that SB0 sees from 0x3800_0000: ILM and DLM of core k. -/
def otherLocal (ca : Nat) : Option (Nat × Nat) :=
  let k := (ca - 0x38000000) / 0x200000
  let o := (ca - 0x38000000) % 0x200000
  if ca < 0x38000000 ∨ k = 0 ∨ 8 ≤ k then none
  else if o < 0x10000 then some (k, o)
  else if 0x100000 ≤ o ∧ o < 0x110000 then some (k, o - 0x100000 + 0x10000)
  else none

/-- Core address `ca` as core `n` sees it, under its SBWIN. -/
def Core.target (c : Core) (n ca : Nat) : CoreTarget :=
  if ca < depotSize ∨ (0x10000000 ≤ ca ∧ ca < 0x10000000 + depotSize) ∨ (0x20000000 ≤ ca ∧ ca < 0x20000000 + depotSize) then
    .device ca
  else if 0x30000000 ≤ ca ∧ ca < 0x30008000 then if n = 0 then .rom (ca - 0x30000000) else .closed
  else if 0x30100000 ≤ ca ∧ ca < 0x30110000 then .local_ n (ca - 0x30100000)
  else if 0x30200000 ≤ ca ∧ ca < 0x30210000 then .local_ n (ca - 0x30200000 + 0x10000)
  else if 0x40000000 ≤ ca ∧ ca < 0x80000000 then .device (fld c.sbwin 0 10 * 0x40000000 + (ca - 0x40000000))
  else if 0x80000000 ≤ ca ∧ ca < 0x90000000 then .device (0x100000000 + (ca - 0x80000000))
  else match otherLocal ca with
    | some (k, o) => if n = 0 then .local_ k o else .closed
    | none => .nothing

/-! ### Ends of an access -/

/-- The data of an access out of the lanes of its word. -/
def fromLanes (ca width : Nat) (v : Word) : Word := w32 (fld v (8 * (ca % 4)) (8 * width))

/-- The access completes, or takes an access fault. -/
def Dev.coreEnd (d : Dev) (n : Fin 8) (wr : Bool) (data : List Word) : Dev :=
  d.complete (.sb n) .ok (if wr then [] else data)
/-- An access that R273 forbids. -/
def Dev.coreForbids (d : Dev) (n : Fin 8) (wr : Bool) (ca : Word) : Dev := (d.denied n).coreFails n wr ca

/-- Exception codes of the RISC-V privileged specification for misaligned accesses, which R271 has raised. -/
abbrev misalignedLoad : Nat := 4
abbrev misalignedStore : Nat := 6

/-! ### At device addresses -/

/-- An access of a core that has reached a device address. -/
def coreDevice (n : Fin 8) (a : Nat) (ca : Word) (width : Nat) (wr : Option Word) (x : Whole) : Whole :=
  let (nv, m, d) := x
  let w := wr.isSome
  let word := a / 4 * 4
  let fails := fun (x : Whole) => onD (fun _ _ d => d.coreFails n w ca) x
  let ends := fun (x : Whole) (v : Word) => onD (fun _ _ d => d.coreEnd n w [fromLanes ca.toNat width v]) x
  if d.coreDenied n w word || (w && writeClosed word n) then (nv, m, d.coreForbids n w ca)
  else match d.targetOf nv word with
  | .unmapped => fails x
  | .depot kind off =>
    if d.gate nv (.sb n) w word ≠ .open_ then fails x
    else
      let (r, y) := depotAccess (.sb n) kind off (lanes ca.toNat width) ca width (wr.map (toLanes ca.toNat)) none (m, d)
      match r with
      | some (.ok, v) => ends (nv, y) v
      | none => (nv, y)
      | _ => fails (nv, y)
  | .gddr _ => (nv, m, d.coreFreight nv n a ca width wr)
  | t =>
    let memory := match t with | .station _ off => decide (off < 0x60000) | _ => false
    if memory then
      match d.gate nv (.sb n) w word with
      | .open_ => (nv, m, d.coreFreight nv n a ca width wr)
      | .zero => ends x 0
      | _ => fails x
    else if width ≠ 4 then fails x
    else match access (.sb n) word wr none x with
    | (none, y) => y
    | (some (.ok, v), y) => ends y v
    | (some _, y) => fails y

/-- An access of a core that can make one, in a mode. -/
def coreWindow (n : Fin 8) (ca : Word) (width : Nat) (wr : Option Word) (x : Whole) : Whole :=
  let (nv, m, d) := x
  let w := wr.isSome
  let c := d.core n
  if ca.toNat % width ≠ 0 then
    (nv, m, (d.updCore n (fun c => c.trap false (if w then misalignedStore else misalignedLoad) ca)).complete (.sb n) .fault [])
  else match c.target n ca.toNat with
  | .nothing => (nv, m, d.coreFails n w ca)
  | .closed => (nv, m, d.coreForbids n w ca)
  | .rom off =>
    if !c.machine then (nv, m, d.coreForbids n w ca)
    else if w then (nv, m, d.coreEnd n w [])
    else (nv, m, d.coreEnd n w [w32 (recNat Config.bootRom off width)])
  | .local_ k off =>
    if k ≠ n ∧ !c.machine then (nv, m, d.coreForbids n w ca)
    else match wr with
    | some v => (nv, m, ({ d with coreMem := writeBytes zeroByte d.coreMem (coreKey k off) (leBytes width v.toNat) }).coreEnd n w [])
    | none => (nv, m, d.coreEnd n w [w32 (leNat (readBytes zeroByte d.coreMem (coreKey k off) width))])
  | .device a => coreDevice n a ca width wr x

/-- CORE_WINDOW_ACCESS: a load or store of 1, 2 or 4 bytes, in the mode the core is in. -/
def execCoreWindowAccess (n : Fin 8) (user : Bool) (ca : Word) (width : Nat) (wr : Option Word) (s : State) :
    Host.Outcome State Fault Refusal :=
  onAll (fun x =>
    if x.2.2.coreActs n ∧ (width = 1 ∨ width = 2 ∨ width = 4) then
      serveAll (coreWindow n ca width wr (onD (fun _ _ d => d.updCore n (fun c => { c with machine := !user })) x))
    else x) s

end Sys2Proof.Machine
end

