-- ==== Sys2Proof/Machine/Pins.lean ====
section
/-! DEFINITION. The board's side: SMBus (R434, R435) and the JTAG TAP (R436). -/

namespace Sys2Proof.Machine

/-! ### Output pins -/

/-- What CLKOBS carries (R340): none while it is held low, else the clock of Table 16-4 and its divisor. -/
def Dev.clkObs (d : Dev) : Option (Nat × Nat) :=
  let w := d.rd R.CLK_OBS
  let src := fld w 0 7
  if bit w 15 && (decide (src ≤ 11) || decide (64 ≤ src)) then some (src, fld w 16 16 + 1) else none

/-- The level of CLKOBS in a cycle of the selected clock, whose own level is `clk` (R340). -/
def clkObsLevel (div cycle : Nat) (clk : Bool) : Bool := if div = 1 then clk else decide (cycle % div < div / 2)

/-- SMB_ALERT_N is driven low (R435). -/
def Dev.alertLow (d : Dev) : Bool := d.f R.PIN_BC_ALERT 0 5 &&& d.f R.PIN_BC_ALERT 16 5 != 0 && !d.araDone

/-- THERMTRIP_N is released (R352, R430). -/
def Dev.thermtripN (d : Dev) : Bool := !bit (d.rd R.PWR_STATE) 29

/-- GD_RESET_N of streamer `s` is high (R428). -/
def Dev.gdResetN (d : Dev) (s : Nat) : Bool := d.boot.gdReleased.getLsbD s

/-- SD_VSEL is high (R433). -/
def Dev.sdVsel (d : Dev) : Bool := d.fwu.vsel

/-- What the device does to a VDDIO pin: nothing (high impedance, or an open drain released), a pull, or a level. -/
inductive Pad where
  | highZ | pullUp | pullDown | low | high
deriving DecidableEq, Repr

/-- The kinds of VDDIO pins (R430). -/
inductive PadKind where
  | gpio (p : Nat) | clkObs | qspiCs | qspi | sdVsel | sd | smbus | smbAlert | avsbus | thermtrip | trst | tdo
deriving DecidableEq, Repr

/-- The pins hold their reset states from the rise of VDDIO until stage 0 ends; a COLD or WARM reset is one act of the model
(R430). -/
def PadKind.reset : PadKind → Pad
  | .gpio _ | .trst => .pullDown
  | .clkObs => .low
  | .qspiCs => .pullUp
  | .qspi | .sdVsel | .sd | .smbus | .smbAlert | .avsbus | .thermtrip | .tdo => .highZ

def Pad.ofLevel (l : Bool) : Pad := if l then .high else .low

/-- What a pin shows: its reset state; afterwards what the block behind it makes of it, none where a bus transfer that the model
does not follow moves it (R340, R352, R430 to R435, Table 20-6). -/
def Dev.pad (d : Dev) (k : PadKind) : Option Pad :=
  if !d.awake then some k.reset
  else match k with
  | .gpio p => some (if d.pinDriven p then .ofLevel (d.pinRaw p) else
      match d.f (R.PIN_CFG + 4 * p) 8 2 with | 1 => .pullDown | 2 => .pullUp | _ => .highZ)
  | .clkObs => if d.clkObs.isSome then none else some .low
  | .sdVsel => some (.ofLevel d.sdVsel)
  | .smbAlert => some (if d.alertLow then .low else .highZ)
  | .thermtrip => some (if d.thermtripN then .highZ else .low)
  | .trst => some .pullDown
  | .qspiCs => if d.fwuState = 0 then some .pullUp else none
  | .qspi | .sd | .smbus | .avsbus | .tdo => none

/-! ### SMBus -/

/-- CRC-8 of SMBus packet error checking, polynomial x⁸ + x² + x + 1 (log entry 13). -/
def pecBit (c : BitVec 8) : BitVec 8 := if c.getLsbD 7 then (c <<< 1) ^^^ 0x07#8 else c <<< 1
def pecByte (c b : BitVec 8) : BitVec 8 := (List.range 8).foldl (fun c _ => pecBit c) (c ^^^ b)
def pecOf (bs : List Byte) : BitVec 8 := bs.foldl pecByte 0

/-- The bytes of a write as the bus carries them before its PEC: address with the write bit, command, data. -/
def Nv.smbBytes (n : Nv) (cmd : Nat) (data : List Byte) : List Byte :=
  BitVec.ofNat 8 (2 * (0x58 + n.smbAddr.toNat)) :: BitVec.ofNat 8 cmd :: data

/-- How a write ends. -/
def Nv.pecUse (n : Nv) (cmd : Nat) (data : List Byte) (pec : Pec) : PecUse :=
  match pec with
  | some p => if p = pecOf (n.smbBytes cmd data) then .right else .wrong
  | none => .absent

/-- Whether a write takes effect: its PEC is right, or it has none and PIN_SMB_CFG asks for none. -/
def Dev.pecOk (d : Dev) (u : PecUse) : Bool :=
  match u with
  | .right => true
  | .wrong => false
  | .absent => !bit (d.rd R.PIN_SMB_CFG) 0

/-- A write that ends so: SMBus is served from the end of stage 0; a write whose PEC fails only counts. -/
def smbEnds (u : PecUse) (f : Whole → Whole) (x : Whole) : Whole :=
  if !x.2.2.awake then x
  else if x.2.2.pecOk u then f x
  else onD (fun _ _ d => d.count0 R.PIN_SMB_ERR 1) x

/-- A write with the PEC that it shows, or with none. -/
def smbWrite (cmd : Nat) (data : List Byte) (pec : Pec) (f : Whole → Whole) (x : Whole) : Whole :=
  let u := x.1.pecUse cmd data pec
  smbEnds u f (onD (fun _ _ d => { d with smbUse := u }) x)

/-- The blocks that SMBus reaches: SYS, CLK, PWR and PIN. -/
def smbReach (a : Nat) : Bool := decide (0x100000000 ≤ a ∧ a < 0x100030000) || decide (0x1000F0000 ≤ a ∧ a < 0x100100000)

/-- A word access by the board controller: STATUS 0 done, 1 refused, 2 abort, and the value. -/
def smbAccess (a : Nat) (wr : Option Word) (x : Whole) : Nat × Word × Whole :=
  if !smbReach a then (1, 0, x)
  else match access .smbus a wr none x with
  | (some (.ok, v), x) => (0, v, x)
  | (some (.unmapped, _), x) => (1, 0, x)
  | (_, x) => (2, 0, x)

/-- The blocks of a Block Write as the bus carries them: the byte count, then the bytes. -/
def blockOf (bs : List Byte) : List Byte := BitVec.ofNat 8 bs.length :: bs

/-- The address byte of a read. -/
def Nv.smbReadByte (n : Nv) : Byte := BitVec.ofNat 8 (2 * (0x58 + n.smbAddr.toNat) + 1)

/-- The PEC that follows a read, when the controller clocks one more byte: over what the bus has carried, `sent` before the
repeated start and `got` after the address byte of the read. -/
def Nv.smbPec (n : Nv) (cmd : Nat) (sent got : List Byte) : Word :=
  (pecOf (n.smbBytes cmd sent ++ n.smbReadByte :: got)).setWidth 32

/-- SMB_READ32: the answer is STATUS and the value, and the PEC where the controller clocks one more byte. -/
def execSmbRead32 (a : Addr) (more : Bool) (s : State) : Host.Outcome State Fault Refusal :=
  onAll (fun x =>
    if !x.2.2.awake then x
    else
      let (st, v, x) := smbAccess a.toNat none x
      let pec := if more then [x.1.smbPec 1 (blockOf (leBytes 5 a.toNat)) (blockOf (leBytes 1 st ++ wordBytes v))] else []
      onD (fun _ _ d => d.complete .smbus (if st = 0 then .ok else if st = 1 then .unmapped else .abort) ([w32 st, v] ++ pec)) x) s

/-- SMB_WRITE32: the outcome stands in PIN_SMB_WSTAT. -/
def execSmbWrite32 (a : Addr) (v : Word) (pec : Pec) (s : State) : Host.Outcome State Fault Refusal :=
  onAll (smbWrite 2 (blockOf (leBytes 5 a.toNat ++ wordBytes v)) pec (fun x =>
    let (st, _, x) := smbAccess a.toNat (some v) x
    serveAll (onD (fun _ _ d => d.setF R.PIN_SMB_WSTAT 0 8 st) x))) s

/-- SMB_WSTAT: the status, and the PEC that one more byte clocked would bring (log entry 13). -/
def execSmbWstat (s : State) : Host.Outcome State Fault Refusal :=
  onDev (fun n _ d =>
    let v := d.f R.PIN_SMB_WSTAT 0 8
    if d.awake then d.complete .smbus .ok [w32 v, n.smbPec 3 [] (leBytes 1 v)] else d) s

/-- SMB_WAKE: wake cause 5; a Send Byte is a write, which ends as the controller's last write did (log entry 13). -/
def execSmbWake (s : State) : Host.Outcome State Fault Refusal :=
  onAll (fun x => smbEnds x.2.2.smbUse (onD (fun _ _ d => d.wake 5)) x) s

/-- SMB_TELEMETRY: 16 bytes, and the PEC that one more byte clocked would bring. -/
def execSmbTelemetry (s : State) : Host.Outcome State Fault Refusal :=
  onDev (fun n _ d =>
    let vs := [R.PWR_TEMP_MAX, R.PWR_VFAB_MEAS, R.PWR_STATE, R.SYS_BOOT_STAGE].map (fun a => d.regValue n .smbus a)
    if d.awake then
      d.complete .smbus .ok (vs ++ [n.smbPec 5 [] (blockOf (vs.map wordBytes).flatten)])
    else d) s

/-- SMB_NOTIFY: the byte with VALID, and source 106. -/
def execSmbNotify (b : Byte) (pec : Pec) (s : State) : Host.Outcome State Fault Refusal :=
  onAll (smbWrite 6 [b] pec (onD (fun _ _ d => (d.wr R.PIN_BC_MSG (w32 (2 ^ 8 + b.toNat))).irq1 106))) s

/-- SMB_RESET: a reset request with SOURCE 4, or STATUS 1. -/
def execSmbReset (kind : BitVec 8) (pec : Pec) (s : State) : Host.Outcome State Fault Refusal :=
  onAll (smbWrite 7 [kind] pec (fun x =>
    match kind.toNat with
    | 1 => onMD (fun n y => strongReset n 1 .smbus y) x
    | 2 => onMD (fun n y => strongReset n 2 .smbus y) x
    | 3 => serveAll (onMD (fun n y => computeRequest n .smbus y) x)
    | _ => onD (fun _ _ d => d.setF R.PIN_SMB_WSTAT 0 8 1) x)) s

/-- SMB_ARA: the device that alerts answers with its own address and releases the pin. -/
def execSmbAra (s : State) : Host.Outcome State Fault Refusal :=
  onDev (fun n _ d =>
    if d.alertLow then ({ d with araDone := true }).complete .smbus .ok [w32 (0x58 + n.smbAddr.toNat)] else d) s

/-! ### JTAG -/

abbrev irExtest : BitVec 5 := 0x00
abbrev irIdcode : BitVec 5 := 0x01
abbrev irSample : BitVec 5 := 0x02
abbrev irRegAccess : BitVec 5 := 0x10
abbrev irBypass : BitVec 5 := 0x1F

/-- Select an instruction; EXTEST alone drives the pins. -/
def Dev.jtagIr (d : Dev) (ir : BitVec 5) : Dev := { d with jtag := { d.jtag with ir := ir, drives := ir == irExtest } }

/-- An access of JTAG is in progress: a remote one, or one that Freight carries out. -/
def Dev.jtagBusy (d : Dev) : Bool := (d.ra .jtag).isSome || d.words.any (fun x => x.master == .jtag)

/-- STATUS of the last access, and the word it read: 0 done, 1 unmapped, 2 abort, 3 in progress. -/
def Dev.jtagResult (d : Dev) : Nat × Word :=
  let c := d.completion .jtag
  if d.jtagBusy then (3, 0) else (statusOf c.status, c.data.headD 0)

/-- JTAG_REG_ACCESS: Update-DR starts an access unless one is in progress. -/
def execJtagRegAccess (wr : Bool) (a : Addr) (v : Word) (s : State) : Host.Outcome State Fault Refusal :=
  onAll (fun x =>
    let x := onD (fun _ _ d =>
      let d := d.jtagIr irRegAccess
      { d with jtag := { d.jtag with dr := BitVec.ofNat 75 ((if wr then 2 ^ 72 else 0) + a.toNat * 2 ^ 32 + v.toNat) } }) x
    if x.2.2.jtagBusy ∨ !x.2.2.awake then x else serveAll (accessOf .jtag a.toNat (if wr then some v else none) x)) s

/-- A command of the TAP alone, which TCK clocks: it needs the rails, not SBCLK. -/
def onTap (f : Dev → Dev) (s : State) : Host.Outcome State Fault Refusal := onPower (fun _ x => (x.1, f x.2)) s

/-- JTAG_CAPTURE_DR: the result of the last access, in the REG_ACCESS register. -/
def execJtagCaptureDr (s : State) : Host.Outcome State Fault Refusal :=
  onTap (fun d =>
    let d := d.jtagIr irRegAccess
    let (st, v) := d.jtagResult
    { d with jtag := { d.jtag with dr := BitVec.ofNat 75 (st * 2 ^ 73 + d.jtag.dr.toNat / 2 ^ 32 % 2 ^ 41 * 2 ^ 32 + v.toNat) } }) s

/-- JTAG_IDCODE: the data register captures SYS_ID. -/
def execJtagIdcode (s : State) : Host.Outcome State Fault Refusal :=
  onTap (fun d =>
    let d := d.jtagIr irIdcode
    { d with jtag := { d.jtag with dr := (d.rd R.SYS_ID).setWidth 75 } }) s

/-- JTAG_EXTEST: the boundary-scan register drives the VDDIO pins. -/
def execJtagExtest (pins : BitVec 64) (s : State) : Host.Outcome State Fault Refusal :=
  onTap (fun d =>
    let d := d.jtagIr irExtest
    { d with jtag := { d.jtag with bscan := pins } }) s

/-- JTAG_SAMPLE_PRELOAD: the register takes the pins' levels at Capture-DR, in the data register, and a preloaded value at
Update-DR. -/
def execJtagSamplePreload (pins : BitVec 64) (s : State) : Host.Outcome State Fault Refusal :=
  onTap (fun d =>
    let d := d.jtagIr irSample
    { d with jtag := { d.jtag with dr := w32 (maskOf ((List.range 16).filter (fun p => d.pinRaw p))) |>.setWidth 75,
                                   bscan := pins } }) s

/-- JTAG_BYPASS: the one-bit register, which captures 0. -/
def execJtagBypass (s : State) : Host.Outcome State Fault Refusal :=
  onTap (fun d =>
    let d := d.jtagIr irBypass
    { d with jtag := { d.jtag with dr := 0 } }) s

end Sys2Proof.Machine
end

