-- ==== Sys2Proof/Machine/Tick.lean ====
section
/-! DEFINITION. Where transactions of the Freight network end (R205, R206), and what time alone brings about. -/

namespace Sys2Proof.Machine

/-- A command that may end transactions: word accesses among them are then done. -/
def endsWords (f : Nv → Mem × Dev → Mem × Dev) (x : Whole) : Whole :=
  let y := f x.1 (x.2.1, x.2.2)
  finishWords (x.1, y.1, y.2)

/-- FREIGHT_PACKET_ARRIVAL (R205). -/
def execFreightPacketArrival (i : Nat) (err : PacketError) (s : State) : Host.Outcome State Fault Refusal :=
  onAll (endsWords (fun n x => arrivePacket n i err x)) s

/-- FREIGHT_RESPONSE (R206): the packet is a response. -/
def execFreightResponse (i : Nat) (err : PacketError) (s : State) : Host.Outcome State Fault Refusal :=
  onAll (endsWords (fun n x =>
    if (x.2.packets[i]?).any (fun k => isResponse k.typ) then arrivePacket n i err x else x)) s

/-- FREIGHT_TIMEOUT (R206). -/
def execFreightTimeout (ep : Nat) (txn : Nat) (s : State) : Host.Outcome State Fault Refusal :=
  onAll (endsWords (fun n x => freightTimeout n ep txn x)) s

/-! ### Commands after which requests of class C may go on -/

/-- RESET_COMPUTE (R364, R365). -/
def execResetCompute (src : ResetSource) (s : State) : Host.Outcome State Fault Refusal :=
  onAll (fun x => serveAll (x.1, computeRequest x.1 src (x.2.1, x.2.2))) s

/-- RESET_SECTION (R366). -/
def execResetSection (src : ResetSource) (window : Fin 4096) (s : State) : Host.Outcome State Fault Refusal :=
  onAll (fun x => serveAll (onD (fun n _ d => d.sectionRequest n src window) x)) s

/-- STAGE_END (R354). -/
def execStageEnd (rep : StageReport) (s : State) : Host.Outcome State Fault Refusal :=
  onAll (fun x => serveAll (stageEnds rep x)) s

/-! ### The end of a march run (R287, R289) -/

/-- Banks may be under no test any more: the accesses that waited for them are carried out in order, those that wait no longer
count their conflicts, and what else waited goes on. -/
def banksFree (x : Whole) : Whole :=
  if x.2.2.mbt.isSome then x
  else
    let y := (x.2.2.words.filter (fun y => y.ended.isNone)).foldl bankGoes (x.2.1, x.2.2)
    let y : Mem × Dev := Dev.qntAdvance x.1 (y.1, y.2.bankGone (fun _ => true))
    let y := match y.2.tpl.imageWait with
      | some patch => tplImage x.1 patch y
      | none => y
    let y := distResume x.1 (topoResume x.1 y)
    let x : Whole := if y.2.fwu.setWait then fwuSetRead (x.1, y) else (x.1, y)
    finishWords x

/-- MBT_CANCEL (R289). -/
def execMbtCancel (s : State) : Host.Outcome State Fault Refusal :=
  onAll (fun x => banksFree (x.1, mbtStop (x.2.1, x.2.2))) s

/-- MBT_RUN_END (R289). -/
def execMbtRunEnd (fails : List MarchFail) (s : State) : Host.Outcome State Fault Refusal :=
  onAll (fun x => banksFree (x.1, mbtFinish fails (x.2.1, x.2.2))) s

/-! ### Time -/

/-- The limit of an access by Freight, 100 µs in units of 10 ns (R25, R275). -/
abbrev accessLimit : Nat := 10000

/-- An access whose limit is that of R25: a core's, which R275 limits only where Freight carries it out, and the Signal DMA's
are not. -/
def WordAcc.limited (x : WordAcc) : Bool := x.desc.isNone && (match x.master with | .sb _ => false | _ => true)

/-- Accesses that are not complete within their limit (R25, R241). -/
def Dev.wordsLate (d : Dev) : List WordAcc :=
  d.words.filter (fun x => x.limited && x.ended.isNone && decide (x.since + accessLimit ≤ d.now))

/-- The Freight access of a core that is not complete within its limit (R275). -/
def Dev.coreLate (d : Dev) (n : Nat) : Option Nat :=
  match (d.core n).blocked with
  | some (.freight id _ _ _ since) =>
    if since + accessLimit ≤ d.now && !d.words.any (fun x => x.id == id) then some id else none
  | _ => none

/-- The accesses whose limit has passed end, with no state change: those of cores raise an access fault. -/
def accessLimits (x : Whole) : Whole :=
  finishWords (onD (fun n _ d =>
    let d := d.wordsLate.foldl (fun (d : Dev) x => (d.withdraw n x.id).endWord x.id (3, [])) d
    let waits := fun (no : Nat) => no == 8 || d.words.any (fun x =>
      x.bank.isSome && x.ended.isNone && (if x.desc.isSome then depotSdma else depotNo x.master) == no)
    let d := d.bankGone (fun no => !waits no && d.bankHeld.any (fun q => q.1 == no) && no != depotSdma)
    (List.range 8).foldl (fun (d : Dev) k => match d.coreLate k with
      | some id => ((d.disown (fun r => r.owner == .core k id)).serveSlots n).coreAnswer k id .fatal
      | none => d) d) x)

/-- Instructions are fetched only from the ILM of the core, and by SB0 in machine mode from the boot ROM too (R273, R274). -/
def Core.fetches (c : Core) (n : Nat) : Bool :=
  decide (0x30100000 ≤ c.pc.toNat ∧ c.pc.toNat < 0x30110000)
    || (n == 0 && c.machine && decide (0x30000000 ≤ c.pc.toNat ∧ c.pc.toNat < 0x30008000))

/-- R273 forbids the core the place its pc names: such a fetch counts in DENY. -/
def Dev.fetchDenied (d : Dev) (n : Nat) : Bool :=
  let c := d.core n
  match c.target n c.pc.toNat with
  | .closed => true
  | .rom _ => !c.machine
  | .local_ k _ => k != n && !c.machine
  | .device a => d.coreDenied n false (a / 4 * 4)
  | .nothing => false

/-- A core that would fetch its next instruction from anywhere else. -/
def Dev.strays (d : Dev) (n : Nat) : Bool := d.coreActs n && !(d.core n).fetches n

/-- Such a core takes an instruction access fault; one whose trap vector lies outside too is at it already. -/
def Dev.fetchFaults (d : Dev) : Dev :=
  (List.range 8).foldl (fun (d : Dev) n =>
    if d.strays n then
      (if d.fetchDenied n then d.denied n else d).updCore n (fun c => c.trap false faultFetch c.pc)
    else d) d

/-- The QSPI device or the SD card has done with its present piece of a session's work (R381, R383, log entry 52). -/
def Dev.storeDue (d : Dev) : Bool := d.fwuState != 0 && Config.storeReady d.now

/-- The session goes on. -/
def storeTurn (x : Whole) : Whole :=
  if x.2.2.storeDue then let y := fwuAdvance x.1 x.2.2; (y.1, x.2.1, y.2) else x

/-- The reset that has become due: its kind and source. -/
def Dev.resetDue (d : Dev) : Option (Nat × ResetSource) :=
  d.rst.due.bind (fun q => if q.1 ≤ d.now then some q.2 else none)

/-- A reset that has become due begins.  The one that the FWU block requests is requested then (R386); it may be refused (R364). -/
def dueReset (x : Whole) : Whole :=
  match x.2.2.resetDue with
  | some (kind, src) =>
    let y : Mem × Dev := (x.2.1, { x.2.2 with rst := { x.2.2.rst with due := none } })
    let why := y.2.rstWhy kind
    (x.1, if kind = 1 then coldReset x.1 (sourceCode src) y
      else if src = .sb0 ∧ why ≠ 0 then (y.1, y.2.rstRefuse why)
      else warmReset x.1 (sourceCode src) y)
  | none => x

/-- Something falls due at this moment. -/
def Dev.anyDue (d : Dev) : Bool :=
  d.wordsLate != [] || d.pinsMove || (List.range 8).any d.strays || (List.range 8).any (fun k => (d.coreLate k).isSome)
    || d.resetDue.isSome || d.storeDue

/-- Ten nanoseconds pass without a command (log entry 1): accesses reach their limits, pin filters sample, cores meet fetch
faults (log entry 19), and a reset that has become due begins. -/
def idle (s : State) : Host.Outcome State Fault Refusal :=
  let d := { s.dev with now := s.dev.now + 1 }
  if d.anyDue then
    let x := dueReset (storeTurn (onD (fun _ _ d => d.pinsSample.fetchFaults) (accessLimits (s.nv, s.mem, d))))
    .next { s with nv := x.1, mem := x.2.1, dev := x.2.2.settle }
  else .next { s with dev := d }

end Sys2Proof.Machine
end

