-- ==== Sys2Proof/Machine/Dispatch.lean ====
section
/-! DEFINITION. One arm for each command: a direct call of its meaning. -/

namespace Sys2Proof.Machine

def exec (i : Instr) (s : State) : Host.Outcome State Fault Refusal :=
  match i with
  | .regWrite a0 a1 a2 a3 => Sys2Proof.Machine.execRegWrite a0 a1 a2 a3 s
  | .broadcastWindowWrite a0 a1 a2 => Sys2Proof.Machine.execBroadcastWindowWrite a0 a1 a2 s
  | .sectionWindowAccess a0 a1 a2 => Sys2Proof.Machine.execSectionWindowAccess a0 a1 a2 s
  | .tplLoad => Sys2Proof.Machine.execTplLoad s
  | .tplPatch => Sys2Proof.Machine.execTplPatch s
  | .tplGo => Sys2Proof.Machine.execTplGo s
  | .tplHold => Sys2Proof.Machine.execTplHold s
  | .tplRelease => Sys2Proof.Machine.execTplRelease s
  | .tplStop => Sys2Proof.Machine.execTplStop s
  | .tplCancel => Sys2Proof.Machine.execTplCancel s
  | .loadRoundEnd a0 => Sys2Proof.Machine.execLoadRoundEnd a0 s
  | .holdDrained => Sys2Proof.Machine.execHoldDrained s
  | .stopComplete => Sys2Proof.Machine.execStopComplete s
  | .drainLimitExpiry => Sys2Proof.Machine.execDrainLimitExpiry s
  | .rankTableSwitch a0 => Sys2Proof.Machine.execRankTableSwitch a0 s
  | .junctionEntryStage a0 a1 a2 a3 a4 => Sys2Proof.Machine.execJunctionEntryStage a0 a1 a2 a3 a4 s
  | .junctionEntryCommit a0 a1 a2 a3 => Sys2Proof.Machine.execJunctionEntryCommit a0 a1 a2 a3 s
  | .descriptorWrite a0 a1 a2 a3 a4 => Sys2Proof.Machine.execDescriptorWrite a0 a1 a2 a3 a4 s
  | .modCfgWrite a0 a1 a2 a3 => Sys2Proof.Machine.execModCfgWrite a0 a1 a2 a3 s
  | .modValueWrite a0 a1 a2 a3 => Sys2Proof.Machine.execModValueWrite a0 a1 a2 a3 s
  | .stepBoundary a0 => Sys2Proof.Machine.execStepBoundary a0 s
  | .stretchLimitExpiry a0 => Sys2Proof.Machine.execStretchLimitExpiry a0 s
  | .stepRelease a0 => Sys2Proof.Machine.execStepRelease a0 s
  | .openingPass a0 a1 => Sys2Proof.Machine.execOpeningPass a0 a1 s
  | .sweepVisit a0 a1 => Sys2Proof.Machine.execSweepVisit a0 a1 s
  | .plasticRowSweep a0 a1 => Sys2Proof.Machine.execPlasticRowSweep a0 a1 s
  | .emissionSend a0 a1 => Sys2Proof.Machine.execEmissionSend a0 a1 s
  | .junctionArrival a0 a1 a2 a3 => Sys2Proof.Machine.execJunctionArrival a0 a1 a2 a3 s
  | .eventDeliver a0 => Sys2Proof.Machine.execEventDeliver a0 s
  | .modulatorArrival a0 => Sys2Proof.Machine.execModulatorArrival a0 s
  | .consumptionNotice => Sys2Proof.Machine.execConsumptionNotice s
  | .lossNotice => Sys2Proof.Machine.execLossNotice s
  | .injectTurn a0 => Sys2Proof.Machine.execInjectTurn a0 s
  | .inputClose a0 => Sys2Proof.Machine.execInputClose a0 s
  | .creditReduction a0 a1 => Sys2Proof.Machine.execCreditReduction a0 a1 s
  | .westEdgeArrival a0 a1 a2 => Sys2Proof.Machine.execWestEdgeArrival a0 a1 a2 s
  | .offGridArrival a0 a1 a2 a3 => Sys2Proof.Machine.execOffGridArrival a0 a1 a2 a3 s
  | .eastEdgeThru a0 a1 a2 => Sys2Proof.Machine.execEastEdgeThru a0 a1 a2 s
  | .edgeIdxWrite a0 a1 => Sys2Proof.Machine.execEdgeIdxWrite a0 a1 s
  | .edgeEntryCommit a0 a1 => Sys2Proof.Machine.execEdgeEntryCommit a0 a1 s
  | .stepQuietArrival a0 a1 => Sys2Proof.Machine.execStepQuietArrival a0 a1 s
  | .summaryArrival a0 => Sys2Proof.Machine.execSummaryArrival a0 s
  | .walkBegin a0 a1 => Sys2Proof.Machine.execWalkBegin a0 a1 s
  | .sumWaitExpiry a0 a1 => Sys2Proof.Machine.execSumWaitExpiry a0 a1 s
  | .walkEntry a0 a1 => Sys2Proof.Machine.execWalkEntry a0 a1 s
  | .readClose a0 => Sys2Proof.Machine.execReadClose a0 s
  | .pageReadComplete a0 a1 => Sys2Proof.Machine.execPageReadComplete a0 a1 s
  | .deliverySend a0 => Sys2Proof.Machine.execDeliverySend a0 s
  | .streamTokenIdle a0 => Sys2Proof.Machine.execStreamTokenIdle a0 s
  | .walkEnd a0 a1 => Sys2Proof.Machine.execWalkEnd a0 a1 s
  | .stepAbandonArrival a0 a1 => Sys2Proof.Machine.execStepAbandonArrival a0 a1 s
  | .consistEndArrival a0 a1 => Sys2Proof.Machine.execConsistEndArrival a0 a1 s
  | .pageLand a0 => Sys2Proof.Machine.execPageLand a0 s
  | .freightHop a0 => Sys2Proof.Machine.execFreightHop a0 s
  | .freightPacketArrival a0 a1 => Sys2Proof.Machine.execFreightPacketArrival a0 a1 s
  | .stationFreightWrite a0 => Sys2Proof.Machine.execStationFreightWrite a0 s
  | .freightResponse a0 a1 => Sys2Proof.Machine.execFreightResponse a0 a1 s
  | .freightTimeout a0 a1 => Sys2Proof.Machine.execFreightTimeout a0 a1 s
  | .qntStart => Sys2Proof.Machine.execQntStart s
  | .qntCancel => Sys2Proof.Machine.execQntCancel s
  | .qntJobEnd => Sys2Proof.Machine.execQntJobEnd s
  | .prjLoad a0 => Sys2Proof.Machine.execPrjLoad a0 s
  | .prjUnload a0 => Sys2Proof.Machine.execPrjUnload a0 s
  | .prjLoadEnd a0 => Sys2Proof.Machine.execPrjLoadEnd a0 s
  | .prjBatchRun a0 => Sys2Proof.Machine.execPrjBatchRun a0 s
  | .prjBatchEnd a0 => Sys2Proof.Machine.execPrjBatchEnd a0 s
  | .prjTokenIdle a0 => Sys2Proof.Machine.execPrjTokenIdle a0 s
  | .tokenGrant => Sys2Proof.Machine.execTokenGrant s
  | .tokenWaitExpiry a0 => Sys2Proof.Machine.execTokenWaitExpiry a0 s
  | .sidebandMemRead a0 a1 => Sys2Proof.Machine.execSidebandMemRead a0 a1 s
  | .sidebandMemWrite a0 a1 a2 a3 => Sys2Proof.Machine.execSidebandMemWrite a0 a1 a2 a3 s
  | .sbwDataAccess a0 => Sys2Proof.Machine.execSbwDataAccess a0 s
  | .link a0 a1 a2 a3 a4 => Sys2Proof.Machine.execLink a0 a1 a2 a3 a4 s
  | .regRd a0 => Sys2Proof.Machine.execRegRd a0 s
  | .regWr a0 => Sys2Proof.Machine.execRegWr a0 s
  | .blkWr a0 => Sys2Proof.Machine.execBlkWr a0 s
  | .blkRd a0 => Sys2Proof.Machine.execBlkRd a0 s
  | .evtIn a0 => Sys2Proof.Machine.execEvtIn a0 s
  | .valIn a0 => Sys2Proof.Machine.execValIn a0 s
  | .modIn a0 => Sys2Proof.Machine.execModIn a0 s
  | .ringSet a0 => Sys2Proof.Machine.execRingSet a0 s
  | .ringFree a0 => Sys2Proof.Machine.execRingFree a0 s
  | .msgToDevice a0 => Sys2Proof.Machine.execMsgToDevice a0 s
  | .messageSend a0 => Sys2Proof.Machine.execMessageSend a0 s
  | .replayTimeout a0 => Sys2Proof.Machine.execReplayTimeout a0 s
  | .linkRetrain a0 a1 => Sys2Proof.Machine.execLinkRetrain a0 a1 s
  | .creditReport => Sys2Proof.Machine.execCreditReport s
  | .ackLinkSend => Sys2Proof.Machine.execAckLinkSend s
  | .recordPlace a0 => Sys2Proof.Machine.execRecordPlace a0 s
  | .encCfgWrite a0 a1 a2 => Sys2Proof.Machine.execEncCfgWrite a0 a1 a2 s
  | .decCfgWrite a0 a1 a2 => Sys2Proof.Machine.execDecCfgWrite a0 a1 a2 s
  | .membraneWaitExpiry a0 => Sys2Proof.Machine.execMembraneWaitExpiry a0 s
  | .sbRun a0 a1 a2 => Sys2Proof.Machine.execSbRun a0 a1 a2 s
  | .coreWindowAccess a0 a1 a2 a3 a4 => Sys2Proof.Machine.execCoreWindowAccess a0 a1 a2 a3 a4 s
  | .depotSetAliasWrite a0 a1 a2 a3 => Sys2Proof.Machine.execDepotSetAliasWrite a0 a1 a2 a3 s
  | .depotClearAliasWrite a0 a1 a2 a3 => Sys2Proof.Machine.execDepotClearAliasWrite a0 a1 a2 a3 s
  | .sdmaSubmit a0 a1 => Sys2Proof.Machine.execSdmaSubmit a0 a1 s
  | .sdmaStart => Sys2Proof.Machine.execSdmaStart s
  | .sdmaComplete a0 => Sys2Proof.Machine.execSdmaComplete a0 s
  | .sdmaCplRead a0 => Sys2Proof.Machine.execSdmaCplRead a0 s
  | .mbtStart => Sys2Proof.Machine.execMbtStart s
  | .mbtCancel => Sys2Proof.Machine.execMbtCancel s
  | .mbtRunEnd a0 => Sys2Proof.Machine.execMbtRunEnd a0 s
  | .chnStageWrite a0 a1 a2 a3 => Sys2Proof.Machine.execChnStageWrite a0 a1 a2 a3 s
  | .chnPush a0 a1 a2 a3 => Sys2Proof.Machine.execChnPush a0 a1 a2 a3 s
  | .chnPop a0 a1 a2 => Sys2Proof.Machine.execChnPop a0 a1 a2 s
  | .chnStallExpiry a0 => Sys2Proof.Machine.execChnStallExpiry a0 s
  | .chnParkRetry a0 a1 => Sys2Proof.Machine.execChnParkRetry a0 a1 s
  | .chnParkDiscard a0 a1 => Sys2Proof.Machine.execChnParkDiscard a0 a1 s
  | .rpyHostDrain a0 => Sys2Proof.Machine.execRpyHostDrain a0 s
  | .blkOpWrite a0 a1 a2 => Sys2Proof.Machine.execBlkOpWrite a0 a1 a2 s
  | .blkOpRead a0 a1 => Sys2Proof.Machine.execBlkOpRead a0 a1 s
  | .blkCfgWrite a0 a1 a2 => Sys2Proof.Machine.execBlkCfgWrite a0 a1 a2 s
  | .irqPendSetWrite a0 a1 a2 => Sys2Proof.Machine.execIrqPendSetWrite a0 a1 a2 s
  | .irqPendClrWrite a0 a1 a2 => Sys2Proof.Machine.execIrqPendClrWrite a0 a1 a2 s
  | .irqEnSetWrite a0 a1 a2 => Sys2Proof.Machine.execIrqEnSetWrite a0 a1 a2 s
  | .irqEnClrWrite a0 a1 a2 => Sys2Proof.Machine.execIrqEnClrWrite a0 a1 a2 s
  | .irqLineRise a0 => Sys2Proof.Machine.execIrqLineRise a0 s
  | .irqModTimeExpiry a0 => Sys2Proof.Machine.execIrqModTimeExpiry a0 s
  | .stnIrqReport a0 => Sys2Proof.Machine.execStnIrqReport a0 s
  | .pinEdge a0 a1 => Sys2Proof.Machine.execPinEdge a0 a1 s
  | .irqPinCfgWrite a0 a1 a2 => Sys2Proof.Machine.execIrqPinCfgWrite a0 a1 a2 s
  | .timerPeriodEvent a0 => Sys2Proof.Machine.execTimerPeriodEvent a0 s
  | .timerCompare a0 => Sys2Proof.Machine.execTimerCompare a0 s
  | .timerWrap a0 => Sys2Proof.Machine.execTimerWrap a0 s
  | .timerCaptureEdge a0 a1 => Sys2Proof.Machine.execTimerCaptureEdge a0 a1 s
  | .tmrCapture a0 => Sys2Proof.Machine.execTmrCapture a0 s
  | .tmrStart a0 => Sys2Proof.Machine.execTmrStart a0 s
  | .tmrStop a0 => Sys2Proof.Machine.execTmrStop a0 s
  | .tmrReload a0 => Sys2Proof.Machine.execTmrReload a0 s
  | .tmrGstart a0 => Sys2Proof.Machine.execTmrGstart a0 s
  | .tmrGstop a0 => Sys2Proof.Machine.execTmrGstop a0 s
  | .tmrGstagger a0 => Sys2Proof.Machine.execTmrGstagger a0 s
  | .tmrHiStage a0 a1 a2 a3 => Sys2Proof.Machine.execTmrHiStage a0 a1 a2 a3 s
  | .tmrCountCommit a0 a1 a2 => Sys2Proof.Machine.execTmrCountCommit a0 a1 a2 s
  | .tmrPeriodCommit a0 a1 a2 => Sys2Proof.Machine.execTmrPeriodCommit a0 a1 a2 s
  | .tmrPhaseCommit a0 a1 a2 => Sys2Proof.Machine.execTmrPhaseCommit a0 a1 a2 s
  | .tmrCmpCommit a0 a1 a2 => Sys2Proof.Machine.execTmrCmpCommit a0 a1 a2 s
  | .tmrCapRead a0 a1 a2 => Sys2Proof.Machine.execTmrCapRead a0 a1 a2 s
  | .clkSwitch a0 a1 => Sys2Proof.Machine.execClkSwitch a0 a1 s
  | .clkSwitchComplete a0 => Sys2Proof.Machine.execClkSwitchComplete a0 s
  | .clkSwitchHang a0 => Sys2Proof.Machine.execClkSwitchHang a0 s
  | .islandReset a0 => Sys2Proof.Machine.execIslandReset a0 s
  | .xchFloorWrite a0 => Sys2Proof.Machine.execXchFloorWrite a0 s
  | .xchRatioStep => Sys2Proof.Machine.execXchRatioStep s
  | .sbclkStop => Sys2Proof.Machine.execSbclkStop s
  | .sbclkReturn => Sys2Proof.Machine.execSbclkReturn s
  | .clkMonUpdate a0 => Sys2Proof.Machine.execClkMonUpdate a0 s
  | .clkFreqUpdate a0 => Sys2Proof.Machine.execClkFreqUpdate a0 s
  | .hsmUpdate a0 => Sys2Proof.Machine.execHsmUpdate a0 s
  | .vfabTargetWrite a0 => Sys2Proof.Machine.execVfabTargetWrite a0 s
  | .vfabStepReady a0 => Sys2Proof.Machine.execVfabStepReady a0 s
  | .vfabReadyTimeout a0 => Sys2Proof.Machine.execVfabReadyTimeout a0 s
  | .avsAlert => Sys2Proof.Machine.execAvsAlert s
  | .vfabTelemetry a0 a1 => Sys2Proof.Machine.execVfabTelemetry a0 a1 s
  | .pwrSleepReq => Sys2Proof.Machine.execPwrSleepReq s
  | .pwrDeepReq => Sys2Proof.Machine.execPwrDeepReq s
  | .pwrWakeReq => Sys2Proof.Machine.execPwrWakeReq s
  | .pwrStateEntry => Sys2Proof.Machine.execPwrStateEntry s
  | .pwrEntryTimeout => Sys2Proof.Machine.execPwrEntryTimeout s
  | .wakeCauseEvent a0 => Sys2Proof.Machine.execWakeCauseEvent a0 s
  | .pwrWakeTimeExpiry => Sys2Proof.Machine.execPwrWakeTimeExpiry s
  | .tempSample a0 => Sys2Proof.Machine.execTempSample a0 s
  | .vddAonRise => Sys2Proof.Machine.execVddAonRise s
  | .bringNext => Sys2Proof.Machine.execBringNext s
  | .bringAll => Sys2Proof.Machine.execBringAll s
  | .bringRetry => Sys2Proof.Machine.execBringRetry s
  | .bringRerun a0 => Sys2Proof.Machine.execBringRerun a0 s
  | .autoWrite a0 => Sys2Proof.Machine.execAutoWrite a0 s
  | .stageEnd a0 => Sys2Proof.Machine.execStageEnd a0 s
  | .resetCold a0 => Sys2Proof.Machine.execResetCold a0 s
  | .resetWarm a0 => Sys2Proof.Machine.execResetWarm a0 s
  | .resetCompute a0 => Sys2Proof.Machine.execResetCompute a0 s
  | .resetSection a0 a1 => Sys2Proof.Machine.execResetSection a0 a1 s
  | .resetDone => Sys2Proof.Machine.execResetDone s
  | .fwuBegin => Sys2Proof.Machine.execFwuBegin s
  | .fwuStartSd a0 => Sys2Proof.Machine.execFwuStartSd a0 s
  | .fwuCancel => Sys2Proof.Machine.execFwuCancel s
  | .fwuSelect a0 => Sys2Proof.Machine.execFwuSelect a0 s
  | .fwuSetWrite => Sys2Proof.Machine.execFwuSetWrite s
  | .fwuCustkey => Sys2Proof.Machine.execFwuCustkey s
  | .fwuSessionEnd a0 => Sys2Proof.Machine.execFwuSessionEnd a0 s
  | .fwuHealthOk a0 => Sys2Proof.Machine.execFwuHealthOk a0 s
  | .healthTimerExpiry => Sys2Proof.Machine.execHealthTimerExpiry s
  | .secAttest => Sys2Proof.Machine.execSecAttest s
  | .attestDone => Sys2Proof.Machine.execAttestDone s
  | .luRx a0 a1 => Sys2Proof.Machine.execLuRx a0 a1 s
  | .trunkRtoExpiry a0 a1 => Sys2Proof.Machine.execTrunkRtoExpiry a0 a1 s
  | .trkRetrain a0 a1 => Sys2Proof.Machine.execTrkRetrain a0 a1 s
  | .trkWake a0 => Sys2Proof.Machine.execTrkWake a0 s
  | .remotePacketRx a0 => Sys2Proof.Machine.execRemotePacketRx a0 s
  | .trkRaDataAccess a0 a1 => Sys2Proof.Machine.execTrkRaDataAccess a0 a1 s
  | .raTimeout a0 => Sys2Proof.Machine.execRaTimeout a0 s
  | .sMsgRd a0 => Sys2Proof.Machine.execSMsgRd a0 s
  | .sMsgWr a0 => Sys2Proof.Machine.execSMsgWr a0 s
  | .sMsgRsp a0 => Sys2Proof.Machine.execSMsgRsp a0 s
  | .sMsgRecord a0 => Sys2Proof.Machine.execSMsgRecord a0 s
  | .tokenIdent a0 => Sys2Proof.Machine.execTokenIdent a0 s
  | .tokenTopo a0 => Sys2Proof.Machine.execTokenTopo a0 s
  | .tokenSysok a0 => Sys2Proof.Machine.execTokenSysok a0 s
  | .tokenSysfail a0 => Sys2Proof.Machine.execTokenSysfail a0 s
  | .tokenLinkdown a0 => Sys2Proof.Machine.execTokenLinkdown a0 s
  | .tokenRelease a0 => Sys2Proof.Machine.execTokenRelease a0 s
  | .tokenProbe a0 => Sys2Proof.Machine.execTokenProbe a0 s
  | .tokenReport a0 => Sys2Proof.Machine.execTokenReport a0 s
  | .tokenQuiet a0 => Sys2Proof.Machine.execTokenQuiet a0 s
  | .tokenDone a0 => Sys2Proof.Machine.execTokenDone a0 s
  | .tokenAbandon a0 => Sys2Proof.Machine.execTokenAbandon a0 s
  | .tokenFault a0 => Sys2Proof.Machine.execTokenFault a0 s
  | .tokenMod a0 => Sys2Proof.Machine.execTokenMod a0 s
  | .tokenWake a0 => Sys2Proof.Machine.execTokenWake a0 s
  | .formTimeout => Sys2Proof.Machine.execFormTimeout s
  | .trkReform => Sys2Proof.Machine.execTrkReform s
  | .distPlan => Sys2Proof.Machine.execDistPlan s
  | .distFirmware => Sys2Proof.Machine.execDistFirmware s
  | .distGo => Sys2Proof.Machine.execDistGo s
  | .distCancel => Sys2Proof.Machine.execDistCancel s
  | .distWorkerAck a0 a1 => Sys2Proof.Machine.execDistWorkerAck a0 a1 s
  | .smbRead32 a0 a1 => Sys2Proof.Machine.execSmbRead32 a0 a1 s
  | .smbWrite32 a0 a1 a2 => Sys2Proof.Machine.execSmbWrite32 a0 a1 a2 s
  | .smbWstat => Sys2Proof.Machine.execSmbWstat s
  | .smbWake => Sys2Proof.Machine.execSmbWake s
  | .smbTelemetry => Sys2Proof.Machine.execSmbTelemetry s
  | .smbNotify a0 a1 => Sys2Proof.Machine.execSmbNotify a0 a1 s
  | .smbReset a0 a1 => Sys2Proof.Machine.execSmbReset a0 a1 s
  | .smbAra => Sys2Proof.Machine.execSmbAra s
  | .jtagRegAccess a0 a1 a2 => Sys2Proof.Machine.execJtagRegAccess a0 a1 a2 s
  | .jtagCaptureDr => Sys2Proof.Machine.execJtagCaptureDr s
  | .jtagIdcode => Sys2Proof.Machine.execJtagIdcode s
  | .jtagExtest a0 => Sys2Proof.Machine.execJtagExtest a0 s
  | .jtagSamplePreload a0 => Sys2Proof.Machine.execJtagSamplePreload a0 s
  | .jtagBypass => Sys2Proof.Machine.execJtagBypass s
  | .timerTick a0 => Sys2Proof.Machine.execTimerTick a0 s
  | .messageDiscarded a0 a1 => Sys2Proof.Machine.execMessageDiscarded a0 a1 s
  | .replayReqRepeat => Sys2Proof.Machine.execReplayReqRepeat s
  | .disallowedMessageType a0 => Sys2Proof.Machine.execDisallowedMessageType a0 s
  | .nakRepeat a0 => Sys2Proof.Machine.execNakRepeat a0 s
  | .gddr6AccessComplete a0 a1 => Sys2Proof.Machine.execGddr6AccessComplete a0 a1 s
  | .forwardedClockLoss => Sys2Proof.Machine.execForwardedClockLoss s
  | .sbclkStart => Sys2Proof.Machine.execSbclkStart s
  | .powerRemoved => Sys2Proof.Machine.execPowerRemoved s

end Sys2Proof.Machine
end

