-- ==== Sys2Proof/WellFormed.lean ====
section
/-! DEFINITION. Which commands are well formed: the operands that stand for what came in from outside have a shape that the
spec gives them.  What a sender may do with a well-formed command is the meanings' concern, not this file's; `exec` is
total, so an ill-formed command has a meaning too, and no statement rests on it. -/

namespace Sys2Proof

/-- A message's payload has LEN bytes (Table 11-2). -/
def HostMsg.wf (m : HostMsg) : Bool := m.payload.length == m.len.toNat

/-- A message of one type (Table 11-3). -/
def HostMsg.wfAs (typ : BitVec 4) (m : HostMsg) : Bool := m.wf && m.typ == typ

/-- The TYPE codes that Table 11-3 does not let the host send. -/
def notToDevice (typ : BitVec 4) : Bool := [0xB#4, 0xC#4, 0xD#4, 0xE#4, 0xF#4].contains typ

/-- A module trains in one width, and repairs lanes only where it trained (R231). -/
def TrainOutcome.wf (t : TrainOutcome) : Bool :=
  t.modulesX64 &&& t.modulesX32 == 0 && t.repaired &&& ~~~(t.modulesX64 ||| t.modulesX32) == 0

/-- A failing instance has at least one failing row (R288). -/
def MarchFail.wf (f : MarchFail) : Bool := f.rows != 0

/-- Channels and links train only where they are fitted or have a partner; positions lie in the grid (R354). -/
def StageReport.wf (r : StageReport) : Bool :=
  r.train.wf && r.chTrained &&& ~~~r.chFitted == 0 && r.trkTrained &&& ~~~r.trkPartner == 0
    && r.unrepaired.all (fun p => decide (p.1.toNat < 48) && decide (p.2.toNat < 48)) && r.fails.all MarchFail.wf

/-- A card that does not answer, or whose volume is not FAT32, shows no file (R383). -/
def SdCard.wf (c : SdCard) : Bool := c.file.isNone || (c.answers && c.fat32)

/-- A link unit has 64 bytes (R399). -/
def LinkUnit.wf (u : LinkUnit) : Bool := u.bytes.length == 64

/-- An access of a core is a byte, a half or a word wide (R271). -/
def coreWidth (w : Nat) : Bool := w == 1 || w == 2 || w == 4

/-- The ranks that failed a round are ranks (R47). -/
def ranksWf (rs : List Nat) : Bool := rs.all (fun r => decide (r < 2304))

/-- A command whose operands have the shapes of the spec. -/
def Instr.wellFormed : Instr → Bool
  | .loadRoundEnd bad => ranksWf bad
  | .regRd m => m.wfAs 0x1
  | .regWr m => m.wfAs 0x2
  | .blkWr m => m.wfAs 0x3
  | .blkRd m => m.wfAs 0x4
  | .evtIn m => m.wfAs 0x5
  | .valIn m => m.wfAs 0x6
  | .modIn m => m.wfAs 0x7
  | .ringSet m => m.wfAs 0x8
  | .ringFree m => m.wfAs 0x9
  | .msgToDevice m => m.wfAs 0xA
  | .messageDiscarded m _ => m.wf
  | .disallowedMessageType m => m.wf && notToDevice m.typ
  | .replayTimeout t => t.wf
  | .linkRetrain _ t => t.wf
  | .coreWindowAccess _ _ _ w _ => coreWidth w
  | .mbtRunEnd fs => fs.all MarchFail.wf
  | .clkFreqUpdate cs => cs.length == 10
  | .hsmUpdate cs => cs.length == 64
  | .tempSample ts => ts.length == 64
  | .stageEnd r => r.wf
  | .fwuStartSd c => c.wf
  | .luRx _ u => u.wf
  | _ => true

end Sys2Proof
end

