-- ==== Sys2Proof/Safety.lean ====
section
/-! DEFINITION. What a safe run is, in the terms that the statements use. -/

namespace Sys2Proof.Machine

/-- Every sparse store of bulk memory is in canonical form: keys strictly rising, no pair equal to what an unlisted key reads
as.  An unlisted Depot byte reads as zero, an unlisted GDDR6 byte as the free byte of the era (log entry 3). -/
def Mem.wf (m : Mem) : Bool :=
  PMap.wf zeroByte m.depot && PMap.wf zeroNat m.depotErr && PMap.wf m.gddrDflt m.gddr

/-- Every command that waits is well formed. -/
def State.queueWf (s : State) : Bool := s.pending.all Instr.wellFormed

/-- What the fuses and straps fix stays (Table 17-6): all but the NOR device's contents, a customer key hash, which once programmed
stays too (R391), and the rollback count, which never falls (R387). -/
def Nv.keeps (a b : Nv) : Prop :=
  b = { a with qspi := b.qspi, custHash := b.custHash, rollback := b.rollback }
    ∧ (a.custHash ≠ 0 → b.custHash = a.custHash) ∧ a.rollback ≤ b.rollback

/-- An access of a master to a device address reaches its target: the rails are up, SBCLK runs, and neither R3, R273, R287
nor R335 turns it away. -/
abbrev State.opens (s : State) (m : Master) (wr : Bool) (a : Nat) : Prop :=
  s.dev.clocked = true ∧ s.dev.gate s.nv m wr a = .open_

/-- The unit of clock branch `b` of island `i` runs (R335). -/
abbrev State.runs (s : State) (i b : Nat) : Prop := s.dev.clocked = true ∧ s.dev.branchOn i b = true

/-- A control register can be written: its clock branch runs. -/
abbrev State.takes (s : State) (a : Nat) : Prop := s.dev.clocked = true ∧ s.dev.gatedOff a = false

/-- The fabric makes handshakes: the rails are up and the device is not in DEEP (R337, Table 16-8). -/
abbrev State.fabricOn (s : State) : Prop := s.dev.powered = true ∧ s.dev.f R.PWR_STATE 30 2 ≠ 2

/-- Every interrupt line that is up has a source pending and enabled for its target (R312), and every level source that is
asserted is pending (R308). -/
abbrev State.irqSettled (s : State) : Prop :=
  (∀ t, t < 9 → s.dev.irq.dset t = 0 → s.dev.irq.line.getLsbD t = false)
    ∧ ∀ k ∈ levelSources, s.dev.asserted k = true → s.dev.irq.pend.getLsbD k = true

/-- A command answers a next state, and the state has a property. -/
def Answers (o : Host.Outcome State Fault Refusal) (p : State → Prop) : Prop := ∃ t, o = .next t ∧ p t

end Sys2Proof.Machine
end

