-- ==== Sys2Proof/Certificates/Slice0/Obligations.lean ====
section
/-! DEFINITION. The statements for the provers, by family of commands.  A statement about a register write assumes that the
write reaches its register (`State.opens`, `State.takes`), one about a unit that its clock branch runs (`State.runs`), and one
about the fabric that it makes handshakes (`State.fabricOn`). -/

open Sys2Proof Sys2Proof.Machine

/-! ### The machine as a whole -/

/-- A step with a command waiting is that command, carried out on the state with the queue's rest. -/
def Obligations.StepTakesFront : Prop :=
  ∀ (c : Instr) (s : State), step { s with pending := c :: s.pending } = exec c s

/-- No command stops the block: every one, in every state, answers a next state, and leaves the queue as it is.
With nothing waiting the block idles: 10 ns pass. Where nothing falls due, nothing else happens; a WARM or COLD reset that has
become due begins, and is counted as the one in progress (the model's choice: log entry 1).
Rests on model choices: log entries 1, 2, 52. -/
def Obligations.EveryCommandAnswers : Prop :=
  (∀ (i : Instr) (s : State), ∃ t, exec i s = .next t ∧ t.pending = s.pending)
  ∧ (∀ s : State, s.pending = [] →
        let d : Dev := { s.dev with now := s.dev.now + 1 }
        (d.anyDue = false → step s = .next { s with dev := d })
        ∧ (∀ t k r, s.dev.rst.due = some (t, k, r) → t ≤ d.now → (k = 1 ∨ k = 2 ∧ r ≠ .sb0) → s.dev.words = [] → s.dev.bankHeld = [] →
          ({ d with rst := { d.rst with due := none } } : Dev).anyDue = false →
          ∃ u, step s = .next u ∧ u.pending = [] ∧ u.nv = s.nv ∧ u.dev.f R.SYS_RST_STATUS 24 3 = k
            ∧ u.dev.f R.SYS_RST_STATUS 20 4 = sourceCode r))

/-- The state after reset has every invariant that the statements below keep. -/
def Obligations.ResetHoldsInvariants : Prop :=
  State.reset.mem.wf = true ∧ State.reset.irqSettled ∧ State.reset.queueWf = true ∧ State.reset.dev.clocked = true

/-- Interrupt lines and level sources stay settled over every step (R308, R312). -/
def Obligations.StepKeepsIrqSettled : Prop :=
  ∀ s t : State, s.irqSettled → step s = .next t → t.irqSettled

/-- The bulk memories keep their canonical form over every step. -/
def Obligations.StepKeepsMemoryCanonical : Prop :=
  ∀ s t : State, s.mem.wf = true → step s = .next t → t.mem.wf = true

/-- What the fuses fix stays, with a customer key hash once programmed (R391), and the rollback count never falls (R387), over
every step: of what is kept without power, a step changes at most the NOR device, an unprogrammed key hash and that count
(Table 17-6). -/
def Obligations.StepKeepsFuses : Prop :=
  ∀ s t : State, step s = .next t → s.nv.keeps t.nv

/-- Without the rails or SBCLK no command has an effect, but those of the fabric, which goes on without SBCLK, the TAP, the reset
pins, and the rails and SBCLK themselves.
Rests on model choices: log entry 17. -/
def Obligations.NothingWithoutClocks : Prop :=
  ∀ (i : Instr) (s t : State), s.dev.clocked = false → exec i s = .next t →
    (match i with
     | .openingPass .. | .sweepVisit .. | .plasticRowSweep .. | .emissionSend .. | .junctionArrival .. | .eventDeliver ..
     | .modulatorArrival .. | .stepQuietArrival .. | .pageLand .. | .freightHop .. | .stationFreightWrite ..
     | .resetCold .. | .resetWarm .. | .jtagCaptureDr | .jtagIdcode | .jtagExtest .. | .jtagSamplePreload .. | .jtagBypass
     | .sbclkReturn | .sbclkStart | .vddAonRise | .powerRemoved => True
     | _ => t = s)

/-! ### Frames -/

/-- Only the commands named change Depot memory, GDDR6, and what the device keeps without power: accesses and copies that may
store there, tests, resets, bring-up and firmware sessions.
Rests on model choices: log entry 3. -/
def Obligations.OnlyTheseStoreInMemory : Prop :=
  ∀ (s u : State) (i : Instr), exec i s = .next u →
    (match i with
       | .regWrite .. | .broadcastWindowWrite .. | .sectionWindowAccess .. | .freightPacketArrival .. | .freightResponse ..
       | .freightTimeout .. | .qntJobEnd | .tokenGrant | .tokenWaitExpiry .. | .sidebandMemRead .. | .sidebandMemWrite ..
       | .sbwDataAccess .. | .regRd .. | .regWr .. | .blkWr .. | .blkRd .. | .ringSet .. | .ringFree .. | .coreWindowAccess ..
       | .depotSetAliasWrite .. | .depotClearAliasWrite .. | .sdmaStart | .mbtCancel | .mbtRunEnd .. | .islandReset ..
       | .bringNext | .bringAll | .bringRetry | .bringRerun .. | .autoWrite .. | .stageEnd .. | .resetCompute ..
       | .resetSection .. | .raTimeout .. | .sMsgRd .. | .sMsgWr .. | .sMsgRsp .. | .smbRead32 .. | .smbWrite32 ..
       | .smbReset .. | .jtagRegAccess .. | .powerRemoved => True
       | _ => u.mem.depot = s.mem.depot)
    ∧ (match i with
       | .regWrite .. | .broadcastWindowWrite .. | .sectionWindowAccess .. | .freightPacketArrival .. | .freightResponse ..
       | .freightTimeout .. | .sidebandMemRead .. | .sidebandMemWrite .. | .sbwDataAccess .. | .regRd .. | .regWr ..
       | .ringSet .. | .ringFree .. | .coreWindowAccess .. | .mbtCancel | .mbtRunEnd .. | .islandReset .. | .vddAonRise
       | .stageEnd .. | .resetCold .. | .resetWarm .. | .resetCompute .. | .resetSection .. | .raTimeout .. | .sMsgRd ..
       | .sMsgWr .. | .sMsgRsp .. | .smbRead32 .. | .smbWrite32 .. | .smbReset .. | .jtagRegAccess .. | .gddr6AccessComplete ..
       | .powerRemoved => True
       | _ => u.mem.gddr = s.mem.gddr ∧ u.mem.gddrEra = s.mem.gddrEra)
    ∧ (match i with
       | .regWrite .. | .broadcastWindowWrite .. | .sectionWindowAccess .. | .freightPacketArrival .. | .freightResponse ..
       | .freightTimeout .. | .sidebandMemRead .. | .sidebandMemWrite .. | .sbwDataAccess .. | .regRd .. | .regWr ..
       | .blkWr .. | .blkRd .. | .ringSet .. | .ringFree .. | .coreWindowAccess .. | .mbtCancel | .mbtRunEnd .. | .stageEnd ..
       | .resetCompute .. | .resetSection .. | .fwuBegin | .fwuStartSd .. | .fwuSelect .. | .fwuCustkey | .fwuSessionEnd ..
       | .fwuHealthOk .. | .healthTimerExpiry | .raTimeout .. | .sMsgRd .. | .sMsgWr .. | .sMsgRsp .. | .smbRead32 ..
       | .smbWrite32 .. | .smbReset .. | .jtagRegAccess .. => True
       | _ => u.nv = s.nv)

/-- The timer block: nothing but the channels, the masters' stages, latches and completions, and the aggregator; a core also where
its access faults. Of the registers only those of TMR, and DENY of a core.
What the commands of the timer block leave alone: everything but the timers, their registers, the masters' stages, latches and
completions, and the aggregator; and of the registers only TMR_STATUS of the 32 channels.
The Signal Blocks, their channels, the aggregator, and the queue of Signal DMA.
What the commands of Blocks leave alone: all but registers, the sender's completion and the aggregator; and of the registers
all but the Block's VALUE and CFG and those of a refusal.
What the channel commands of a core, the stall limit and the host's drain leave alone. -/
def Obligations.UnitCommandsFrame : Prop :=
  (∀ (s u : State) (i : Instr),
      (match i with
       | .timerPeriodEvent .. | .timerCompare .. | .timerWrap .. | .timerCaptureEdge .. | .tmrCapture .. | .tmrStart ..
       | .tmrStop .. | .tmrReload .. | .tmrGstart .. | .tmrGstop .. | .tmrGstagger .. | .tmrHiStage .. | .tmrCountCommit ..
       | .tmrPeriodCommit .. | .tmrPhaseCommit .. | .tmrCmpCommit .. | .tmrCapRead .. | .timerTick .. => True
       | _ => False) → exec i s = .next u →
      u = { s with dev := { s.dev with
          regs := u.dev.regs, mregs := u.dev.mregs, latches := u.dev.latches, compl := u.dev.compl,
          cores := u.dev.cores, irq := u.dev.irq, timers := u.dev.timers } }
      ∧ ∀ a, a / 0x10000 ∉ [0x10000, 0x10004] → u.dev.rd a = s.dev.rd a)
  ∧ (∀ (s u : State) (i : Instr),
        (match i with
         | .timerTick .. | .timerPeriodEvent .. | .timerCompare .. | .timerWrap .. | .timerCaptureEdge .. | .tmrCapture ..
         | .tmrStart .. | .tmrStop .. | .tmrReload .. | .tmrGstart .. | .tmrGstop .. | .tmrGstagger .. => True
         | _ => False) → exec i s = .next u →
        u = { s with dev := { s.dev with regs := u.dev.regs, timers := u.dev.timers, irq := u.dev.irq } }
        ∧ ∀ a, (∀ c : Fin 32, a ≠ tmr R.TMR_STATUS c) → u.dev.rd a = s.dev.rd a)
  ∧ (∀ (s u : State) (i : Instr),
        (match i with
         | .sdmaSubmit .. | .sdmaComplete .. | .sdmaCplRead .. | .chnStageWrite .. | .chnPush .. | .chnPop .. | .chnStallExpiry ..
         | .chnParkRetry .. | .chnParkDiscard .. | .rpyHostDrain .. | .blkOpWrite .. | .blkOpRead .. | .blkCfgWrite ..
         | .irqPendSetWrite .. | .irqPendClrWrite .. | .irqEnSetWrite .. | .irqEnClrWrite .. | .irqLineRise ..
         | .irqModTimeExpiry .. | .stnIrqReport .. | .irqPinCfgWrite .. => True
         | _ => False) → exec i s = .next u →
        u = { s with dev := { s.dev with
            regs := u.dev.regs, mregs := u.dev.mregs, compl := u.dev.compl, link := u.dev.link,
            cores := u.dev.cores, chn := u.dev.chn, irq := u.dev.irq, sdma := u.dev.sdma,
            sdmaNext := u.dev.sdmaNext, sdmaCpl := u.dev.sdmaCpl } }
        ∧ ∀ a, a / 0x10000 ∉ [0x10000, 0x10003, 0x10005, 0x10009, 0x1000D, 0x10100] → u.dev.rd a = s.dev.rd a)
  ∧ (∀ (s u : State) (m : Master) (i : Fin 65536) (x : Word) (c : Instr), (∀ n, m ≠ .sb n) →
        (c = .blkOpWrite m i x ∨ c = .blkOpRead m i ∨ c = .blkCfgWrite m i x) → exec c s = .next u →
        u = { s with dev := { s.dev with regs := u.dev.regs, compl := u.dev.compl, irq := u.dev.irq } }
        ∧ (∀ a, a ∉ [blkReg R.BLK_VALUE i, blkReg R.BLK_CFG i, R.CHN_BLK_REFUSED, R.CHN_ERR, R.CHN_BLK_LAST] → u.dev.rd a = s.dev.rd a)
        ∧ ∀ m', m' ≠ m → u.dev.completion m' = s.dev.completion m')
  ∧ (∀ (s u : State) (i : Instr),
        (match i with
         | .chnStageWrite .. | .chnPush .. | .chnPop .. | .chnStallExpiry .. | .rpyHostDrain .. => True
         | _ => False) → exec i s = .next u →
        u = { s with dev := { s.dev with regs := u.dev.regs, chn := u.dev.chn, cores := u.dev.cores, compl := u.dev.compl,
                                         link := u.dev.link, irq := u.dev.irq } }
        ∧ u.dev.link = { s.dev.link with waitP := u.dev.link.waitP }
        ∧ ∀ a, a ≠ R.CHN_ERR → (∀ n : Fin 8, a ∉ [park R.CHN_PARK_LO n, park R.CHN_PARK_HI n, park R.CHN_PARK_STATE n, R.SYS_SB_STATE + 4 * n]) →
            u.dev.rd a = s.dev.rd a)

/-- Clocks, power, temperature and pins: no world but input that a lost link leaves blocked, no station, no engine and no bulk
memory; Freight only where the host link loses its clock.
The board's side, where it makes no register access.
Firmware and attestation: the NOR device, and the key hash and rollback count alone of the fuses (R387, R391), and the
registers of FWU and SEC.
The commands of the Track Plan loader that move no plan: no memory, no table, no station. -/
def Obligations.ManagementCommandsFrame : Prop :=
  (∀ (s u : State) (i : Instr),
      (match i with
       | .pinEdge .. | .clkSwitch .. | .clkSwitchComplete .. | .clkSwitchHang .. | .xchFloorWrite .. | .xchRatioStep | .sbclkStop
       | .sbclkReturn | .clkMonUpdate .. | .clkFreqUpdate .. | .hsmUpdate .. | .vfabTargetWrite .. | .vfabStepReady ..
       | .vfabReadyTimeout .. | .avsAlert | .vfabTelemetry .. | .pwrSleepReq | .pwrDeepReq | .pwrWakeReq | .pwrStateEntry
       | .pwrEntryTimeout | .wakeCauseEvent .. | .pwrWakeTimeExpiry | .tempSample .. | .smbWake | .forwardedClockLoss => True
       | _ => False) → exec i s = .next u →
      u = { s with dev := { s.dev with
          regs := u.dev.regs, worlds := u.dev.worlds, txns := u.dev.txns, fwait := u.dev.fwait,
          words := u.dev.words, link := u.dev.link, rings := u.dev.rings, sys := u.dev.sys,
          cores := u.dev.cores, irq := u.dev.irq, timers := u.dev.timers, tok := u.dev.tok, vfab := u.dev.vfab,
          pwr := u.dev.pwr, switches := u.dev.switches, xchWant := u.dev.xchWant, fwu := u.dev.fwu,
          pins := u.dev.pins, araDone := u.dev.araDone, sbclk := u.dev.sbclk, fwdClk := u.dev.fwdClk,
          freeCtr := u.dev.freeCtr } }
      ∧ ∀ a, a / 0x10000 ∉ [0x10000, 0x10001, 0x10002, 0x10003, 0x10004, 0x10007, 0x10009, 0x1000F] → u.dev.rd a = s.dev.rd a)
  ∧ (∀ (s u : State) (i : Instr),
        (match i with
         | .smbWstat | .smbTelemetry | .smbNotify .. | .smbAra | .jtagCaptureDr | .jtagIdcode | .jtagExtest ..
         | .jtagSamplePreload .. | .jtagBypass => True
         | _ => False) → exec i s = .next u →
        u = { s with dev := { s.dev with
            regs := u.dev.regs, compl := u.dev.compl, irq := u.dev.irq, jtag := u.dev.jtag,
            araDone := u.dev.araDone, smbUse := u.dev.smbUse } }
        ∧ ∀ a, a / 0x10000 ∉ [0x10000, 0x10002, 0x1000F] → u.dev.rd a = s.dev.rd a)
  ∧ (∀ (s u : State) (i : Instr),
        (match i with
         | .fwuBegin | .fwuStartSd .. | .fwuCancel | .fwuSelect .. | .fwuSetWrite | .fwuCustkey | .fwuSessionEnd ..
         | .fwuHealthOk .. | .healthTimerExpiry | .secAttest | .attestDone => True
         | _ => False) → exec i s = .next u →
        u = { s with nv := u.nv, mem := { s.mem with depotErr := u.mem.depotErr }, dev := { s.dev with
            regs := u.dev.regs, irq := u.dev.irq, rst := u.dev.rst, fwu := u.dev.fwu } }
        ∧ ∀ a, a / 0x10000 ∉ [0x10000, 0x10007, 0x10008] → u.dev.rd a = s.dev.rd a
        ∧ u.nv = { s.nv with qspi := u.nv.qspi, custHash := u.nv.custHash, rollback := u.nv.rollback })
  ∧ (∀ (s u : State) (i : Instr),
        (match i with
         | .tplHold | .tplRelease | .tplStop | .holdDrained | .stopComplete | .drainLimitExpiry => True
         | _ => False) → exec i s = .next u →
        u = { s with dev := { s.dev with
            regs := u.dev.regs, worlds := u.dev.worlds, sys := u.dev.sys, tpl := u.dev.tpl, irq := u.dev.irq,
            timers := u.dev.timers } }
        ∧ ∀ a, a / 0x10000 ∉ [0x10008, 0x10009, 0x1000E, 0x10100] → u.dev.rd a = s.dev.rd a)

/-- Events, modulators, sweeps and stores at the stations: no register of a block, no world, no bulk memory.
Writes of the tables of stations and edges. -/
def Obligations.StationCommandsFrame : Prop :=
  (∀ (s u : State) (i : Instr),
      (match i with
       | .openingPass .. | .sweepVisit .. | .plasticRowSweep .. | .emissionSend .. | .junctionArrival .. | .eventDeliver ..
       | .modulatorArrival .. | .stepQuietArrival .. | .pageLand .. | .stationFreightWrite .. => True
       | _ => False) → exec i s = .next u →
      u = { s with dev := { s.dev with
          stnW := u.dev.stnW, stnM := u.dev.stnM, stns := u.dev.stns, edgeCnt := u.dev.edgeCnt,
          edgeBuf := u.dev.edgeBuf, notices := u.dev.notices, packets := u.dev.packets, trunks := u.dev.trunks,
          irq := u.dev.irq } })
  ∧ (∀ (s u : State) (i : Instr),
        (match i with
         | .junctionEntryStage .. | .junctionEntryCommit .. | .descriptorWrite .. | .modCfgWrite .. | .modValueWrite ..
         | .edgeIdxWrite .. | .edgeEntryCommit .. => True
         | _ => False) → exec i s = .next u →
        u = { s with dev := { s.dev with
            regs := u.dev.regs, mregs := u.dev.mregs, compl := u.dev.compl, stnW := u.dev.stnW,
            stnM := u.dev.stnM, stns := u.dev.stns, edgeTab := u.dev.edgeTab, cores := u.dev.cores,
            irq := u.dev.irq } }
        ∧ ∀ a, a / 0x10000 ∉ [0x10000, 0x10009, 0x1000E] → u.dev.rd a = s.dev.rd a)

/-- The worlds' steps and the tokens that carry them: no station memory, no bulk memory, no core and no engine but the streamers.
Trunks and the forming of a system. -/
def Obligations.WorldAndTrunkCommandsFrame : Prop :=
  (∀ (s u : State) (i : Instr),
      (match i with
       | .stepBoundary .. | .stretchLimitExpiry .. | .stepRelease .. | .consumptionNotice | .lossNotice | .injectTurn ..
       | .inputClose .. | .creditReduction .. | .westEdgeArrival .. | .offGridArrival .. | .eastEdgeThru ..
       | .consistEndArrival .. | .tokenRelease .. | .tokenProbe .. | .tokenReport .. | .tokenQuiet .. | .tokenDone ..
       | .tokenAbandon .. | .tokenFault .. | .tokenMod .. => True
       | _ => False) → exec i s = .next u →
      u = { s with dev := { s.dev with
          regs := u.dev.regs, stnW := u.dev.stnW, stns := u.dev.stns, worlds := u.dev.worlds,
          wregs := u.dev.wregs, edgeCnt := u.dev.edgeCnt, edgeBuf := u.dev.edgeBuf, injNext := u.dev.injNext,
          notices := u.dev.notices, streamers := u.dev.streamers, rings := u.dev.rings, encCnt := u.dev.encCnt,
          decs := u.dev.decs, trunks := u.dev.trunks, sys := u.dev.sys, irq := u.dev.irq } }
      ∧ ∀ a, a / 0x10000 ∉ [0x10009, 0x1000D, 0x10100] → u.dev.rd a = s.dev.rd a)
  ∧ (∀ (s u : State) (i : Instr),
        (match i with
         | .luRx .. | .trunkRtoExpiry .. | .trkRetrain .. | .trkWake .. | .remotePacketRx .. | .trkRaDataAccess .. | .sMsgRecord ..
         | .tokenIdent .. | .tokenTopo .. | .tokenSysok .. | .tokenSysfail .. | .tokenLinkdown .. | .formTimeout | .trkReform
         | .distCancel | .nakRepeat .. => True
         | _ => False) → exec i s = .next u →
        u = { s with dev := { s.dev with
            regs := u.dev.regs, compl := u.dev.compl, stnW := u.dev.stnW, stns := u.dev.stns,
            worlds := u.dev.worlds, edgeCnt := u.dev.edgeCnt, edgeBuf := u.dev.edgeBuf, packets := u.dev.packets,
            txns := u.dev.txns, fwait := u.dev.fwait, link := u.dev.link, trunks := u.dev.trunks,
            sys := u.dev.sys, cores := u.dev.cores, irq := u.dev.irq } }
        ∧ ∀ a, a / 0x10000 ∉ [0x10000, 0x10009, 0x1000D] → u.dev.rd a = s.dev.rd a)

/-- Streaming, the quantiser, the projection units and the mesh: no Depot memory, no world but what a batch injects, no core.
The host link's messages that reach no memory, and the encoders and decoders. -/
def Obligations.EngineAndHostCommandsFrame : Prop :=
  (∀ (s u : State) (i : Instr),
      (match i with
       | .summaryArrival .. | .walkBegin .. | .sumWaitExpiry .. | .walkEntry .. | .readClose .. | .pageReadComplete ..
       | .deliverySend .. | .streamTokenIdle .. | .walkEnd .. | .stepAbandonArrival .. | .freightHop .. | .qntStart | .qntCancel
       | .prjLoad .. | .prjUnload .. | .prjBatchRun .. | .prjBatchEnd .. | .prjTokenIdle .. => True
       | _ => False) → exec i s = .next u →
      u = { s with dev := { s.dev with
          regs := u.dev.regs, stnW := u.dev.stnW, worlds := u.dev.worlds, packets := u.dev.packets,
          txns := u.dev.txns, fwait := u.dev.fwait, frtTurn := u.dev.frtTurn, frtServed := u.dev.frtServed,
          streamers := u.dev.streamers, qnt := u.dev.qnt, prjs := u.dev.prjs, encCnt := u.dev.encCnt,
          irq := u.dev.irq, tok := u.dev.tok, freeCtr := u.dev.freeCtr } }
      ∧ ∀ a, a / 0x10000 ∉ [0x10002, 0x10009, 0x1000A, 0x1000B, 0x1000C] → u.dev.rd a = s.dev.rd a)
  ∧ (∀ (s u : State) (i : Instr),
        (match i with
         | .link .. | .evtIn .. | .valIn .. | .modIn .. | .msgToDevice .. | .messageSend .. | .replayTimeout .. | .linkRetrain ..
         | .creditReport | .ackLinkSend | .recordPlace .. | .encCfgWrite .. | .decCfgWrite .. | .membraneWaitExpiry ..
         | .messageDiscarded .. | .replayReqRepeat | .disallowedMessageType .. => True
         | _ => False) → exec i s = .next u →
        u = { s with dev := { s.dev with
            regs := u.dev.regs, compl := u.dev.compl, worlds := u.dev.worlds, wregs := u.dev.wregs,
            accNext := u.dev.accNext, prjs := u.dev.prjs, link := u.dev.link, rings := u.dev.rings,
            encBase := u.dev.encBase, encSt := u.dev.encSt, encCnt := u.dev.encCnt, decs := u.dev.decs,
            cores := u.dev.cores, chn := u.dev.chn, irq := u.dev.irq, tok := u.dev.tok, freeCtr := u.dev.freeCtr } }
        ∧ ∀ a, a / 0x10000 ∉ [0x10000, 0x10001, 0x10002, 0x10005, 0x10009, 0x1000A] → u.dev.rd a = s.dev.rd a)

/-! ### Accesses and the board (chapters 1, 13 and 20) -/

/-- A register write by a master (R7, R15, R18, R25, R278): Depot memory takes the word and nothing beside it; a register of the
streamers takes it by the access codes of its bits, a station's table by its mask; to a station memory and to GDDR6 it asks
for one Freight transaction, whose answer ends it; where nothing lies the access ends as unmapped; and a write whose parity
fails four times at its destination is aborted with nothing changed.
Group windows (R19, R20, R21, R97): a broadcast write reaches the memory of each enabled station of its group that is not
under test, and no other, behind the requests that wait in its row arbiter, and a broadcast read returns 0; through a section
window a table write reaches each member, a latch reads as the OR of the members', a counter as their sum, saturated, and no
memory is there.
Rests on model choices: log entries 18, 20, 47, 49, 50. -/
def Obligations.AccessesAndWindowsAct : Prop :=
  (∀ (s : State) (m : Master) (a : Addr) (v : Word) (fails : Nat), s.opens m true a.toNat →
      let x := a.toNat
      let ends := fun (u : State) (st : Status) => u.dev.completion m = { status := st, data := [] }
      let run := Answers (exec (.regWrite m a v fails) s)
      let id := s.dev.accNext
      let asks := fun (e : Nat) => run fun u => u.mem = s.mem ∧ u.dev.stnM = s.dev.stnM ∧ u.dev.completion m = s.dev.completion m
        ∧ (∃ w, w ∈ u.dev.words ∧ w.id = id ∧ w.master = m ∧ w.wr = true ∧ w.ended = none)
        ∧ ∃ r : FReq, r.owner = .word id ∧ r.ep = epHost ∧ r.typ = pWrite ∧ r.dst = e ∧ r.addr = x ∧ r.data = wordBytes v
          ∧ (r ∈ u.dev.fwait ∨ ∃ t, t ∈ u.dev.txns ∧ t.req = r)
      (s.dev.passed 3 = true → x % 4 = 0 → x < depotSize → s.dev.testing 2 (depotBank x) = false → run fun u => ends u .ok
        ∧ u.mem.depotBytes x 4 = wordBytes v ∧ (∀ b, b < x ∨ x + 4 ≤ b → u.mem.depot.get zeroByte b = s.mem.depot.get zeroByte b)
        ∧ u.dev.regs = s.dev.regs)
      ∧ (∀ r, x % 4 = 0 → 0x1000B0000 ≤ x → x < 0x1000C0000 → regRow x = some r → run fun u => ends u .ok ∧ u.mem = s.mem
        ∧ u.dev.rd x = accWrite r.rw r.w1c r.w1s (s.dev.rd x) v ∧ ∀ b, b ≠ x → u.dev.rd b = s.dev.rd b)
      ∧ (∀ (k : Fin 2304) (off p : Nat), x = stationBase + k * 2 ^ 20 + off → off % 4 = 0 → s.dev.passed 8 = true →
          s.dev.posOfRank k = some p →
          (off < 0x60000 → (∀ c, m ≠ .sb c) → asks k)
          ∧ (0x62000 ≤ off → off < 0x68000 → fails < 4 → run fun u => ends u .ok ∧ u.mem = s.mem ∧ u.dev.stnM = s.dev.stnM
              ∧ u.dev.sW p off = (v &&& w32 (tableMask off)) ||| (s.dev.sW p off &&& ~~~(w32 (tableMask off)))))
      ∧ (∀ off e, s.dev.targetOf s.nv x = .gddr off → s.dev.endpointOf s.nv x = some e → (∀ c, m ≠ .sb c) → asks e)
      ∧ ((∀ c, m ≠ .sb c) → s.dev.targetOf s.nv x = .unmapped → run fun u => ends u .unmapped ∧ u.mem = s.mem ∧ u.dev.regs = s.dev.regs)
      ∧ ((∀ c, m ≠ .sb c) → 4 ≤ fails → (s.dev.targetOf s.nv x).bySignal x = true → run fun u => ends u .abort ∧ u.mem = s.mem
        ∧ u.dev.regs = s.dev.regs ∧ u.dev.stnW = s.dev.stnW ∧ u.dev.stnM = s.dev.stnM))
  ∧ (∀ (s : State) (m : Master) (g : Fin 256) (w : Fin 4096) (off : Nat) (v : Word), s.dev.passed 8 = true → off % 4 = 0 → off < 2 ^ 20 →
        let ba := 0x300000000 + g * 2 ^ 24 + off
        let sa := stationBase + w * 2 ^ 20 + off
        let ends := fun (u : State) (data : List Word) => u.dev.completion m = { status := .ok, data := data }
        let hit := fun (p : Nat) => p ∈ (s.dev.groupStations s.nv g).getD [] ∧ s.nv.enabled p = true ∧ s.dev.stnTested p = false
        let tested := ((s.dev.groupStations s.nv g).getD []).any (fun p => s.nv.enabled p && s.dev.stnTested p)
        let arb := fun (u : State) (p : Nat) => (u.dev.stn p).arb
        (s.opens m true ba → off + 4 ≤ 0x40000 → ((s.dev.groupStations s.nv g).getD []).Nodup →
          Answers (exec (.broadcastWindowWrite m (BitVec.ofNat 40 ba) v) s) fun u =>
            u.dev.completion m = { status := if tested = true then (match m with | .sb _ => .fault | _ => .abort) else .ok, data := [] }
            ∧ (∀ p, hit p → arb s p = [] → u.dev.sM p off = v)
            ∧ (∀ p, hit p → arb s p ≠ [] → arb u p = arb s p ++ [.write off (wordBytes v) none])
            ∧ (∀ p, ¬hit p → arb u p = arb s p)
            ∧ ∀ p b, ¬hit p ∨ arb s p ≠ [] → b < 0x60000 → u.dev.stnM.get zeroByte (skey p b) = s.dev.stnM.get zeroByte (skey p b))
        ∧ (∀ hi : Fin 16, s.opens .jtag false (ba + hi * 2 ^ 20) → s.dev.awake = true → s.dev.jtagBusy = false → s.dev.link.waitC = [] →
            Answers (exec (.jtagRegAccess false (BitVec.ofNat 40 (ba + hi * 2 ^ 20)) v) s) fun u =>
              u.dev.completion .jtag = { status := .ok, data := [0] } ∧ u.mem = s.mem ∧ u.dev.regs = s.dev.regs ∧ u.dev.stnM = s.dev.stnM)
        ∧ (∀ plan sec, 2304 ≤ w.val → s.dev.livePlan = some plan → plan.section? w = some sec →
            let ms := s.dev.sectionRanks s.nv sec
            let read := exec (.sectionWindowAccess m (BitVec.ofNat 40 sa) none) s
            let write := exec (.sectionWindowAccess m (BitVec.ofNat 40 sa) (some v)) s
            ms ≠ [] → ms.any (fun q => s.dev.stnTested q.2) = false →
            (s.opens m true sa → 0x62000 ≤ off → off < 0x68000 → Answers write fun u => ends u []
              ∧ ∀ q ∈ ms, u.dev.sW q.2 off = (v &&& w32 (tableMask off)) ||| (s.dev.sW q.2 off &&& ~~~(w32 (tableMask off))))
            ∧ (s.opens m false sa → off = stnIrqLatch → Answers read fun u => u.dev.stnW = s.dev.stnW
              ∧ ends u [ms.foldl (fun (x : Word) q => x ||| s.dev.sW q.2 off) 0])
            ∧ (s.opens m false sa → 0x62000 ≤ off → (off < 0x68000 ∨ 0x6C000 ≤ off) → isCounter off = true → isOpsLo off = false → isOpsHi off = false →
                Answers read fun u => ends u [satWord ((ms.map (fun q => (s.dev.stnValue q.2 off).toNat)).sum)])
            ∧ (s.opens m false sa → (∀ c, m ≠ .sb c) → off < 0x60000 → Answers read fun u => u.dev.completion m = { status := .unmapped, data := [] })))

/-- The bit aliases of Depot memory (R278): a write through them sets or clears, in the bytes it enables, the bits that are 1 in
its data, returns nothing and changes no other byte; a read through one returns the word. -/
def Obligations.DepotAliasesModify : Prop :=
  ∀ (s : State) (m : Master) (off : BitVec 24) (be : BitVec 4) (v : Word),
    let w := off.toNat / 4 * 4
    let old := fun (i : Nat) => s.mem.depot.get zeroByte (w + i)
    let now := fun (u : State) (b : Nat) => u.mem.depot.get zeroByte b
    let byte := fun (i : Nat) => BitVec.ofNat 8 (v.toNat >>> (8 * i))
    let may := fun (k : Nat) => s.opens m true (k * 0x10000000 + w) ∧ s.dev.passed 3 = true ∧ s.dev.testing 2 (depotBank w) = false
      ∧ s.mem.depotErr = []
    let rest := fun (u : State) => u.dev.completion m = { status := .ok, data := [] } ∧ u.dev.regs = s.dev.regs
      ∧ (∀ b, b < w ∨ w + 4 ≤ b → now u b = s.mem.depot.get zeroByte b)
    (may 1 → Answers (exec (.depotSetAliasWrite m off be v) s) fun u => rest u
      ∧ ∀ i, i < 4 → now u (w + i) = if be.getLsbD i then old i ||| byte i else old i)
    ∧ (may 2 → Answers (exec (.depotClearAliasWrite m off be v) s) fun u => rest u
      ∧ ∀ i, i < 4 → now u (w + i) = if be.getLsbD i then old i &&& ~~~(byte i) else old i)
    ∧ (∀ k, (k = 1 ∨ k = 2) → may k → s.dev.awake = true → s.dev.jtagBusy = false → s.dev.link.waitC = [] →
        Answers (exec (.jtagRegAccess false (BitVec.ofNat 40 (k * 0x10000000 + w)) v) s) fun u => u.mem = s.mem
          ∧ u.dev.completion .jtag = { status := .ok, data := [s.mem.depotWord w] })

/-- Loads and stores of a core (R271 to R275), and RUN (R276): a misaligned one and one where nothing lies take their exception; a
forbidden one counts in DENY as well; local memory and the boot ROM answer at once; Depot memory takes the bytes the access
selects, in either mode, and an access to a bank under test waits (R287); station memories and GDDR6 are reached by a Freight
transaction, for which the core waits (R275), and which faults at once where the descriptor queue is full.
Rests on model choices: log entries 5, 12, 18, 19, 44, 49. -/
def Obligations.CoreAccessesEnd : Prop :=
  ∀ (s : State) (m : Master) (n : Fin 8) (user : Bool) (ca : Word) (width : Nat) (wr : Option Word), s.dev.clocked = true →
    let c := s.dev.core n
    let now := fun (u : State) => u.dev.core n
    let target := c.target n ca.toNat
    let ends := fun (u : State) (data : List Word) => u.dev.completion (.sb n) = { status := .ok, data := data } ∧ (now u).pc = c.pc
    let traps := fun (u : State) (code : Nat) => u.dev.completion (.sb n) = { status := .fault, data := [] }
      ∧ (now u).mcause = w32 code ∧ (now u).mtval = ca ∧ (now u).mepc = c.pc ∧ (now u).pc = c.mtvec &&& ~~~3#32 ∧ (now u).machine = true
      ∧ fld (now u).mstatus 11 2 = (if user then 0 else 3) ∧ bit (now u).mstatus 7 = bit c.mstatus 3 ∧ bit (now u).mstatus 3 = false
      ∧ u.mem = s.mem ∧ u.dev.coreMem = s.dev.coreMem
    let fault := if wr.isSome then 7 else 5
    let denied := fun (u : State) => fld (u.dev.rd (R.SYS_SB_STATE + 4 * n)) 0 16 = satAdd 16 (fld (s.dev.rd (R.SYS_SB_STATE + 4 * n)) 0 16) 1
    let run := Answers (exec (.coreWindowAccess n user ca width wr) s)
    let depot := fun (a : Nat) => target = .device a ∧ a < depotSize ∧ s.dev.passed 3 = true ∧ s.mem.depotErr = []
      ∧ s.dev.testing 2 (depotBank a) = false ∧ s.dev.gatedOff (a / 4 * 4) = false
    let byFreight := fun (w : Nat) => match s.dev.targetOf s.nv w with
      | .gddr _ => true
      | .station _ off => decide (off < 0x60000) && s.dev.gate s.nv (.sb n) wr.isSome w == .open_
      | _ => false
    (s.dev.coreActs n = true → s.dev.link.waitC = [] → width = 1 ∨ width = 2 ∨ width = 4 →
      (ca.toNat % width ≠ 0 → run fun u => traps u (if wr.isSome then 6 else 4))
      ∧ (ca.toNat % width = 0 →
        (target = .nothing → run fun u => traps u fault ∧ u.dev.regs = s.dev.regs)
        ∧ (target = .closed → run fun u => traps u fault ∧ denied u)
        ∧ (∀ off, target = .rom off → user = true → run fun u => traps u fault ∧ denied u)
        ∧ (∀ off, target = .rom off → user = false → wr = none → run fun u => ends u [w32 (recNat Config.bootRom off width)])
        ∧ (∀ k off v, target = .local_ k off → k = n.val ∨ user = false → wr = some v → run fun u => ends u []
          ∧ readBytes zeroByte u.dev.coreMem (coreKey k off) width = leBytes width v.toNat
          ∧ ∀ b, b < coreKey k off ∨ coreKey k off + width ≤ b → u.dev.coreMem.get zeroByte b = s.dev.coreMem.get zeroByte b)
        ∧ (∀ k off, target = .local_ k off → k = n.val ∨ user = false → wr = none → run fun u => u.dev.coreMem = s.dev.coreMem
          ∧ ends u [w32 (leNat (readBytes zeroByte s.dev.coreMem (coreKey k off) width))])
        ∧ (∀ a v, depot a → wr = some v → run fun u => ends u [] ∧ u.mem.depotBytes a width = leBytes width v.toNat
          ∧ ∀ b, b < a ∨ a + width ≤ b → u.mem.depot.get zeroByte b = s.mem.depot.get zeroByte b)
        ∧ (∀ a, depot a → wr = none → run fun u => u.mem = s.mem ∧ ends u [w32 (leNat (s.mem.depotBytes a width))])
        ∧ (∀ a e, target = .device a → byFreight (a / 4 * 4) = true → user = false → s.dev.endpointOf s.nv (a / 4 * 4) = some e →
            (s.dev.descQueue < 64 → run fun u => (now u).blocked = some (.freight s.dev.accNext wr.isSome ca width s.dev.now)
              ∧ (now u).pc = c.pc ∧ u.mem = s.mem ∧ u.dev.accNext = s.dev.accNext + 1)
            ∧ (64 ≤ s.dev.descQueue → run fun u => traps u fault))
        ∧ (∀ a off, target = .device a → s.dev.targetOf s.nv (a / 4 * 4) = .depot 0 off → s.dev.gate s.nv (.sb n) wr.isSome (a / 4 * 4) = .open_ →
            s.dev.banksTested (off / 4 * 4) 4 = true → run fun u => u.mem = s.mem ∧ (now u).pc = c.pc
              ∧ (now u).blocked = some (.freight s.dev.accNext wr.isSome ca width s.dev.now))
        ∧ (∀ a off, target = .device a → s.dev.targetOf s.nv (a / 4 * 4) = .gddr off → user = true → run fun u => traps u fault ∧ denied u)))
    ∧ (s.opens m true (R.SYS_SB_CTRL + 4 * n) → ∀ on : Bool, Answers (exec (.sbRun m n on) s) fun u => u.dev.coreMem = s.dev.coreMem
        ∧ now u = if coreOwner m = true ∧ n ≠ 0 ∧ (on = true → c.running = false)
          then { Core.init n with running := on, verified := c.verified, verifyFail := c.verifyFail } else c)

/-- The sideband's register space (R232): an offset below 0x1_0000 is a register of SYS; the window registers hold an address, at
which the data register reads and writes, and which moves on by 4 where XCH_SBW_CTRL says so; beyond them nothing is there.
The board controller on SMBus (R434, R435): READ32 answers STATUS and the value; WRITE32 leaves its outcome in PIN_SMB_WSTAT;
a write whose PEC fails only counts, a WAKE ending as the controller's last write (the model's choice: log entry 13); a read
ends with the PEC of what the bus carried; telemetry, notification, wake and reset do as Table 20-8 says; the alert response
gives the address and releases the pin.
The TAP (R436): REG_ACCESS makes the access of its data register and gives status and word at the next capture; IDCODE,
boundary scan and BYPASS do as IEEE 1149.1 has them, EXTEST alone driving the pins.
Rests on model choices: log entries 13, 16, 18, 21, 49. -/
def Obligations.BoardReachesDevice : Prop :=
  (∀ (s : State) (off : Word) (lo hi v : Word), s.dev.clocked = true → s.dev.awake = true → s.dev.link.waitC = [] →
      let x := off.toNat
      let d := s.dev
      let a := d.sbwAddr
      let ends := fun (u : State) (data : List Word) => u.dev.completion .sideband = { status := .ok, data := data }
      let read := exec (.sidebandMemRead off false) s
      let write := exec (.sidebandMemWrite off false lo hi) s
      let moves := fun (u : State) => u.dev.sbwAddr = if bit (d.mrd .sideband sbwCtrl) 0 then (a + 4) % 2 ^ 40 else a
      let depot := a % 4 = 0 ∧ a < depotSize ∧ d.passed 3 = true ∧ s.mem.depotErr = [] ∧ d.testing 2 (depotBank a) = false ∧ d.gatedOff a = false
      (x % 4 = 0 → x < 0x10000 → d.gatedOff (0x100000000 + x) = false → Answers read fun u => ends u [d.regValue s.nv .sideband (0x100000000 + x)])
      ∧ (x = sbwAddrLo → Answers write fun u => ends u [] ∧ u.dev.sbwAddr = a / 2 ^ 32 * 2 ^ 32 + lo.toNat)
      ∧ (x = sbwAddrHi → Answers write fun u => ends u [] ∧ u.dev.sbwAddr = lo.toNat % 256 * 2 ^ 32 + a % 2 ^ 32)
      ∧ (x = sbwCtrl → Answers write fun u => ends u [] ∧ bit (u.dev.mrd .sideband sbwCtrl) 0 = bit lo 0)
      ∧ (x % 4 ≠ 0 ∨ 0x10010 ≤ x → Answers read fun u => u.dev.completion .sideband = { status := .unmapped, data := [] } ∧ u.dev.regs = d.regs)
      ∧ (depot → Answers (exec (.sbwDataAccess none) s) fun u => ends u [s.mem.depotWord a] ∧ moves u ∧ u.mem = s.mem)
      ∧ (depot → Answers (exec (.sbwDataAccess (some v)) s) fun u => ends u [] ∧ moves u ∧ u.mem.depotBytes a 4 = wordBytes v
        ∧ ∀ b, b < a ∨ a + 4 ≤ b → u.mem.depot.get zeroByte b = s.mem.depot.get zeroByte b)
      ∧ (a % 4 ≠ 0 → Answers (exec (.sbwDataAccess none) s) fun u => u.dev.completion .sideband = { status := .unmapped, data := [] }
        ∧ u.dev.sbwAddr = a))
  ∧ (∀ (s : State) (a : Addr) (v : Word) (b : Byte) (kind : BitVec 8) (pec : Pec) (more : Bool), s.dev.clocked = true → s.dev.link.waitC = [] →
        let d := s.dev
        let x := a.toNat
        let tells := fun (u : State) (st : Status) (ws : List Word) => u.dev.completion .smbus = { status := st, data := ws }
        let count := fun (u : State) => u.dev.rd R.PIN_SMB_ERR = w32 (satAdd 32 (d.rd R.PIN_SMB_ERR).toNat 1) ∧ u.mem = s.mem
          ∧ ∀ r, r ≠ R.PIN_SMB_ERR → u.dev.rd r = d.rd r
        let use := fun (cmd : Nat) (bs : List Byte) => s.nv.pecUse cmd bs pec
        let good := fun (cmd : Nat) (bs : List Byte) => d.pecOk (use cmd bs) = true
        let ended := { s with dev := { d with smbUse := use 7 [kind] } }
        let wdata := blockOf (leBytes 5 x ++ wordBytes v)
        let pecs := fun (cmd : Nat) (sent got : List Byte) => [(pecOf (s.nv.smbBytes cmd sent ++ s.nv.smbReadByte :: got)).setWidth 32]
        let end_ := fun (cmd : Nat) (sent got : List Byte) => if more = true then pecs cmd sent got else ([] : List Word)
        let told := [d.rd R.PWR_TEMP_MAX, d.rd R.PWR_VFAB_MEAS, d.rd R.PWR_STATE, d.rd R.SYS_BOOT_STAGE]
        (d.awake = true →
          (smbReach x = true → x % 4 = 0 → d.gatedOff x = false → Answers (exec (.smbRead32 a more) s) fun u =>
            tells u .ok ([0, d.regValue s.nv .smbus x]
              ++ end_ 1 (blockOf (leBytes 5 x)) (blockOf (leBytes 1 0 ++ wordBytes (d.regValue s.nv .smbus x)))))
          ∧ (smbReach x = false → Answers (exec (.smbRead32 a more) s) fun u =>
            tells u .unmapped ([1, 0] ++ end_ 1 (blockOf (leBytes 5 x)) (blockOf (leBytes 1 1 ++ wordBytes 0))) ∧ u.dev.regs = d.regs ∧ u.mem = s.mem)
          ∧ (good 2 wdata → smbReach x = true → x % 4 = 0 → d.gatedOff x = false → Answers (exec (.smbWrite32 a v pec) s) fun u =>
              u.dev.f R.PIN_SMB_WSTAT 0 8 = 0 ∧ (x = R.PIN_OUT_SET → u.dev.rd R.PIN_OUT = d.rd R.PIN_OUT ||| (v &&& 0xFFFF#32)))
          ∧ (good 2 wdata → smbReach x = false → Answers (exec (.smbWrite32 a v pec) s) fun u => u.dev.f R.PIN_SMB_WSTAT 0 8 = 1 ∧ u.mem = s.mem)
          ∧ (¬good 2 wdata → Answers (exec (.smbWrite32 a v pec) s) count)
          ∧ (Answers (exec .smbWstat s) fun u =>
              tells u .ok (w32 (d.f R.PIN_SMB_WSTAT 0 8) :: pecs 3 [] (leBytes 1 (d.f R.PIN_SMB_WSTAT 0 8))) ∧ u.dev.regs = d.regs)
          ∧ (d.pecOk d.smbUse = true → Answers (exec .smbWake s) fun u => exec (.wakeCauseEvent 5) s = .next u)
          ∧ (d.pecOk d.smbUse = false → Answers (exec .smbWake s) count)
          ∧ (Answers (exec .smbTelemetry s) fun u => u.dev.regs = d.regs
              ∧ tells u .ok (told ++ pecs 5 [] (blockOf (told.map wordBytes).flatten)))
          ∧ (good 6 [b] → Answers (exec (.smbNotify b pec) s) fun u => u.dev.rd R.PIN_BC_MSG = w32 (0x100 + b.toNat)
              ∧ u.dev.irq.pend.getLsbD 106 = true)
          ∧ (¬good 6 [b] → Answers (exec (.smbNotify b pec) s) count)
          ∧ (good 7 [kind] → kind = 1 → Answers (exec (.smbReset kind pec) s) fun u => exec (.resetCold .smbus) ended = .next u)
          ∧ (good 7 [kind] → kind = 2 → Answers (exec (.smbReset kind pec) s) fun u => exec (.resetWarm .smbus) ended = .next u)
          ∧ (good 7 [kind] → kind = 3 → Answers (exec (.smbReset kind pec) s) fun u => exec (.resetCompute .smbus) ended = .next u)
          ∧ (good 7 [kind] → kind = 0 ∨ 4 ≤ kind.toNat → Answers (exec (.smbReset kind pec) s) fun u => u.dev.f R.PIN_SMB_WSTAT 0 8 = 1 ∧ u.mem = s.mem)
          ∧ (¬good 7 [kind] → Answers (exec (.smbReset kind pec) s) fun u => count u ∧ u.dev.smbUse = use 7 [kind]))
        ∧ (d.alertLow = true → Answers (exec .smbAra s) fun u => tells u .ok [w32 (0x58 + s.nv.smbAddr.toNat)] ∧ u.dev.alertLow = false))
  ∧ (∀ (s : State) (wr : Bool) (a : Addr) (v : Word) (pins : BitVec 64),
        let d := s.dev
        let j := fun (u : State) => u.dev.jtag
        let c := d.completion .jtag
        let field := fun (u : State) (i n : Nat) => (j u).dr.toNat / 2 ^ i % 2 ^ n
        let x := a.toNat
        let depot := x % 4 = 0 ∧ x < depotSize ∧ d.passed 3 = true ∧ s.mem.depotErr = [] ∧ d.testing 2 (depotBank x) = false ∧ d.gatedOff x = false
        let shifts := fun (u : State) => (j u).ir = irRegAccess ∧ (j u).drives = false ∧ field u 72 1 = wr.toNat ∧ field u 32 40 = x ∧ field u 0 32 = v.toNat
        (d.clocked = true → d.awake = true → d.link.waitC = [] → d.jtagBusy = false → depot → wr = false → Answers (exec (.jtagRegAccess wr a v) s) fun u =>
            shifts u ∧ u.dev.completion .jtag = { status := .ok, data := [s.mem.depotWord x] } ∧ u.mem = s.mem)
        ∧ (d.clocked = true → d.awake = true → d.link.waitC = [] → d.jtagBusy = false → depot → wr = true → Answers (exec (.jtagRegAccess wr a v) s) fun u =>
            shifts u ∧ u.dev.completion .jtag = { status := .ok, data := [] } ∧ u.mem.depotBytes x 4 = wordBytes v
              ∧ ∀ b, b < x ∨ x + 4 ≤ b → u.mem.depot.get zeroByte b = s.mem.depot.get zeroByte b)
        ∧ (d.clocked = true → d.jtagBusy = true → Answers (exec (.jtagRegAccess wr a v) s) fun u => u.mem = s.mem ∧ u.dev.regs = d.regs
            ∧ u.dev.completion .jtag = c)
        ∧ (d.powered = true →
          (d.jtagBusy = false → Answers (exec .jtagCaptureDr s) fun u => (j u).ir = irRegAccess ∧ field u 73 2 = statusOf c.status
            ∧ field u 0 32 = (c.data.headD 0).toNat)
          ∧ (d.jtagBusy = true → Answers (exec .jtagCaptureDr s) fun u => field u 73 2 = 3)
          ∧ (Answers (exec .jtagIdcode s) fun u => (j u).ir = irIdcode ∧ (j u).drives = false ∧ (j u).dr.toNat = (d.rd R.SYS_ID).toNat)
          ∧ (Answers (exec (.jtagExtest pins) s) fun u => (j u).ir = irExtest ∧ (j u).drives = true ∧ (j u).bscan = pins
            ∧ ∀ p, p < 16 → u.dev.pinRaw p = pins.getLsbD p)
          ∧ (Answers (exec (.jtagSamplePreload pins) s) fun u => (j u).ir = irSample ∧ (j u).drives = false ∧ (j u).bscan = pins
            ∧ ∀ p, p < 16 → (j u).dr.getLsbD p = ({ d with jtag := { d.jtag with ir := irSample, drives := false } } : Dev).pinRaw p)
          ∧ (Answers (exec .jtagBypass s) fun u => (j u).ir = irBypass ∧ (j u).drives = false ∧ (j u).dr = 0)))

/-! ### Timers (chapter 15) -/

/-- An input event of a channel that counts (R316, R317): the accumulator takes 65,536, and from D upward one tick follows and the
accumulator keeps the remainder (that a backlog makes no further tick is the model's choice: log entry 53); the tick advances
COUNT by one, or at the end of a period takes it to 0, brings the shadow into force and, in ONE_SHOT, stops the channel.
The three events of a tick (R316, R320, R326): the input event whose tick ends a period sets PERIOD, or PER_OVR where PERIOD
stood; one that makes COUNT equal CMP sets CMP; one that passes the top sets WRAP; and each raises the channel's source where
its enable bit is set.
Rests on model choices: log entries 10, 53. -/
def Obligations.TimersCountAndReport : Prop :=
  (∀ (s : State) (c : Fin 32), s.runs 3 11 → s.dev.tcounts c = true →
      let t := s.dev.timer c
      (t.acc + 65536 < s.dev.tdiv c →
        Answers (exec (.timerTick c) s) fun u => u.dev.timer c = { t with acc := t.acc + 65536 })
      ∧ (s.dev.tdiv c ≤ t.acc + 65536 → (s.dev.tmode c = 0 ∨ t.count.toNat + 1 < perOf t.period) →
        Answers (exec (.timerTick c) s) fun u => (u.dev.timer c).count = t.count + 1
          ∧ (u.dev.timer c).acc = (t.acc + 65536) % s.dev.tdiv c ∧ (u.dev.timer c).running = true)
      ∧ (s.dev.tdiv c ≤ t.acc + 65536 → s.dev.tmode c ≠ 0 → perOf t.period ≤ t.count.toNat + 1 →
        Answers (exec (.timerTick c) s) fun u => (u.dev.timer c).count = 0
          ∧ (u.dev.timer c).period = t.perShadow.getD t.period ∧ (u.dev.timer c).perShadow = none
          ∧ (u.dev.timer c).running = decide (s.dev.tmode c ≠ 2)))
  ∧ (∀ (s : State) (c : Fin 32), s.runs 3 11 → s.dev.tcounts c = true → s.dev.tdiv c ≤ (s.dev.timer c).acc + 65536 →
        let t := s.dev.timer c
        let st := fun (u : State) (i : Nat) => bit (u.dev.rd (tmr R.TMR_STATUS c)) i
        let en := fun (i : Nat) => bit (s.dev.rd (tmr R.TMR_CFG c)) i
        (s.dev.tmode c ≠ 0 → perOf t.period ≤ t.count.toNat + 1 →
          Answers (exec (.timerPeriodEvent c) s) fun u => (u.dev.timer c).count = 0
            ∧ st u 1 = true ∧ (st s 1 = true → st u 3 = true)
            ∧ (en 4 = true → u.dev.irq.pend.getLsbD c = true))
        ∧ (s.dev.tmode c = 0 → t.count + 1 = t.cmp →
          Answers (exec (.timerCompare c) s) fun u => (u.dev.timer c).count = t.cmp ∧ st u 6 = true
            ∧ (en 6 = true → u.dev.irq.pend.getLsbD c = true))
        ∧ (s.dev.tmode c ≠ 0 → t.count.toNat + 1 < perOf t.period → t.count + 1 = t.cmp →
          Answers (exec (.timerCompare c) s) fun u => (u.dev.timer c).count = t.cmp ∧ st u 6 = true
            ∧ (en 6 = true → u.dev.irq.pend.getLsbD c = true))
        ∧ (s.dev.tmode c = 0 → t.count + 1 = 0 →
          Answers (exec (.timerWrap c) s) fun u => (u.dev.timer c).count = 0 ∧ st u 4 = true
            ∧ (en 7 = true → u.dev.irq.pend.getLsbD c = true)))

/-- START, STOP and RELOAD of one channel, and the group forms (R321, R322); a step timer keeps STOP and RELOAD out (R325). -/
def Obligations.TimerCommandsAct : Prop :=
  ∀ (s : State) (c : Fin 32) (v : Word),
    let t := s.dev.timer c
    (s.takes (tmr R.TMR_CTRL c) →
      (Answers (exec (.tmrStart c) s) fun u => u.dev.timer c = { t with count := t.phase, acc := 0, running := true, slept := false })
      ∧ (t.step = false → Answers (exec (.tmrStop c) s) fun u => u.dev.timer c = { t with running := false, slept := false })
      ∧ (t.step = false → Answers (exec (.tmrReload c) s) fun u => u.dev.timer c = { t with count := t.phase })
      ∧ (t.step = true → Answers (exec (.tmrStop c) s) fun u => u.dev.timer c = t ∧ bit (u.dev.rd (tmr R.TMR_STATUS c)) 5 = true)
      ∧ (t.step = true → Answers (exec (.tmrReload c) s) fun u => u.dev.timer c = t ∧ bit (u.dev.rd (tmr R.TMR_STATUS c)) 5 = true))
    ∧ (s.takes R.TMR_GSTART → Answers (exec (.tmrGstart v) s) fun u => ∀ k : Fin 32, u.dev.timer k = if v.getLsbD k then
            { s.dev.timer k with count := (s.dev.timer k).phase, acc := 0, running := true, slept := false } else s.dev.timer k)
    ∧ (s.takes R.TMR_GSTOP → Answers (exec (.tmrGstop v) s) fun u => ∀ k : Fin 32, u.dev.timer k = if v.getLsbD k && !(s.dev.timer k).step then
            { s.dev.timer k with running := false, slept := false } else s.dev.timer k)
    ∧ (s.takes R.TMR_GSTAGGER → Answers (exec (.tmrGstagger v) s) fun u => ∀ k : Fin 32, u.dev.timer k = if v.getLsbD k then
            { s.dev.timer k with phase := BitVec.ofNat 64 ((onesBelow k v.toNat).length * perOf (s.dev.timer k).period
                / (onesBelow 32 v.toNat).length) } else s.dev.timer k)

/-- Staging and commits (R318, R319): a write of a HI register of a channel stages it for its master alone, in the one staging
register that the master has for that channel; a write of a LO register commits the pair and clears the stage. COUNT of a step
timer is not written (R325). -/
def Obligations.TimerCommitsTakeStage : Prop :=
  ∀ (s : State) (m : Master) (c : Fin 32) (v : Word) (r : TmrReg),
    let t := s.dev.timer c
    let pair := word64 (s.dev.mrd m (stageReg c)) v
    let staged := fun (u : State) => u.dev.mrd m (stageReg c)
    (s.opens m true (tmr (hiReg r) c) → Answers (exec (.tmrHiStage m r c v) s) fun u => staged u = v ∧ u.dev.timer c = t
      ∧ ∀ m', m' ≠ m → u.dev.mrd m' (stageReg c) = s.dev.mrd m' (stageReg c))
    ∧ (s.opens m true (tmr R.TMR_COUNT_LO c) →
        (t.step = false → Answers (exec (.tmrCountCommit m c v) s) fun u => (u.dev.timer c).count = pair ∧ staged u = 0)
        ∧ (t.step = true → Answers (exec (.tmrCountCommit m c v) s) fun u => u.dev.timer c = t
            ∧ bit (u.dev.rd (tmr R.TMR_STATUS c)) 5 = true))
    ∧ (s.opens m true (tmr R.TMR_PHASE_LO c) → Answers (exec (.tmrPhaseCommit m c v) s) fun u => (u.dev.timer c).phase = pair ∧ staged u = 0)
    ∧ (s.opens m true (tmr R.TMR_CMP_LO c) → Answers (exec (.tmrCmpCommit m c v) s) fun u => (u.dev.timer c).cmp = pair ∧ staged u = 0 ∧ (t.count = pair → bit (u.dev.rd (tmr R.TMR_STATUS c)) 6 = true))
    ∧ (s.opens m true (tmr R.TMR_PERIOD_LO c) →
        (t.running = false ∨ s.dev.tmode c = 0 → Answers (exec (.tmrPeriodCommit m c v) s) fun u => (u.dev.timer c).period = pair ∧ (u.dev.timer c).perShadow = none
          ∧ staged u = 0)
        ∧ (t.running = true → s.dev.tmode c ≠ 0 → bit (s.dev.rd (tmr R.TMR_CFG c)) 18 = false →
            Answers (exec (.tmrPeriodCommit m c v) s) fun u => (u.dev.timer c).period = t.period
              ∧ (u.dev.timer c).perShadow = some pair)
        ∧ (t.running = true → s.dev.tmode c ≠ 0 → bit (s.dev.rd (tmr R.TMR_CFG c)) 18 = true →
            perOf pair ≤ t.count.toNat →
            Answers (exec (.tmrPeriodCommit m c v) s) fun u => (u.dev.timer c).period = pair
              ∧ (u.dev.timer c).count = 0 ∧ bit (u.dev.rd (tmr R.TMR_STATUS c)) 1 = true))

/-- Captures and reads of TMR_CAP_LO (R321): a capture with no read in its cycle goes into CAP, or the shadow where one is
pending, sets CAP_NEW, and CAP_OVR where CAP_NEW was 1; one in the cycle of a read goes into the shadow, and the read returns
the value from before; a read alone moves a pending shadow into CAP, returns CAP and clears CAP_NEW; the high word is latched
for the reading master (R31); and a write of 1 clears CAP_NEW or CAP_OVR. -/
def Obligations.CapturesAndReads : Prop :=
  ∀ (s : State) (m : Master) (c : Fin 32) (v : Word),
    let t := s.dev.timer c
    let now := t.capShadow.getD t.cap
    let st := fun (u : State) (i : Nat) => bit (u.dev.rd (tmr R.TMR_STATUS c)) i
    let captured := fun (u : State) => u.dev.timer c = { t with cap := if t.capShadow = none then t.count else t.cap,
                                                                capShadow := t.capShadow.map (fun _ => t.count), out := (u.dev.timer c).out }
      ∧ st u 0 = true ∧ st u 2 = (st s 2 || st s 0)
    let returns := fun (u : State) (x : BitVec 64) => u.dev.completion m = { status := .ok, data := [loWord x] }
      ∧ u.dev.latches.get noneW (mkey m (tmr R.TMR_CAP_HI c)) = some (hiWord x)
    (s.takes (tmr R.TMR_CTRL c) → Answers (exec (.tmrCapture c) s) captured)
    ∧ (s.runs 3 11 → ∀ rising, capEdge (s.dev.f (tmr R.TMR_CFG c) 19 2) rising = true → Answers (exec (.timerCaptureEdge c rising) s) captured)
    ∧ (s.opens m false (tmr R.TMR_CAP_LO c) →
        (Answers (exec (.tmrCapRead m c true) s) fun u => returns u t.cap ∧ u.dev.timer c = { t with capShadow := some t.count } ∧ st u 0 = true)
        ∧ (Answers (exec (.tmrCapRead m c false) s) fun u => returns u now ∧ u.dev.timer c = { t with cap := now, capShadow := none }
            ∧ st u 0 = false))
    ∧ (s.opens m true (tmr R.TMR_STATUS c) → Answers (exec (.regWrite m (BitVec.ofNat 40 (tmr R.TMR_STATUS c)) v 0) s) fun u =>
        st u 0 = (st s 0 && !bit v 0) ∧ st u 2 = (st s 2 && !bit v 2) ∧ u.dev.timer c = t)

/-! ### Signal Blocks, interrupts and channels (chapter 14) -/

/-- A write of `x` to BLK_OP of a Block that is not the device's (R302, Table 14-5): COUNTER adds `x` as a signed number, BARRIER
takes an arrival, SEMAPHORE releases up to LIMIT, FLAG sets bits.
A read of BLK_OP returns VALUE as it stood before, and takes (R302, Table 14-5); of a Block of the device it changes nothing
(R305).
The notice of an operation (R304): with NOTE_EN, a COUNTER that moves from below LIMIT to LIMIT or above, a BARRIER whose GEN
advances, a SEMAPHORE that leaves 0 and a FLAG bit newly set that LIMIT selects raise source 128 + LINE, whatever other Blocks
share it; without NOTE_EN, or without the condition, and on a direct write of BLK_VALUE or BLK_LIMIT, no Block line rises. -/
def Obligations.BlockOperationsAct : Prop :=
  (∀ (s : State) (m : Master) (i : Fin 65536) (x : Word), s.opens m true (blkReg R.BLK_OP i) → s.dev.blkDev i = false →
      let v := s.dev.blkValue i
      let lim := s.dev.blkLimit i
      let top := if lim = 0 then 0xFFFFFFFF else lim.toNat
      let ovf := fun (u : State) => bit (u.dev.blkCfg i) 28
      let does := fun (p : State → Prop) => Answers (exec (.blkOpWrite m i x) s) fun u => u.dev.completion m = ⟨.ok, []⟩ ∧ p u
      (s.dev.blkType i = 0 → does fun u => ((u.dev.blkValue i).toNat : Int) = max 0 (min 0xFFFFFFFF (v.toNat + x.toInt))
          ∧ ovf u = (ovf s || decide (v.toNat + x.toInt < 0 ∨ 0xFFFFFFFF < v.toNat + x.toInt)))
      ∧ (s.dev.blkType i = 1 → does fun u => u.dev.blkValue i = (if max 1 (fld lim 0 16) ≤ fld v 0 16 + 1
          then (v &&& 0xFFFF0000#32) + 0x10000#32 else v + 1) ∧ ovf u = ovf s)
      ∧ (s.dev.blkType i = 2 → does fun u => (u.dev.blkValue i).toNat = min (v.toNat + x.toNat) top
          ∧ ovf u = (ovf s || decide (top < v.toNat + x.toNat)))
      ∧ (s.dev.blkType i = 3 → does fun u => u.dev.blkValue i = v ||| x ∧ ovf u = ovf s))
  ∧ (∀ (s : State) (m : Master) (i : Fin 65536), s.opens m false (blkReg R.BLK_OP i) →
        let v := s.dev.blkValue i
        let does := fun (p : State → Prop) => Answers (exec (.blkOpRead m i) s) fun u => u.dev.completion m = ⟨.ok, [v]⟩ ∧ p u
        let ovf := fun (u : State) => bit (u.dev.blkCfg i) 28
        (s.dev.blkDev i = true → does fun u => u.dev.regs = s.dev.regs)
        ∧ (s.dev.blkDev i = false → s.dev.blkType i = 0 → does fun u => u.dev.blkValue i = (if v = 0xFFFFFFFF#32 then v else v + 1)
            ∧ ovf u = (ovf s || decide (v = 0xFFFFFFFF#32)))
        ∧ (s.dev.blkDev i = false → s.dev.blkType i = 1 → does fun u => u.dev.blkValue i = (if max 1 (fld (s.dev.blkLimit i) 0 16) ≤ fld v 0 16 + 1
            then (v &&& 0xFFFF0000#32) + 0x10000#32 else v + 1) ∧ ovf u = ovf s)
        ∧ (s.dev.blkDev i = false → s.dev.blkType i = 2 → does fun u => u.dev.blkValue i = (if v = 0 then 0 else v - 1) ∧ ovf u = ovf s)
        ∧ (s.dev.blkDev i = false → s.dev.blkType i = 3 → does fun u => u.dev.blkValue i = 0 ∧ ovf u = ovf s))
  ∧ (∀ (s : State) (m : Master) (i : Fin 65536) (x : Word) (line : Fin 32), s.dev.blkDev i = false →
        let v := s.dev.blkValue i
        let lim := s.dev.blkLimit i
        let typ := s.dev.blkType i
        let noted := fun (u : State) => (typ = 0 ∧ lim ≠ 0 ∧ v < lim ∧ lim ≤ u.dev.blkValue i)
          ∨ (typ = 1 ∧ fld (u.dev.blkValue i) 16 16 ≠ fld v 16 16) ∨ (typ = 2 ∧ v = 0 ∧ u.dev.blkValue i ≠ 0)
          ∨ (typ = 3 ∧ (u.dev.blkValue i &&& ~~~v &&& (if lim = 0 then 0xFFFFFFFF#32 else lim)) ≠ 0)
        let up := fun (u : State) => u.dev.irq.pend.getLsbD (128 + line)
        let raises := fun (u : State) => (up u = true ↔ up s = true
          ∨ (bit (s.dev.blkCfg i) 24 = true ∧ fld (s.dev.blkCfg i) 16 5 = line.val ∧ noted u))
        (s.opens m true (blkReg R.BLK_OP i) → Answers (exec (.blkOpWrite m i x) s) raises)
        ∧ (s.opens m false (blkReg R.BLK_OP i) → Answers (exec (.blkOpRead m i) s) raises)
        ∧ (∀ r, (r = R.BLK_VALUE ∨ r = R.BLK_LIMIT) → s.opens m true (blkReg r i) → s.dev.passed 3 = true →
            Answers (exec (.regWrite m (BitVec.ofNat 40 (blkReg r i)) x 0) s) fun u => u.dev.rd (blkReg r i) = x ∧ up u = up s))

/-- A write of BLK_CFG (R301, R305): TYPE, NOTE_EN and LINE take the value written, and a change of TYPE zeroes VALUE and OVF; a
Block of the device takes NOTE_EN and LINE, and refuses a change of TYPE, which is counted and recorded. -/
def Obligations.BlockConfigWrites : Prop :=
  ∀ (s : State) (m : Master) (i : Fin 65536) (v : Word), s.opens m true (blkReg R.BLK_CFG i) →
    let c := s.dev.blkCfg i
    let sets := fun (u : State) => fld (u.dev.blkCfg i) 30 2 = fld v 30 2 ∧ bit (u.dev.blkCfg i) 24 = bit v 24
      ∧ fld (u.dev.blkCfg i) 16 5 = fld v 16 5 ∧ u.dev.blkDev i = s.dev.blkDev i
    (s.dev.blkDev i = false → fld v 30 2 = fld c 30 2 → Answers (exec (.blkCfgWrite m i v) s) fun u => sets u
        ∧ u.dev.blkValue i = s.dev.blkValue i ∧ bit (u.dev.blkCfg i) 28 = (bit c 28 && !bit v 28))
    ∧ (s.dev.blkDev i = false → fld v 30 2 ≠ fld c 30 2 → Answers (exec (.blkCfgWrite m i v) s) fun u => sets u
        ∧ u.dev.blkValue i = 0 ∧ bit (u.dev.blkCfg i) 28 = false)
    ∧ (s.dev.blkDev i = true → fld v 30 2 = fld c 30 2 → bit v 28 = false → Answers (exec (.blkCfgWrite m i v) s) fun u => sets u
        ∧ u.dev.blkValue i = s.dev.blkValue i)
    ∧ (s.dev.blkDev i = true → fld v 30 2 ≠ fld c 30 2 → Answers (exec (.blkCfgWrite m i v) s) fun u => u.dev.blkCfg i = c
        ∧ u.dev.rd R.CHN_BLK_REFUSED = w32 (satAdd 32 (s.dev.rd R.CHN_BLK_REFUSED).toNat 1)
        ∧ u.dev.rd R.CHN_BLK_LAST = w32 (2 ^ 31 + i))

/-- Writes of the pending and enable registers (R308, R311): IRQ_PEND_SET acts on sources 160 to 191 alone, IRQ_PEND_CLR on every
source, but a level source that is still asserted sets its bit again; IRQ_EN_SET and IRQ_EN_CLR act on one target.
Rests on model choices: log entry 24. -/
def Obligations.IrqRegistersAct : Prop :=
  ∀ (s : State) (m : Master) (i : Fin 8) (j : Fin 72) (v : Word), (∀ n : Fin 8, m = .sb n → n = 0) →
    let at_ := fun (i k : Nat) => decide (k / 32 = i) && v.getLsbD (k % 32)
    (s.opens m true (R.IRQ_PEND_SET + 4 * i) → Answers (exec (.irqPendSetWrite m i v) s) fun u =>
        (∀ k : Fin 256, k.val ∉ levelSources → u.dev.irq.pend.getLsbD k = (s.dev.irq.pend.getLsbD k || (decide (160 ≤ k.val ∧ k.val < 192) && at_ i k)))
        ∧ u.dev.irq.en = s.dev.irq.en)
    ∧ (s.opens m true (R.IRQ_PEND_CLR + 4 * i) → Answers (exec (.irqPendClrWrite m i v) s) fun u =>
        (∀ k : Fin 256, u.dev.irq.pend.getLsbD k = ((s.dev.irq.pend.getLsbD k && !at_ i k) || (levelSources.contains k.val && s.dev.asserted k)))
        ∧ u.dev.irq.en = s.dev.irq.en)
    ∧ (s.opens m true (R.IRQ_EN_SET + 4 * j) → Answers (exec (.irqEnSetWrite m j v) s) fun u =>
        ∀ (t : Fin 9) (k : Fin 256), (u.dev.irq.en.get zero256 t).getLsbD k
          = ((s.dev.irq.en.get zero256 t).getLsbD k || (decide (t.val = j.val / 8) && at_ (j.val % 8) k)))
    ∧ (s.opens m true (R.IRQ_EN_CLR + 4 * j) → Answers (exec (.irqEnClrWrite m j v) s) fun u =>
        ∀ (t : Fin 9) (k : Fin 256), (u.dev.irq.en.get zero256 t).getLsbD k
          = ((s.dev.irq.en.get zero256 t).getLsbD k && !(decide (t.val = j.val / 8) && at_ (j.val % 8) k)))

/-- A line rises once a source is pending and enabled for its target, if CNT is 0 or 1 or TIME has passed (R312). A running core
whose clock branch runs and which waits for no Freight leaves WFI, and takes the machine external interrupt where MIE and MEIE
are set (R313; the trap entry is the RISC-V one, log entry 5); the host is sent an INT for the source (R314).
The report of a station's latch (R309): the aggregator's bit of every kind takes the station's latched bit, and a set bit
raises the kind's source 74 + kind.
Rests on model choices: log entries 5, 24. -/
def Obligations.InterruptsReachTargets : Prop :=
  (∀ (s : State) (t : Fin 9) (k : Fin 256), s.dev.clocked = true → s.dev.irq.pend.getLsbD k = true → (s.dev.irq.en.get zero256 t).getLsbD k = true →
      let c := s.dev.core t
      let acts := fun (u : State) => u.dev.irq.line.getLsbD t = true
        ∧ (t.val ≠ 8 → c.running = true → c.halted = false → c.onFreight = false → s.dev.branchOn 3 t = true → (u.dev.core t).wfi = false
          ∧ (bit c.mstatus 3 = true → bit c.mie 11 = true → (u.dev.core t).mcause = 0x8000000B#32
            ∧ (u.dev.core t).mepc = (if c.wfi then c.pc + 4 else c.pc) ∧ (u.dev.core t).machine = true))
        ∧ (t.val = 8 → s.dev.irq.told = 0 → ∃ m ∈ u.dev.link.waitP, m.typ = mInt ∧ m.arg = w32 k)
      (s.dev.f (R.IRQ_MOD + 4 * t) 24 8 ≤ 1 → Answers (exec (.irqLineRise t) s) acts)
      ∧ (s.dev.f (R.IRQ_MOD + 4 * t) 0 16 ≠ 0 → Answers (exec (.irqModTimeExpiry t) s) acts))
  ∧ (∀ (s : State) (p : Fin 2304), s.dev.clocked = true → s.nv.enabled p = true →
        Answers (exec (.stnIrqReport p) s) fun u => ∀ k : Fin 6,
          u.dev.irq.stnMap.get falseAt (k * 4096 + p) = bit (s.dev.sW p stnIrqLatch) k
          ∧ (bit (s.dev.sW p stnIrqLatch) k = true → u.dev.irq.pend.getLsbD (74 + k) = true))

/-- Staging, push and pop by a core (R292, R293): a write of word 0 stages the low half; a write of word 1 appends the entry and
zeroes the stage, or blocks the core while the channel holds 16; a read of word 0 takes the head and latches its high half, or
blocks the core while the channel is empty. -/
def Obligations.ChannelAccessesQueue : Prop :=
  ∀ (s : State) (n : Fin 8) (reply : Bool) (c : Fin 32) (v : Word),
    let ch := chan reply c
    let es := s.dev.chEntries ch
    let e := word64 v (s.dev.chn.stage.get zeroWord n)
    s.dev.coreActs n = true → chanClosed n ch = false →
    (s.opens (.sb n) true (chanAddr ch 0) → Answers (exec (.chnStageWrite n reply c v) s) fun u => u.dev.chn.stage.get zeroWord n = v
        ∧ u.dev.chEntries ch = es ∧ u.dev.completion (.sb n) = ⟨.ok, []⟩)
    ∧ (s.opens (.sb n) true (chanAddr ch 1) → s.dev.parked n = false → es.length < 16 → (∀ k < 8, (s.dev.core k).blocked = none) →
        Answers (exec (.chnPush n reply c v) s) fun u => u.dev.chEntries ch = es ++ [e] ∧ u.dev.chn.stage.get zeroWord n = 0
          ∧ u.dev.completion (.sb n) = ⟨.ok, []⟩)
    ∧ (s.opens (.sb n) true (chanAddr ch 1) → s.dev.parked n = false → es.length = 16 →
        Answers (exec (.chnPush n reply c v) s) fun u => u.dev.chEntries ch = es ∧ (u.dev.core n).blocked = some (.push ch e))
    ∧ (s.opens (.sb n) false (chanAddr ch 0) → s.dev.hostChan ch = false → es ≠ [] → (∀ k < 8, (s.dev.core k).blocked = none) →
        Answers (exec (.chnPop n reply c) s) fun u => u.dev.chEntries ch = es.tail
          ∧ u.dev.chn.latch.get zeroWord n = hiWord (es.headD 0) ∧ u.dev.completion (.sb n) = ⟨.ok, [loWord (es.headD 0)]⟩)
    ∧ (s.opens (.sb n) false (chanAddr ch 0) → s.dev.hostChan ch = false → es = [] →
        Answers (exec (.chnPop n reply c) s) fun u => u.dev.chEntries ch = [] ∧ (u.dev.core n).blocked = some (.pop ch))

/-- Channels 0 to 3 of both kinds are closed to SB1 to SB7 (R298): an access of theirs to a data register there, and a write of
CHN_RPY_CFG or CHN_STALL_LIMIT, takes an access fault, counts in DENY and changes no channel.
Rests on model choices: log entry 5. -/
def Obligations.ClosedChannelsDenied : Prop :=
  ∀ (s : State) (n : Fin 8) (reply : Bool) (c : Fin 4) (k : Fin 32) (v : Word), s.dev.clocked = true → n ≠ 0 → s.dev.coreActs n = true →
    let ch : Fin 32 := ⟨c.val, by omega⟩
    let deny := R.SYS_SB_STATE + 4 * n.val
    let faults := fun (code : Nat) (u : State) => u.dev.completion (.sb n) = ⟨.fault, []⟩ ∧ (u.dev.core n).mcause = w32 code
      ∧ fld (u.dev.rd deny) 0 16 = satAdd 16 (fld (s.dev.rd deny) 0 16) 1 ∧ u.dev.chn = s.dev.chn
      ∧ ∀ a, a ≠ deny → u.dev.rd a = s.dev.rd a
    Answers (exec (.chnStageWrite n reply ch v) s) (faults 7) ∧ Answers (exec (.chnPush n reply ch v) s) (faults 7)
    ∧ Answers (exec (.chnPop n reply ch) s) (faults 5)
    ∧ Answers (exec (.regWrite (.sb n) (BitVec.ofNat 40 (R.CHN_RPY_CFG + 4 * k)) v 0) s) (faults 7)
    ∧ Answers (exec (.regWrite (.sb n) (BitVec.ofNat 40 R.CHN_STALL_LIMIT) v 0) s) (faults 7)

/-- Parking (R295, R296): a push blocked for the limit goes into the core's park register, sets its bit of CHN_ERR and so raises
its park source, and the core goes on; RETRY appends the parked entry where there is room, and DISCARD drops it.
The entries of a host reply channel leave in one MSG for the host that names the channel (R297). -/
def Obligations.ParkedEntriesAndHostDrain : Prop :=
  (∀ (s : State) (m : Master) (o : Fin 8), s.dev.clocked = true →
      let ch := s.dev.parkedChan o
      (∀ ch e, ch < 64 → (s.dev.core o).blocked = some (.push ch e) → s.dev.parked o = false →
        Answers (exec (.chnStallExpiry o) s) fun u => u.dev.parked o = true ∧ u.dev.parkedChan o = ch ∧ u.dev.parkedEntry o = e
          ∧ (u.dev.core o).blocked = none ∧ u.dev.completion (.sb o) = ⟨.ok, []⟩ ∧ u.dev.chEntries ch = s.dev.chEntries ch
          ∧ bit (u.dev.rd R.CHN_ERR) o = true ∧ u.dev.irq.pend.getLsbD (48 + o) = true)
      ∧ ((∀ n, m ≠ .sb n) → s.opens m true (park R.CHN_PARK_CTRL o) → s.dev.parked o = true →
          ((s.dev.chEntries ch).length < 16 → (∀ k < 8, (s.dev.core k).blocked = none) →
            Answers (exec (.chnParkRetry m o) s) fun u => u.dev.chEntries ch = s.dev.chEntries ch ++ [s.dev.parkedEntry o]
              ∧ u.dev.parked o = false ∧ u.dev.completion m = ⟨.ok, []⟩)
          ∧ Answers (exec (.chnParkDiscard m o) s) fun u => u.dev.parked o = false ∧ u.dev.chn = s.dev.chn
              ∧ u.dev.completion m = ⟨.ok, []⟩))
  ∧ (∀ (s : State) (c : Fin 32), s.dev.clocked = true → s.dev.hostChan (32 + c) = true → s.dev.linkUp = true →
        let es := s.dev.chEntries (32 + c)
        es ≠ [] → es.length ≤ 16 → s.dev.creditP (8 * es.length) = true → (∀ k < 8, (s.dev.core k).blocked = none) →
        Answers (exec (.rpyHostDrain c) s) fun u => u.dev.chEntries (32 + c) = []
          ∧ u.dev.link.waitP = s.dev.link.waitP ++ [
              { typ := mMsg, flags := 0, addrHi := 0, arg := w32 c, payload := es.flatMap (fun e => leBytes 8 e.toNat), after := 0 }])

/-- A submission (R282): word 3 queues a descriptor that the checks accept, in submission order, and XCH_SDMA_LAST of the core
says so; one that they do not accept is BAD, and one that finds the 64-entry queue full is BUSY.
A descriptor starts, ends and is read (R283, R284): the next one in order is started, where the Depot banks it names are under
no test; one whose transactions have all ended enters its core's completion FIFO with VALID, RESULT and TAG and leaves the
queue, and raises source 56 + core where it asks for that; a read of XCH_SDMA_CPL takes the head. -/
def Obligations.SignalDmaRuns : Prop :=
  (∀ (s : State) (n : Fin 8) (v : Word), s.opens (.sb n) true (R.XCH_SDMA_D + 12) →
      let m : Master := .sb n
      let ws := [s.dev.mrd m R.XCH_SDMA_D, s.dev.mrd m (R.XCH_SDMA_D + 4), s.dev.mrd m (R.XCH_SDMA_D + 8), v]
      let last := fun (u : State) (b : Nat) => u.dev.mrd m R.XCH_SDMA_LAST = w32 (2 ^ 31 + 2 ^ b + fld v 0 16)
      (s.dev.sdOk s.nv ws = true → s.dev.descQueue < 64 → Answers (exec (.sdmaSubmit m v) s) fun u => last u 30
          ∧ ∃ q, u.dev.sdma = s.dev.sdma ++ [q] ∧ q.words = ws ∧ q.core = n.val ∧ q.started = false)
      ∧ (s.dev.sdOk s.nv ws = true → 64 ≤ s.dev.descQueue → Answers (exec (.sdmaSubmit m v) s) fun u => last u 29
          ∧ u.dev.sdma = s.dev.sdma)
      ∧ (s.dev.sdOk s.nv ws = false → Answers (exec (.sdmaSubmit m v) s) fun u => last u 28 ∧ u.dev.sdma = s.dev.sdma))
  ∧ (∀ (s : State) (q : SdmaDesc) (rest : List SdmaDesc) (n : Fin 8), s.dev.sdma = q :: rest → q.core = n.val →
        let fifo := s.dev.sdmaCpl.get cplDflt n
        (s.runs 4 0 → q.started = false → (∀ r ∈ rest, r.id ≠ q.id) → s.dev.tpl.waitFreight = false →
          s.dev.banksTested (sdDpt q.words) (sdLen q.words) = false →
          Answers (exec .sdmaStart s) fun u => ∃ q', u.dev.sdma = q' :: rest ∧ q'.started = true ∧ q'.id = q.id ∧ q'.words = q.words)
        ∧ (s.runs 4 0 → q.started = true → q.left = 0 → fifo.length < 16 →
            Answers (exec (.sdmaComplete 0) s) fun u => u.dev.sdma = rest
              ∧ u.dev.sdmaCpl.get cplDflt n = fifo ++ [w32 (2 ^ 31 + q.result * 2 ^ 28 + sdTag q.words)]
              ∧ (bit (sdWord q.words 0) 31 = true → u.dev.irq.pend.getLsbD (56 + n) = true))
        ∧ (s.opens (.sb n) false R.XCH_SDMA_CPL →
            Answers (exec (.sdmaCplRead (.sb n)) s) fun u => u.dev.sdmaCpl.get cplDflt n = fifo.tail
              ∧ u.dev.completion (.sb n) = ⟨.ok, [fifo.headD 0]⟩ ∧ u.dev.sdma = s.dev.sdma))

/-! ### Clocks, power, pins and tokens of power (chapter 16) -/

/-- A source switch (R332): a write of SEL takes effect and sets PENDING unless one is PENDING, which makes it void; PENDING
clears once the new clock drives the island, for which the old source and the new one must run; a switch that does not
complete sets HANG and HANG_EVT and raises source 102.
The XCH ratio (R334, R344): a FLOOR that is not raised above both the present one and the ratio takes effect at once; one that
is raised asks the Token Office, and takes effect when granted, the ratio moving after it; each step moves the ratio one unit
toward its target.
Rests on model choices: log entry 25. -/
def Obligations.ClockSourcesChange : Prop :=
  (∀ (s : State) (i : Fin 4) (v : Word), s.dev.clocked = true →
      let w := s.dev.rd (clkSel i)
      let now := fun (u : State) => u.dev.rd (clkSel i)
      (bit w 31 = false → Answers (exec (.clkSwitch i v) s) fun u => fld (now u) 0 1 = fld v 0 1 ∧ bit (now u) 31 = true
          ∧ bit (now u) 30 = bit w 30)
      ∧ (bit w 31 = true → Answers (exec (.clkSwitch i v) s) fun u => u.dev.regs = s.dev.regs ∧ u.dev.switches = s.dev.switches)
      ∧ (bit w 31 = true → bit w 30 = false → (s.dev.switches.get noSwitch i).2 = false →
          (s.dev.switchFed i = true → Answers (exec (.clkSwitchComplete i) s) fun u => bit (now u) 31 = false ∧ fld (now u) 0 1 = fld w 0 1)
          ∧ (s.dev.switchFed i = false → s.dev.islandRuns i = false
            ∧ Answers (exec (.clkSwitchComplete i) s) fun u => u.dev.regs = s.dev.regs))
      ∧ (bit w 31 = true → bit w 30 = false → Answers (exec (.clkSwitchHang i) s) fun u => bit (now u) 30 = true
          ∧ bit (u.dev.rd R.CLK_STATUS) 29 = true ∧ u.dev.irq.pend.getLsbD 102 = true ∧ u.dev.islandRuns i = false))
  ∧ (∀ (s : State) (v : Word), s.dev.clocked = true →
        let f := floorOf (fld v 0 4)
        let r := s.dev.xchRatio
        let asks := fun (q : TokReq) => q.req == rqXch
        ((f ≤ r ∨ f ≤ s.dev.xchFloor) → Answers (exec (.xchFloorWrite v) s) fun u => u.dev.xchFloor = f ∧ u.dev.xchRatio = r
            ∧ u.dev.xchWant = none ∧ u.dev.tok.queue.any asks = false)
        ∧ (r < f → s.dev.xchFloor < f → s.dev.tok.queue.any asks = false → s.dev.tok.grants.any asks = false →
            s.dev.tokHopeless ⟨rqXch, 2, s.dev.rd (R.PWR_TOK_COST + 8), s.dev.now⟩ = false →
            Answers (exec (.xchFloorWrite v) s) fun u => u.dev.xchFloor = s.dev.xchFloor ∧ u.dev.xchWant = some (fld v 0 4)
              ∧ u.dev.tok.queue = s.dev.tok.queue ++ [⟨rqXch, 2, s.dev.rd (R.PWR_TOK_COST + 8), s.dev.now⟩])
        ∧ (∀ (q : TokReq) (pre post : List TokReq) (w : Nat), s.dev.tok.queue = pre ++ q :: post → q.req = rqXch → q.cls < 7 →
            s.dev.tokFits q = true → (∀ r ∈ pre, r.cls ≤ q.cls → s.dev.tokFits r = false) → (∀ r ∈ post, r.cls < q.cls → s.dev.tokFits r = false) →
            s.dev.xchWant = some w → w < 16 → r < floorOf w →
            Answers (exec .tokenGrant s) fun u => u.dev.xchFloor = floorOf w ∧ u.dev.xchRatio = r ∧ u.dev.xchWant = none
              ∧ u.dev.tok.grants = s.dev.tok.grants ++ [q] ∧ u.dev.tok.queue.any asks = false)
        ∧ (s.dev.pwrState = 0 → s.dev.islandRuns 4 = true → r < 15 → Answers (exec .xchRatioStep s) fun u =>
            u.dev.xchRatio = if r < s.dev.xchTarget then r + 1 else if s.dev.xchTarget < r then r - 1 else r))

/-- Loss and return of clocks (R333, R337, R354): SBCLK stopping takes the PLLs' lock and the transport with it; its return sets
TIME_LOST and UNLOCK_EVT and raises source 102, and the PLLs lock again where stage 2 set them up; its first start lets bring-
up begin; a forwarded clock that stops takes the mainband with it where LINK runs from it, and not otherwise.
The monitors (R338, R339, R342): CLK_MON takes what the last samples showed, and a source that stopped under an island sets
MON_EVT and raises source 102; CLK_FREQ takes the counts; CLK_HSM takes the count of each site beside its reference, and
KF_EVT is set where a site's ratio, of 12 fractional bits, is above the limit.
Rests on model choices: log entries 8, 17, 25, 53. -/
def Obligations.ClocksStopAndAreMonitored : Prop :=
  (∀ s : State,
      (s.dev.clocked = true → Answers (exec .sbclkStop s) fun u => u.dev.sbclk = false ∧ u.dev.clocked = false
          ∧ u.dev.f R.CLK_STATUS 0 4 = 0 ∧ u.dev.linkUp = false ∧ u.dev.link = Link.init ∧ u.dev.rings = [])
      ∧ (s.dev.powered = true → s.dev.sbclk = false → s.dev.boot.started = true → Answers (exec .sbclkReturn s) fun u =>
          u.dev.clocked = true ∧ bit (u.dev.rd R.CLK_STATUS) 31 = true ∧ bit (u.dev.rd R.CLK_STATUS) 30 = true
          ∧ u.dev.irq.pend.getLsbD 102 = true
          ∧ (2 ≤ s.dev.f (R.SYS_BOOT_REPORT + 8) 30 2 → s.dev.pwrState ≠ 2 → u.dev.f R.CLK_STATUS 0 4 = 15))
      ∧ (s.dev.powered = true → s.dev.boot.started = false → Answers (exec .sbclkStart s) fun u => u.dev.clocked = true
          ∧ u.dev.boot.started = true ∧ u.dev.regs = s.dev.regs)
      ∧ (s.dev.clocked = true → s.dev.clkOf 0 = 1 → Answers (exec .forwardedClockLoss s) fun u => u.dev.fwdClk = false
          ∧ u.dev.link = Link.init ∧ u.dev.linkUp = false ∧ u.dev.sbclk = true)
      ∧ (s.dev.clocked = true → s.dev.clkOf 0 ≠ 1 → Answers (exec .forwardedClockLoss s) fun u => u.dev.fwdClk = false
          ∧ u.dev.link = s.dev.link ∧ u.dev.regs = s.dev.regs))
  ∧ (∀ (s : State) (run : BitVec 7) (freq : List Word) (hsm : List Half), s.dev.clocked = true →
        (Answers (exec (.clkMonUpdate run) s) fun u => u.dev.rd R.CLK_MON = w32 run.toNat
            ∧ ((∃ i < 5, bit (s.dev.rd R.CLK_MON) (s.dev.clkOf i) = true ∧ run.getLsbD (s.dev.clkOf i) = false) →
                bit (u.dev.rd R.CLK_STATUS) 27 = true ∧ u.dev.irq.pend.getLsbD 102 = true))
        ∧ (freq.length = 10 → Answers (exec (.clkFreqUpdate freq) s) fun u => ∀ k : Fin 10,
            u.dev.rd (R.CLK_FREQ + 4 * (k + 1)) = freq.getD k 0)
        ∧ (hsm.length = 64 → Answers (exec (.hsmUpdate hsm) s) fun u => ∀ k : Fin 64,
            u.dev.rd (R.CLK_HSM + 4 * k) = w32 ((s.nv.hsmRef.getD k 0).toNat * 65536 + (hsm.getD k 0).toNat)
            ∧ ((hsm.getD k 0).toNat * s.dev.f R.CLK_KF_LIM 0 16 + (hsm.getD k 0).toNat ≤ (s.nv.hsmRef.getD k 0).toNat * 4096 →
                s.dev.f R.CLK_KF_LIM 0 16 < 0xFFFF → bit (u.dev.rd R.CLK_STATUS) 28 = true ∧ u.dev.irq.pend.getLsbD 102 = true)))

/-- Movements of VDD_FAB (R347): a target is limited to 450 to 850 mV, with CLAMP where it was outside; the device moves down in
steps of STEP without a grant, and asks for one for each step up, or sets DENIED where none could ever be given; the voltage
read back stands in CONFIRMED, and the movement ends at the goal or takes its next step toward it; a frame is retried three
times before ERR; alerts and measurements are taken.
Rests on model choices: log entry 26. -/
def Obligations.FabricVoltageMoves : Prop :=
  ∀ (s : State) (v : Word) (mv iout : BitVec 10), s.dev.clocked = true →
    let goal := max 450 (min 850 (fld v 0 10))
    let moving := fun (u : State) => bit (u.dev.rd R.PWR_VFAB_STATE) 31
    let asks := fun (q : TokReq) => q.req == rqAvs
    let request : TokReq := ⟨rqAvs, tokClass rqAvs, s.dev.rd (R.PWR_TOK_COST + 4 * tokClass rqAvs), s.dev.now⟩
    let up := fun (u : State) (now goal : Nat) => moving u = true ∧ u.dev.vfab.waiting = true
      ∧ u.dev.vfab.stepTo = some (min goal (now + s.dev.vfabUnit)) ∧ u.dev.tok.queue = s.dev.tok.queue ++ [request]
    let denied := fun (u : State) => moving u = false ∧ u.dev.vfab.stepTo = none ∧ bit (u.dev.rd R.PWR_VFAB_STATE) 27 = true
      ∧ u.dev.irq.pend.getLsbD 103 = true
    (Answers (exec (.vfabTargetWrite v) s) fun u => u.dev.rd R.PWR_VFAB_TARGET = w32 goal
        ∧ (goal ≠ fld v 0 10 → bit (u.dev.rd R.PWR_VFAB_STATE) 29 = true ∧ u.dev.irq.pend.getLsbD 103 = true)
        ∧ u.dev.vfab.goal = goal
        ∧ (s.dev.vfab.stepTo = none → goal < s.dev.vfabNow → moving u = true
            ∧ u.dev.vfab.stepTo = some (max goal (s.dev.vfabNow - s.dev.vfabUnit)) ∧ u.dev.vfab.waiting = false)
        ∧ (s.dev.vfab.stepTo = none → s.dev.vfabNow < goal → s.dev.tok.queue.any asks = false → s.dev.tok.grants.any asks = false →
            if s.dev.tokHopeless request then denied u else up u s.dev.vfabNow goal)
        ∧ (∀ t, s.dev.vfab.stepTo = some t → s.dev.vfab.waiting = true → goal < t → goal < s.dev.vfabNow → moving u = true
            ∧ u.dev.vfab.stepTo = some (max goal (s.dev.vfabNow - s.dev.vfabUnit)) ∧ u.dev.vfab.waiting = false
            ∧ u.dev.tok.queue.any (fun q => q.req == rqAvs) = false))
    ∧ (∀ dest, s.dev.vfab.stepTo = some dest → s.dev.vfab.waiting = false →
        (Answers (exec (.vfabStepReady mv) s) fun u => u.dev.vfabNow = mv.toNat
          ∧ (dest = s.dev.vfab.goal → moving u = false ∧ u.dev.vfab.stepTo = none)
          ∧ (dest ≠ s.dev.vfab.goal → mv.toNat = s.dev.vfab.goal → moving u = false ∧ u.dev.vfab.stepTo = none)
          ∧ (dest ≠ s.dev.vfab.goal → s.dev.vfab.goal < mv.toNat → moving u = moving s ∧ u.dev.vfab.waiting = false
              ∧ u.dev.vfab.stepTo = some (max s.dev.vfab.goal (mv.toNat - s.dev.vfabUnit)))
          ∧ (dest ≠ s.dev.vfab.goal → mv.toNat < s.dev.vfab.goal → s.dev.tok.queue.any asks = false → s.dev.tokHopeless request = false →
              moving s = true → up u mv.toNat s.dev.vfab.goal))
        ∧ (s.dev.vfab.retries < 3 → Answers (exec (.vfabReadyTimeout true) s) fun u => u.dev.vfab.retries = s.dev.vfab.retries + 1
            ∧ u.dev.regs = s.dev.regs)
        ∧ (3 ≤ s.dev.vfab.retries → Answers (exec (.vfabReadyTimeout true) s) fun u => moving u = false
            ∧ bit (u.dev.rd R.PWR_VFAB_STATE) 30 = true ∧ u.dev.irq.pend.getLsbD 103 = true)
        ∧ (Answers (exec (.vfabReadyTimeout false) s) fun u => moving u = false ∧ u.dev.vfab.stepTo = none
            ∧ bit (u.dev.rd R.PWR_VFAB_STATE) 30 = true ∧ u.dev.irq.pend.getLsbD 103 = true))
    ∧ (Answers (exec .avsAlert s) fun u => bit (u.dev.rd R.PWR_VFAB_STATE) 28 = true ∧ u.dev.irq.pend.getLsbD 103 = true
        ∧ bit (u.dev.rd R.PIN_BC_ALERT) 4 = true)
    ∧ (s.dev.vfab.stepTo = none → Answers (exec (.vfabTelemetry mv iout) s) fun u =>
        u.dev.rd R.PWR_VFAB_MEAS = w32 (iout.toNat * 65536 + mv.toNat))

/-- Power states (R349, R350): a request is refused with the first reason that holds, or sets ENTERING; the state is entered once
every running core is in WFI, or the request refused with reason 5; an enabled cause returns the device to RUN, is recorded,
and lets the cores go on.
Why a request for SLEEP or DEEP is refused (R349): code 1 while a world is live and not held, 2 while a grant is held, 6
outside RUN; and with none of the reasons it is not refused.
Rests on model choices: log entries 18, 26, 51. -/
def Obligations.PowerStatesChange : Prop :=
  (∀ (s : State) (c : Fin 7), s.dev.clocked = true →
      let why := fun (u : State) => u.dev.f R.PWR_STATE 8 8
      let entering := fun (u : State) => bit (u.dev.rd R.PWR_STATE) 28
      let wakes := fun (k : Nat) (u : State) => u.dev.pwrState = 0 ∧ bit (u.dev.rd R.PWR_STATE) k = true ∧ ∀ n : Fin 8, (u.dev.core n).wfi = false
      let sleeps := s.dev.pwrState = 1 ∨ s.dev.pwrState = 2
      (s.dev.pwrRefuse 1 = 0 → Answers (exec .pwrSleepReq s) fun u => entering u = true ∧ why u = 0 ∧ u.dev.pwr.target = 1)
      ∧ (s.dev.pwrRefuse 2 = 0 → Answers (exec .pwrDeepReq s) fun u => entering u = true ∧ why u = 0 ∧ u.dev.pwr.target = 2)
      ∧ (s.dev.pwrRefuse 1 ≠ 0 → Answers (exec .pwrSleepReq s) fun u => why u = s.dev.pwrRefuse 1 ∧ entering u = entering s ∧ u.dev.pwr = s.dev.pwr)
      ∧ (s.dev.pwrRefuse 2 ≠ 0 → Answers (exec .pwrDeepReq s) fun u => why u = s.dev.pwrRefuse 2 ∧ entering u = entering s ∧ u.dev.pwr = s.dev.pwr)
      ∧ (entering s = true → s.dev.coresIdle = true → s.dev.pwr.target < 4 →
          Answers (exec .pwrStateEntry s) fun u => u.dev.pwrState = s.dev.pwr.target ∧ entering u = false)
      ∧ (entering s = true → Answers (exec .pwrEntryTimeout s) fun u => entering u = false ∧ why u = 5 ∧ u.dev.pwrState = s.dev.pwrState)
      ∧ (sleeps → bit (s.dev.rd R.PWR_STATE) 29 = false → Answers (exec .pwrWakeReq s) (wakes 0))
      ∧ (sleeps → bit (s.dev.rd R.PWR_STATE) 29 = false → bit (s.dev.rd R.PWR_WAKE_EN) c = true → c.val ≠ 2 →
          (c.val = 1 → s.dev.pwrState = 1) →
          (c.val = 3 → ∃ p : Fin 16, s.dev.pinWakes p = true) → (c.val = 4 → ∃ k : Fin 8, s.dev.linkListens k = true) →
          Answers (exec (.wakeCauseEvent c) s) (wakes c))
      ∧ (sleeps → bit (s.dev.rd R.PWR_STATE) 29 = false → bit (s.dev.rd R.PWR_WAKE_EN) 2 = true → s.dev.rd R.PWR_WAKE_TIME ≠ 0 →
          Answers (exec .pwrWakeTimeExpiry s) (wakes 2)))
  ∧ (∀ (d : Dev) (t : Nat),
        let trip := bit (d.rd R.PWR_STATE) 28 || bit (d.rd R.PWR_STATE) 29
        ((d.pwrState ≠ 0 ∨ trip = true) ↔ d.pwrRefuse t = 6)
        ∧ (d.pwrRefuse t = 1 ↔ d.pwrState = 0 ∧ trip = false ∧ ∃ w ∈ d.worldIds, d.active w = true)
        ∧ (d.pwrRefuse t = 2 ↔ d.pwrState = 0 ∧ trip = false ∧ (∀ w ∈ d.worldIds, d.active w = false) ∧ d.tok.grants ≠ []))

/-- A sample of the sensors (R351, R352): each PWR_TEMP takes its reading, PWR_TEMP_MAX the hottest, WARN is set at the limit and
cleared 5 degrees below it, and 115 degrees trips the device.
GPIO pins (R310, R431): a change of the filtered level is the pin's output, and an edge of the kind that the configuration
selects raises source 32 + pin; a pin that the device drives takes no other level from outside; a write that changes
IRQ_PIN_CFG restarts the filter from the present level and raises no event.
Rests on model choices: log entries 24, 51. -/
def Obligations.TemperatureAndPinsReport : Prop :=
  (∀ (s : State) (temps : List (BitVec 12)), s.dev.clocked = true → temps.length = 64 →
      let limit : Int := 4 * (s.dev.f R.PWR_THERM_CFG 0 8 : Nat)
      let warn := fun (u : State) => bit (u.dev.rd R.PWR_THERM_STATE) 31
      Answers (exec (.tempSample temps) s) fun u =>
        (∀ k : Fin 64, u.dev.rd (R.PWR_TEMP + 4 * k) = w32 (temps.getD k 0).toNat)
        ∧ (∃ k : Fin 64, u.dev.rd R.PWR_TEMP_MAX = w32 (k * 65536 + (temps.getD k 0).toNat) ∧ ∀ t ∈ temps, t.toInt ≤ (temps.getD k 0).toInt)
        ∧ ((∃ t ∈ temps, limit ≤ t.toInt) → warn s = false → warn u = true ∧ u.dev.irq.pend.getLsbD 101 = true)
        ∧ ((∀ t ∈ temps, t.toInt ≤ limit - 20) → warn u = false)
        ∧ ((∃ t ∈ temps, 460 ≤ t.toInt) → bit (u.dev.rd R.PWR_STATE) 29 = true))
  ∧ (∀ (s : State) (m : Master) (p : Fin 16) (level : Bool) (v : Word),
        let mode := fun (d : Dev) => d.f (R.IRQ_PIN_CFG + 4 * p) 8 2
        (s.dev.clocked = true → (s.dev.pinDriven p = true → s.dev.pinRaw p = level) →
          Answers (exec (.pinEdge p level) s) fun u => u.dev.irq.pinOut.getLsbD p = level
            ∧ (s.dev.irq.pinOut.getLsbD p = !level → (mode s.dev = 2 ∧ level = true ∨ mode s.dev = 3 ∧ level = false) →
                u.dev.irq.pend.getLsbD (32 + p) = true))
        ∧ (s.dev.pinDriven p = true → s.dev.pinRaw p = !level → Answers (exec (.pinEdge p level) s) fun u =>
            u.dev.irq.pinOut = s.dev.irq.pinOut ∧ u.dev.pins = s.dev.pins ∧ u.dev.regs = s.dev.regs)
        ∧ (s.opens m true (R.IRQ_PIN_CFG + 4 * p) → (∀ n : Fin 8, m = .sb n → n = 0) →
            Answers (exec (.irqPinCfgWrite m p v) s) fun u => u.dev.rd (R.IRQ_PIN_CFG + 4 * p) = v &&& 0x7FF#32 ||| s.dev.rd (R.IRQ_PIN_CFG + 4 * p) &&& ~~~0x7FF#32
              ∧ u.dev.irq.pinOut.getLsbD p = (if u.dev.rd (R.IRQ_PIN_CFG + 4 * p) = s.dev.rd (R.IRQ_PIN_CFG + 4 * p)
                  then s.dev.irq.pinOut.getLsbD p else s.dev.pinRaw p)
              ∧ (2 ≤ fld v 8 2 → u.dev.irq.pend.getLsbD (32 + p) = s.dev.irq.pend.getLsbD (32 + p))))

/-- A grant chance (R344): the fitting request of lowest class number, and in a class the earliest, leaves the queue and holds a
grant, and its requester goes on; at the training grant GD_RESET_N is released (R428, log entry 53). Stated for the streamers,
the projection units, the GDDR6 training and the AVSBus host, whose grant is not returned at once.
A request that waits too long is refused (R345): it leaves the queue, PWR_TOK_REFUSED of its class counts it and source 100 is
raised; a refused stream ends its reads, a refused movement sets DENIED, a refused ramp sets its flag, and a refused training
fails its stage.
Rests on model choices: log entries 10, 53. -/
def Obligations.TokenOfficeGrantsAndRefuses : Prop :=
  (∀ (s : State) (q : TokReq) (pre post : List TokReq), s.dev.clocked = true → s.dev.tok.queue = pre ++ q :: post → q.cls < 7 →
      s.dev.tokFits q = true → (∀ r ∈ pre, r.cls ≤ q.cls → s.dev.tokFits r = false) → (∀ r ∈ post, r.cls < q.cls → s.dev.tokFits r = false) →
      (q.req < 12 ∨ 13 ≤ q.req ∧ q.req < 17 ∨ q.req = rqTrain ∨ q.req = rqAvs) →
      Answers (exec .tokenGrant s) fun u => u.dev.tok.grants = s.dev.tok.grants ++ [q]
        ∧ u.dev.tok.queue = s.dev.tok.queue.filter (fun r => r.req != q.req)
        ∧ (q.req < 12 → (u.dev.streamer q.req).grant = 2)
        ∧ (13 ≤ q.req ∧ q.req < 17 → (u.dev.prj (q.req - 13)).grant = 2)
        ∧ (q.req = rqTrain → ∀ k : Fin 12, u.dev.gdResetN k = s.nv.streamerList.contains k.val)
        ∧ (q.req = rqAvs → u.dev.vfab.waiting = false))
  ∧ (∀ (s : State) (r : Fin 22), s.dev.clocked = true → s.dev.tok.queue.any (fun q => q.req == r.val) = true →
        (r.val = rqTrain → s.dev.rst.waiting = false) →
        let reg := R.PWR_TOK_REFUSED + 4 * tokClass r
        Answers (exec (.tokenWaitExpiry r) s) fun u => u.dev.irq.pend.getLsbD 100 = true
          ∧ (∀ q ∈ u.dev.tok.queue, q.req ≠ r.val)
          ∧ u.dev.rd reg = w32 (satAdd 32 (s.dev.rd reg).toNat 1)
          ∧ (r.val < 12 → (u.dev.streamer r).reads = [] ∧ (u.dev.streamer r).dram = [] ∧ (u.dev.streamer r).grant = 0)
          ∧ (r.val = rqXch → bit (u.dev.rd R.CLK_XCH) 31 = true ∧ u.dev.xchWant = none)
          ∧ (r.val = rqTrain → bit (u.dev.rd R.SYS_BOOT_STAGE) 30 = true)
          ∧ (r.val = rqMarch → u.dev.mbt = none ∧ u.dev.f R.MBT_STATUS 8 8 = 3)
          ∧ (r.val = rqAvs → bit (u.dev.rd R.PWR_VFAB_STATE) 27 = true ∧ u.dev.irq.pend.getLsbD 103 = true))

/-! ### Worlds and time steps (chapter 6) -/

/-- A release (R131): once the barrier has completed, the boundary has passed, the next bank is empty and the world is neither
held nor faulted, and no world of lower ID can be released, a world of this device alone enters its next step, 0 at first,
with its input open and, but for a first step, the counters of the step's bank clear, and every station that holds it is told;
a held or faulted world, or one whose bank is not empty, keeps its step.
Late steps (R141 to R144): a boundary that passes over an incomplete step counts MISSED; the first counts OVERRUN too and sets
the world's bit of XCH_WLD_OVR_MAP; SKIP then closes the input, FAULT faults the world with cause 1, STRETCH lets it go on,
and its limit faults it with cause 2. A step that has completed is not late.
Rests on model choices: log entries 27, 29, 48. -/
def Obligations.StepsReleaseAndRunLate : Prop :=
  (∀ (s : State) (w : Fin 4096), s.dev.clocked = true →
      let x := s.dev.wld w
      let t := if x.started then (x.step + 1) % 65536 else 0
      (x.live = true → x.held = false → x.faulted = false → s.dev.pwrState = 0 → x.bankEmpty = true → s.dev.sysWorld w = false →
          x.skip = false → (x.started = true → x.done = true) → (x.free = true ∨ x.dueB < x.nextB) →
          (∀ v ∈ s.dev.liveIds, v < w.val → s.dev.releasable v = false) →
          Answers (exec (.stepRelease w) s) fun u => (u.dev.wld w).step = t ∧ (u.dev.wld w).started = true ∧ (u.dev.wld w).done = false
            ∧ (u.dev.wld w).inputOpen = true ∧ (u.dev.wld w).bankEmpty = false ∧ (u.dev.wld w).dueB = x.nextB
            ∧ (x.started = true → (u.dev.wld w).created.get zeroNat (t % 2) = 0 ∧ (u.dev.wld w).consumed.get zeroNat (t % 2) = 0)
            ∧ ∀ q ∈ s.dev.places w, (u.dev.stn q.1).release.get (fun _ => none) q.2 = some (t, false))
      ∧ ((x.held = true ∨ x.faulted = true ∨ x.bankEmpty = false) →
          Answers (exec (.stepRelease w) s) fun u => u.dev.worlds = s.dev.worlds ∧ u.dev.stns = s.dev.stns))
  ∧ (∀ (s : State) (w : Fin 4096), s.dev.clocked = true →
        let x := s.dev.wld w
        let n := fun (u : State) (i : Nat) => (u.dev.wreg w i).toNat
        let late := fun (u : State) => n u wMissed = min (n s wMissed + 1) 0xFFFFFFFF ∧ n u wOverrun = min (n s wOverrun + 1) 0xFFFFFFFF
          ∧ bit (u.dev.rd (R.XCH_WLD_OVR_MAP + 4 * (w / 32))) (w % 32) = true ∧ (u.dev.wld w).late = true ∧ (u.dev.wld w).nextB = x.nextB + 1
        let faults := fun (u : State) (cause : Nat) => (u.dev.wld w).faulted = true ∧ (u.dev.wld w).cause = cause
          ∧ bit (u.dev.rd (R.XCH_WLD_FAULT_MAP + 4 * (w / 32))) (w % 32) = true ∧ u.dev.irq.pend.getLsbD 66 = true
        s.dev.pwrState = 0 → x.live = true → x.held = false → x.faulted = false → x.free = false → s.dev.sysWorld w = false → x.started = true →
        x.skip = false →
        (s.dev.reached x x.nextB = true → x.done = false → x.late = false →
            (x.policy = 0 → x.stretchMax ≠ 0 → Answers (exec (.stepBoundary w) s) fun u => late u ∧ (u.dev.wld w).faulted = false)
            ∧ (x.policy = 1 → Answers (exec (.stepBoundary w) s) fun u => late u ∧ (u.dev.wld w).skip = true ∧ (u.dev.wld w).inputOpen = false)
            ∧ (x.policy = 2 → Answers (exec (.stepBoundary w) s) fun u => late u ∧ faults u 1)
            ∧ (x.policy = 0 → x.stretchMax = 0 → Answers (exec (.stepBoundary w) s) fun u => late u ∧ faults u 2))
        ∧ (s.dev.reached x x.nextB = true → x.done = true → Answers (exec (.stepBoundary w) s) fun u => (u.dev.wld w).nextB = x.nextB + 1
            ∧ u.dev.wregs = s.dev.wregs ∧ (u.dev.wld w).late = x.late)
        ∧ (x.done = false → x.late = true → x.policy = 0 → x.stretchMax ≠ 0xFFFF → s.dev.reached x (x.dueB + x.stretchMax) = true →
            Answers (exec (.stretchLimitExpiry w) s) fun u => faults u 2))

/-- The turn of a world at injection (R136, R140, R146): the world whose turn it is, next in ascending ID, has the modulator in
its latch injected, and that latch cleared; else the event at the head of its queue, and that event taken away; an injected
copy goes through the edge lookup of R162. An END_STEP mark is taken, and closes the input in mark mode. Input closes under
QUEUE once nothing of it remains.
Rests on model choices: log entries 29, 48. -/
def Obligations.InputInjectedInOrder : Prop :=
  ∀ (s : State) (w : Fin 4096) (rest : List QItem), s.runs 4 0 →
    let x := s.dev.wld w
    let d : Dev := { s.dev with injNext := w.val + 1 }
    let room := fun (c : Copy) => d.edgeRoom (d.edgeLookup s.nv c 0 false) c.vc = true
    let sent := fun (c : Copy) => (d.iCreated c 1).edgeOutputs s.nv c (d.edgeLookup s.nv c 0 false)
    x.live = true → x.held = false → x.inputOpen = true →
    (s.dev.injectNext = some w.val →
      (∀ v add, x.latch = some (v, add) → s.dev.sysWorld w = false → room (modCopy w x.step v add) →
        Answers (exec (.injectTurn w) s) fun u => u.dev = ((sent (modCopy w x.step v add)).updWld w (fun x => { x with latch := none })).settle
          ∧ (u.dev.wld w).latch = none ∧ (u.dev.wld w).queue = x.queue)
      ∧ (∀ word vc, x.latch = none → x.queue = .event word vc :: rest → room (mkCopy word (x.step % 4) vc) →
        Answers (exec (.injectTurn w) s) fun u => u.dev = ((sent (mkCopy word (x.step % 4) vc)).updWld w (fun x => { x with queue := rest })).settle
          ∧ (u.dev.wld w).queue = rest ∧ (u.dev.wld w).inputOpen = true)
      ∧ (x.latch = none → x.queue = .mark :: rest → Answers (exec (.injectTurn w) s) fun u => (u.dev.wld w).queue = rest
        ∧ (u.dev.wld w).inputOpen = !x.markMode ∧ u.dev.injNext = w.val + 1))
    ∧ (x.latch = none → x.queue = [] → x.markMode = false → s.dev.allOpened w = true →
        Answers (exec (.inputClose w) s) fun u => u.dev.worlds = (s.dev.closeInput w).worlds ∧ (u.dev.wld w).inputOpen = false)
    ∧ (x.queue ≠ [] → Answers (exec (.inputClose w) s) fun u => (u.dev.wld w).inputOpen = true)

/-- Credit reductions of a world of this device alone (R137, R138): a reading is kept; a second that agrees with it confirms the
present step's quiescence, once its input has closed, and tells the stations and the streamers of its consist; or the empty
bank of the next step.
The end of the last consist completes the barrier of a quiescent step (R138, R186), and an earlier one does not.
Rests on model choices: log entry 29. -/
def Obligations.StepsComplete : Prop :=
  (∀ (s : State) (w : Fin 4096) (b : Fin 2), s.runs 4 0 →
      let x := s.dev.wld w
      let r := s.dev.reading w b
      x.live = true → x.started = true → s.dev.sysWorld w = false → x.faulted = false → r.sat = false →
      (x.step % 2 ≠ b → x.lastRead.get noReading b = none → Answers (exec (.creditReduction w b) s) fun u =>
          (u.dev.wld w).lastRead.get noReading b = some r ∧ (u.dev.wld w).bankEmpty = x.bankEmpty)
      ∧ (x.step % 2 ≠ b → (∃ p, x.lastRead.get noReading b = some p ∧ p.agree r = true) →
          Answers (exec (.creditReduction w b) s) fun u => (u.dev.wld w).bankEmpty = true)
      ∧ (x.step % 2 = b → x.inputOpen = false → x.quiescent = false → x.skip = false → s.dev.consistOf s.nv w ≠ [] →
          (∃ p, x.lastRead.get noReading b = some p ∧ p.agree r = true) →
          Answers (exec (.creditReduction w b) s) fun u => (u.dev.wld w).quiescent = true
            ∧ (u.dev.wld w).consist = s.dev.consistOf s.nv w
            ∧ (∀ q ∈ s.dev.places w, (u.dev.stn q.1).quiet.get noNat q.2 = some x.ext)
            ∧ ∀ k ∈ s.dev.consistOf s.nv w, (u.dev.streamer k).quiet.get (fun _ => none) w = some (x.ext, s.dev.now)))
  ∧ (∀ (s : State) (k : Fin 12) (w : Fin 4096), s.runs 4 0 → (s.dev.streamer k).ends.contains w.val = true →
        let x := s.dev.wld w
        x.live = true → x.ran = false → x.done = false → x.quiescent = true → x.skip = false → s.dev.sysWorld w = false →
        (x.consist = [k.val] → Answers (exec (.consistEndArrival k w) s) fun u => (u.dev.wld w).done = true ∧ (u.dev.wld w).consist = []
            ∧ (u.dev.streamer k).ends = (s.dev.streamer k).ends.erase w)
        ∧ ((∃ k' ∈ x.consist, k' ≠ k.val) → Answers (exec (.consistEndArrival k w) s) fun u => (u.dev.wld w).done = false
            ∧ (u.dev.wld w).consist = x.consist.filter (· != k.val)))

/-- Notices at the Interchange (R134): a consumption adds one to CONSUMED of the copy's world and bank, a loss one to LOST of both
banks of every live world.
Copies at the edges (R160, R163, R164, R169): a good copy that no edge entry matches and no trunk takes is consumed and
counted as a miss; one that leaves the grid, or that finds its trunk link down, is consumed and counted UNROUTED; one whose
CHECK fails is discarded and counted; one for a trunk link that is up leaves on it.
Rests on model choices: log entry 29. -/
def Obligations.CreditsCountedAtInterchange : Prop :=
  (∀ (s : State) (rest : List (Option (Nat × Nat))), s.runs 4 0 →
      (∀ w b, s.dev.notices = some (w, b) :: rest → Answers (exec .consumptionNotice s) fun u => u.dev.notices = rest
          ∧ (u.dev.wld w).consumed.get zeroNat b = min ((s.dev.wld w).consumed.get zeroNat b + 1) 0xFFFFFFFF)
      ∧ (s.dev.notices = none :: rest → Answers (exec .lossNotice s) fun u => u.dev.notices = rest
          ∧ ∀ w : Fin 4096, ∀ b : Fin 2, w.val ∈ s.dev.worldIds → s.dev.worldIds.Nodup → (s.dev.wld w).live = true →
              (u.dev.wld w).lost.get zeroNat b = min ((s.dev.wld w).lost.get zeroNat b + 1) 0xFFFFFFFF))
  ∧ (∀ (s : State) (row q : Fin 48) (e : Edge) (vc : Fin 4) (err : LinkError) (c : Copy) (rest : List Copy), c.vc = vc.val →
        let y := c.hit err
        let cnt := fun (d : Dev) (r : Nat) => (d.rd r).toNat
        let counts := fun (u : State) (r : Nat) => cnt u.dev r = min (cnt s.dev r + 1) 0xFFFFFFFF
        let used := fun (u : State) => vc.val ≠ 3 → (u.dev.wld y.world).consumed.get zeroNat y.bank
          = min ((s.dev.wld y.world).consumed.get zeroNat y.bank + 1) 0xFFFFFFFF
        (s.runs 4 0 → s.dev.ebuf 0 row vc = c :: rest → s.dev.edgeTested y = false → y.good = true → s.dev.edgeFind y = none →
            bit (s.dev.rd R.XCH_EDGE_DEF) 31 = false →
            Answers (exec (.westEdgeArrival row vc err) s) fun u => u.dev.ebuf 0 row vc = rest ∧ counts u R.XCH_EDGE_MISS ∧ used u)
        ∧ (s.runs 4 0 → s.dev.ebuf 0 row vc = c :: rest → s.dev.edgeTested y = false → y.good = false →
            Answers (exec (.westEdgeArrival row vc err) s) fun u => u.dev.ebuf 0 row vc = rest ∧ counts u R.XCH_EDGE_CHK_FAIL)
        ∧ (s.dev.clocked = true → s.dev.ebuf (edgeNo e) q vc = c :: rest → y.good = true → (e = .east → y.thru = false) →
            Answers (exec (.offGridArrival e q vc err) s) fun u => u.dev.ebuf (edgeNo e) q vc = rest ∧ counts u R.XCH_EDGE_UNROUTED ∧ used u)
        ∧ (s.dev.clocked = true → s.dev.ebuf (edgeNo e) q vc = c :: rest → y.good = false →
            Answers (exec (.offGridArrival e q vc err) s) fun u => u.dev.ebuf (edgeNo e) q vc = rest ∧ counts u R.XCH_EDGE_CHK_FAIL)
        ∧ (s.dev.clocked = true → s.dev.ebuf 1 row vc = c :: rest → y.good = true → y.thru = true →
            (s.dev.trunkUp s.nv y.trk = false → Answers (exec (.eastEdgeThru row vc err) s) fun u => u.dev.ebuf 1 row vc = rest
                ∧ counts u R.XCH_EDGE_UNROUTED ∧ used u)
            ∧ (s.dev.trunkUp s.nv y.trk = true → Answers (exec (.eastEdgeThru row vc err) s) fun u => u.dev.ebuf 1 row vc = rest
                ∧ cnt u.dev (trk R.TRK_X_TX y.trk) = min (cnt s.dev (trk R.TRK_X_TX y.trk) + 1) 0xFFFFFFFF)))

/-! ### Stations (chapters 3 to 9) -/

/-- The start of a step at a station (R68, R77, R78, R135): an opening pass that nothing holds back, with none of a lower world
slot due, completes, sets the slot's step and clears its release; it waits while the row arbiter holds a request of the world,
for the pass of a lower world slot, and for the turn that is the sweeper's (log entry 47).
Sweeps (R75, R77, R78, R80, R123): at the sweeper's turn, which comes when nothing waits for the engine, or after fifteen
turns of the others for each of the visit (log entry 47), a visit takes the next neuron slot of the world's populations, and a
row visit the next plastic row, whose PRE_VALID it clears when T_PRE is 32,768 or more steps old; with the last of its neurons
and of its rows visited the pass has ended and SWEEP_ACTIVE is 0; a visit whose turn has not come changes nothing.
Rests on model choices: log entries 29, 45, 46, 47. -/
def Obligations.StepsOpenAndSweep : Prop :=
  (∀ (s : State) (p : Fin 2304) (m : Fin 16) (t : Nat) (skip : Bool), s.fabricOn → s.nv.enabled p = true →
      (s.dev.stn p).release.get (fun _ => none) m = some (t, skip) → (s.dev.slotWorld p m).isSome = true →
      (s.dev.arbHolds p m = false → (skip = true ∨ (s.dev.stn p).quiet.get noNat m = none) → (∀ k < m.val, s.dev.openDue s.nv p k = none) → s.dev.sweepOwed p = false →
        Answers (exec (.openingPass p m) s) fun u => u.dev.stnM = (s.dev.openStep p m t skip).stnM
          ∧ (u.dev.stn p).opened.get noOcc m = true
          ∧ (u.dev.stn p).release.get (fun _ => none) m = none ∧ bit (u.dev.sW p R.STN_NE_STATE) m = false)
      ∧ (s.dev.sweepOwed p = true → Answers (exec (.openingPass p m) s) fun u => u.dev.stns = s.dev.stns ∧ u.dev.stnW = s.dev.stnW)
      ∧ (s.dev.arbHolds p m = true → Answers (exec (.openingPass p m) s) fun u => u.dev.stns = s.dev.stns ∧ u.dev.stnW = s.dev.stnW)
      ∧ ((∃ k < m.val, (s.dev.openDue s.nv p k).isSome = true) →
          Answers (exec (.openingPass p m) s) fun u => u.dev.stns = s.dev.stns ∧ u.dev.stnW = s.dev.stnW))
  ∧ (∀ (s : State) (p : Fin 2304) (m : Fin 16) (c n a : Nat), s.fabricOn → s.nv.enabled p = true → s.dev.sweeps p m = true →
        let t := s.dev.slotStep p m
        let cost := (s.dev.sweepNeuron p t n).turns p - s.dev.turns p
        let active := fun (u : State) => bit (u.dev.sW p R.STN_NE_STATE) (16 + m)
        (s.dev.cursor p (2 * m) = some c → (s.dev.slotsOf p m).find? (fun n => decide (c ≤ n)) = some n →
          (s.dev.engineWaits s.nv p = false ∨ 15 * max 1 cost ≤ s.dev.turns p →
            Answers (exec (.sweepVisit p m) s) fun u => u.dev.stnM = (s.dev.sweepNeuron p t n).stnM
              ∧ u.dev.cursor p (2 * m) = (if (u.dev.slotsOf p m).all (fun k => decide (k ≤ n)) then none else some (n + 1))
              ∧ (u.dev.cursor p (2 * m) = none → u.dev.cursor p (2 * m + 1) = none → active u = false))
          ∧ (s.dev.engineWaits s.nv p = true → s.dev.turns p < 15 * max 1 cost →
            Answers (exec (.sweepVisit p m) s) fun u => u.dev.stns = s.dev.stns ∧ u.dev.stnM = s.dev.stnM ∧ u.dev.stnW = s.dev.stnW))
        ∧ (s.dev.cursor p (2 * m + 1) = some c → (s.dev.slotRows p m)[c]? = some a →
          (s.dev.engineWaits s.nv p = false ∨ 15 ≤ s.dev.turns p →
            Answers (exec (.plasticRowSweep p m) s) fun u =>
              u.dev.cursor p (2 * m + 1) = (if (u.dev.slotRows p m).length ≤ c + 1 then none else some (c + 1))
              ∧ (u.dev.row p a).preValid = ((s.dev.row p a).preValid && decide ((t + 65536 - (s.dev.row p a).tPre) % 65536 < 32768))
              ∧ (u.dev.cursor p (2 * m) = none → u.dev.cursor p (2 * m + 1) = none → active u = false))
          ∧ (s.dev.engineWaits s.nv p = true → s.dev.turns p < 15 →
            Answers (exec (.plasticRowSweep p m) s) fun u => u.dev.stns = s.dev.stns ∧ u.dev.stnM = s.dev.stnM ∧ u.dev.stnW = s.dev.stnW)))

/-- Emissions and the Junction (R132, R134, R153, R155, R158, R165, R169): the oldest entry of a channel leaves the emission store
for the local input when it has room, and the oldest sample on VC3; a copy that fails CHECK is discarded and reported lost; a
copy of the next step waits, and so does one of step 0 before its opening pass; at a transit station a good copy goes to the
one port of the entry that matches it, where it wins the output; at a station of its world a good event that an entry sends to
the local port joins the row arbiter's queue.
The row arbiter serves its queue in order (R77, R78, R91, R96, R98, R185): an event is delivered and its copy consumed, one
whose directory entry gives no row being counted, but one that needs the neuron engine waits for the opening passes and for
the sweeper's turn (log entry 47); a streamed page is applied and acknowledged, and so is a Freight write.
Rests on model choices: log entries 29, 41, 45, 46, 47. -/
def Obligations.CopiesReachRowArbiter : Prop :=
  (∀ (s : State) (p : Fin 2304) (port o : Port) (vc : Fin 4) (err : LinkError) (c : Copy) (rest : List Copy), s.fabricOn →
      s.nv.enabled p = true →
      let y := if port = .l then c else c.hit err
      (∀ pre e post, (s.dev.stn p).emit = pre ++ e :: post → (∀ q ∈ pre, q.copy.vc ≠ vc.val) → e.copy.vc = vc.val → vc.val ≠ 3 →
          (s.dev.buf p 4 vc).length < 4 →
          Answers (exec (.emissionSend p vc) s) fun u => (u.dev.stn p).emit = pre ++ post
            ∧ u.dev.buf p 4 vc = s.dev.buf p 4 vc ++ [{ e.copy with left := none }])
      ∧ (∀ y ys, vc.val = 3 → (s.dev.stn p).samples = y :: ys → y.vc = 3 → (s.dev.buf p 4 3).length < 4 →
          Answers (exec (.emissionSend p vc) s) fun u => (u.dev.stn p).samples = ys
            ∧ u.dev.buf p 4 3 = s.dev.buf p 4 3 ++ [{ y with left := none }])
      ∧ (s.dev.buf p port.idx vc = c :: rest → c.left = none → c.vc = vc.val → (∀ k < 8, (s.dev.trunk k).inX = []) →
          (y.good = false → Answers (exec (.junctionArrival p port vc err) s) fun u => u.dev.buf p port.idx vc = rest
              ∧ u.dev.notices = s.dev.notices ++ [none]
              ∧ (u.dev.sW p R.STN_XP_CHK_FAIL).toNat = min ((s.dev.sW p R.STN_XP_CHK_FAIL).toNat + 1) 0xFFFFFFFF)
          ∧ (∀ m, y.good = true → y.thru = false → s.dev.slotOf p y.world = some m →
              (if s.dev.unopened p m then y.stepTag = s.dev.slotStep p m % 4 else y.stepTag = (s.dev.slotStep p m + 1) % 4) →
              Answers (exec (.junctionArrival p port vc err) s) fun u => u.dev.buf p port.idx vc = c :: rest ∧ u.dev.notices = s.dev.notices)
          ∧ (∀ j q pt, y.good = true → y.thru = false → s.dev.slotOf p y.world = none → s.dev.jFind p y false = some j →
              portsOf (s.dev.sW p (jOff j + 8)) = [o] → o ≠ port → outPlace p o = .stn q pt → pt < 4 → s.dev.wins p o port.idx y 0 = true →
              Answers (exec (.junctionArrival p port vc err) s) fun u => u.dev.buf p port.idx vc = rest
                ∧ u.dev.buf q pt vc = s.dev.buf q pt vc ++ [{ y with left := none }])
          ∧ (∀ j m, y.good = true → y.thru = false → y.isMod = false → (vc.val = 1 ∨ vc.val = 2) → s.dev.slotOf p y.world = some m →
              s.dev.unopened p m = false → y.stepTag = s.dev.slotStep p m % 4 → s.dev.jFind p y false = some j →
              portsOf (s.dev.sW p (jOff j + 8)) = [.l] → s.dev.collector p y = none →
              let dir := fld (s.dev.sW p (jOff j + 8)) 0 15 + fld (y.key &&& ~~~(s.dev.sW p (jOff j + 4))) 0 12
              s.dev.wins p .l port.idx y dir = true →
              Answers (exec (.junctionArrival p port vc err) s) fun u => u.dev.buf p port.idx vc = rest
                ∧ (u.dev.stn p).arb = (s.dev.stn p).arb ++ [.event y dir m])))
  ∧ (∀ (s : State) (p : Fin 2304) (rest : List RowReq), s.fabricOn →
        (s.dev.headUpdates p = false ∨ s.dev.openFirst s.nv p = none ∧ s.dev.sweepOwed p = false →
          (∀ c dir m, (s.dev.stn p).arb = .event c dir m :: rest → Answers (exec (.eventDeliver p) s) fun u =>
              u.dev = ((((s.dev.deliver p c dir).arbPop p).turnsCount p).cConsumed p m c).settle ∧ (u.dev.stn p).arb = rest)
          ∧ (∀ c dir m, (s.dev.stn p).arb = .event c dir m :: rest → s.dev.dirRow p dir = none → m < 16 →
            Answers (exec (.eventDeliver p) s) fun u => (u.dev.stn p).arb = rest ∧ u.dev.stnM = s.dev.stnM
              ∧ (u.dev.sW p R.STN_ROW_MISS).toNat = min ((s.dev.sW p R.STN_ROW_MISS).toNat + 1) 0xFFFFFFFF
              ∧ (c.vc ≠ 3 → (u.dev.sW p (R.STN_CR_CONSUMED + 4 * (2 * m + c.bank))).toNat
                  = min ((s.dev.sW p (R.STN_CR_CONSUMED + 4 * (2 * m + c.bank))).toNat + 1) 0xFFFFFFFF)))
        ∧ (∀ desc slot r, (s.dev.stn p).arb = .page desc slot r :: rest → Answers (exec (.pageLand p) s) fun u =>
              (u.dev.stn p).arb = rest ∧ u.dev.stnM = (s.dev.land p desc (s.dev.pbBase p + 4096 * slot)).stnM
              ∧ ∃ k ∈ u.dev.packets, k.typ = pAck ∧ k.txn = r.txn ∧ k.dst = r.ep)
        ∧ (∀ off bs r, (s.dev.stn p).arb = .write off bs (some r) :: rest → off + bs.length ≤ 0x40000 →
            Answers (exec (.stationFreightWrite p) s) fun u => (u.dev.stn p).arb = rest
              ∧ (∀ i < bs.length, u.dev.stnM.get zeroByte (skey p (off + i)) = bs.getD i 0)
              ∧ (∀ k, (k < skey p off ∨ skey p off + bs.length ≤ k) → u.dev.stnM.get zeroByte k = s.dev.stnM.get zeroByte k)
              ∧ ∃ k ∈ u.dev.packets, k.typ = pAck ∧ k.txn = r.txn ∧ k.dst = r.ep)
        ∧ (s.dev.headUpdates p = true → (s.dev.openFirst s.nv p).isSome = true ∨ s.dev.sweepOwed p = true → Answers (exec (.eventDeliver p) s) fun u => u.dev.stns = s.dev.stns ∧ u.dev.stnM = s.dev.stnM))

/-- A modulator broadcast that waits at a station (R115, R132): under IMM it becomes the value of the world slot; otherwise it is
kept until the next step opens; one of another step is dropped and counted.
STEP_QUIET at a station (R178): the notice is taken; where the world slot names streamers, each gets one summary, and the
blocks of the slot alone are cleared.
Rests on model choices: log entries 29, 30, 46. -/
def Obligations.ModulatorsAndSummaries : Prop :=
  (∀ (s : State) (p : Fin 2304) (c : Copy) (rest : List Copy) (m : Nat), s.fabricOn → (s.dev.stn p).mods = c :: rest →
      s.dev.slotOf p c.world = some m → m < 16 →
      let cfg := s.dev.sW p (modCfg m)
      (c.stepTag = s.dev.slotStep p m % 4 → (fb16 c.payload).isNan = false → c.modAdd = false → bit cfg 30 = true →
        Answers (exec (.modulatorArrival p) s) fun u => (u.dev.stn p).mods = rest
          ∧ u.dev.sW p (modValue m) = bitsF32 (fb16 c.payload) ∧ fld (u.dev.sW p (modT m)) 0 16 = s.dev.slotStep p m)
      ∧ (c.stepTag = s.dev.slotStep p m % 4 → (fb16 c.payload).isNan = false → c.modAdd = false → bit cfg 30 = false →
        Answers (exec (.modulatorArrival p) s) fun u => (u.dev.stn p).mods = rest ∧ u.dev.sW p (modPend m) = bitsF32 (fb16 c.payload)
          ∧ u.dev.pendSet p m = true ∧ u.dev.sW p (modValue m) = s.dev.sW p (modValue m))
      ∧ (c.stepTag ≠ s.dev.slotStep p m % 4 → Answers (exec (.modulatorArrival p) s) fun u => (u.dev.stn p).mods = rest
          ∧ u.dev.sW p (modValue m) = s.dev.sW p (modValue m)
          ∧ (u.dev.sW p (R.STN_LATE_DROP + 4 * m)).toNat = min ((s.dev.sW p (R.STN_LATE_DROP + 4 * m)).toNat + 1) 0xFFFFFFFF))
  ∧ (∀ (s : State) (p : Fin 2304) (m : Fin 16) (ext : Nat), s.fabricOn → s.nv.enabled p = true →
        (s.dev.stn p).quiet.get noNat m = some ext →
        let dest := s.dev.sW p (R.STN_STR_DEST + 4 * m)
        Answers (exec (.stepQuietArrival p m) s) fun u => (u.dev.stn p).quiet.get noNat m = none
          ∧ (bit dest 31 = true → ∀ k : Fin 12, bit dest k = true → ∃ q ∈ u.dev.packets, q.typ = pSummary ∧ q.dst = epStreamer k
              ∧ q.data = s.dev.summary p m)
          ∧ (bit dest 31 = true → ∀ b ∈ s.dev.ownBlocks p m, u.dev.spikes p b = 0))

/-- Junction entries (R157): words 0x0 and 0x4 are staged for their master and change nothing else; word 0x8 commits the entry
with the staged words, or the words as they stand where none is staged, and zeroes HITS, unless the terms of R51 or R134
refuse it, which is counted; either way the stage is used up.
Edge entries (R171): a write of XCH_EDGE_IDX loads the entry it selects for its master; a write of word 3 commits the four
words the master holds, unless R51 refuses them.
Rests on model choices: log entry 38. -/
def Obligations.JunctionAndEdgeEntriesCommit : Prop :=
  (∀ (s : State) (m : Master) (r : Fin 2304) (p : Fin 2304) (j : Fin 1024) (hi : Bool) (v : Word),
      s.dev.posOfRank r = some p.val →
      let st := (s.dev.stn p).staged.get noStage m.idx
      let mine := if st.1 = j.val then st.2 else (none, none)
      let v8 := v &&& w32 (tableMask 0x68008)
      let old := s.dev.jMatch p j
      let new : Match := { valid := bit v8 31, key := mine.1.getD old.key, mask := mine.2.getD old.mask, mod := bit v8 29 }
      let bad := s.dev.collides old new || s.dev.badTransit p new v8
      (s.opens m true (winAddr r (jOff j + if hi then 4 else 0)) → Answers (exec (.junctionEntryStage m r j hi v) s) fun u =>
          (u.dev.stn p).staged.get noStage m.idx = (j.val, if hi then (mine.1, some v) else (some v, mine.2)) ∧ u.dev.stnW = s.dev.stnW)
      ∧ (s.opens m true (winAddr r (jOff j + 8)) → bad = false → Answers (exec (.junctionEntryCommit m r j v) s) fun u =>
          u.dev.jMatch p j = new ∧ u.dev.sW p (jOff j + 8) = v8 ∧ u.dev.sW p (jOff j + 12) = 0
          ∧ (u.dev.stn p).staged.get noStage m.idx = (0, none, none))
      ∧ (s.opens m true (winAddr r (jOff j + 8)) → bad = true → Answers (exec (.junctionEntryCommit m r j v) s) fun u =>
          u.dev.jMatch p j = old ∧ (u.dev.sW p stnCfgRefused).toNat = min ((s.dev.sW p stnCfgRefused).toNat + 1) 0xFFFFFFFF
          ∧ bit (u.dev.rd R.TPL_STATUS) 20 = true ∧ (u.dev.stn p).staged.get noStage m.idx = (0, none, none)))
  ∧ (∀ (s : State) (m : Master) (v : Word),
        (s.opens m true R.XCH_EDGE_IDX → Answers (exec (.edgeIdxWrite m v) s) fun u => u.dev.edgeSel m = (fld v 16 2, fld v 0 15)
            ∧ ∀ i : Fin 4, u.dev.mrd m (R.XCH_EDGE_DATA + 4 * i) = s.dev.edgeW (fld v 16 2) (fld v 0 15) i)
        ∧ (let (j, e) := s.dev.edgeSel m
           let w := fun (i : Nat) => if i = 3 then v else s.dev.mrd m (R.XCH_EDGE_DATA + 4 * i)
           let new : Match := { valid := bit v 31, key := w 0, mask := w 1, mod := bit v 30 }
           s.opens m true (R.XCH_EDGE_DATA + 12) → s.dev.testing 3 j = false →
            (s.dev.collides (s.dev.edgeMatch j e) new = false → Answers (exec (.edgeEntryCommit m v) s) fun u =>
                (∀ i : Fin 4, u.dev.edgeW j e i = w i) ∧ u.dev.completion m = ⟨.ok, []⟩)
            ∧ (s.dev.collides (s.dev.edgeMatch j e) new = true → Answers (exec (.edgeEntryCommit m v) s) fun u =>
                u.dev.edgeTab = s.dev.edgeTab ∧ bit (u.dev.rd R.TPL_STATUS) 20 = true)))

/-- Descriptors and modulator slots (R51, R59, R113): a write is refused and counted where its population's world is live and not
held, or the descriptor it makes is not one R59 allows; a change of VALID or WORLD is refused for an active world, and a
second slot for one world always; a written modulator value takes the world's present step as its time.
Rests on model choices: log entries 14, 38. -/
def Obligations.StationTablesChecked : Prop :=
  ∀ (s : State) (m : Master) (r p : Fin 2304) (k : Fin 256) (i : Fin 8) (q : Fin 16) (v : Word), s.dev.posOfRank r = some p.val →
    let refused := fun (u : State) => bit (u.dev.rd R.TPL_STATUS) 20 = true
      ∧ (u.dev.sW p stnCfgRefused).toNat = min ((s.dev.sW p stnCfgRefused).toNat + 1) 0xFFFFFFFF
    let a := 0x60000 + 32 * k.val + 4 * i.val
    let new := s.dev.putTable p a v
    let c := v &&& w32 (tableMask (modCfg q))
    let old := s.dev.sW p (modCfg q)
    let same := bit old 31 = bit c 31 ∧ fld old 0 12 = fld c 0 12
    let other := fun (w : Nat) => ∃ k : Fin 16, k ≠ q ∧ s.dev.slotWorld p k = some w
    (s.opens m true (winAddr r a) → s.dev.ownerBusy p (s.dev.pop p k) = false → s.dev.ownerBusy p (new.pop p k) = false →
        new.descOk p k = true → Answers (exec (.descriptorWrite m r k i v) s) fun u => u.dev.sW p a = new.sW p a
          ∧ u.dev.completion m = ⟨.ok, []⟩)
    ∧ (s.opens m true (winAddr r a) → (s.dev.ownerBusy p (s.dev.pop p k) = true ∨ new.descOk p k = false) →
        Answers (exec (.descriptorWrite m r k i v) s) fun u => refused u ∧ u.dev.sW p a = s.dev.sW p a)
    ∧ (s.opens m true (winAddr r (modCfg q)) → same → (bit c 31 = true → ¬ other (fld c 0 12)) →
        Answers (exec (.modCfgWrite m r q v) s) fun u => u.dev.sW p (modCfg q) = c)
    ∧ (s.opens m true (winAddr r (modCfg q)) → bit c 31 = true → other (fld c 0 12) →
        Answers (exec (.modCfgWrite m r q v) s) fun u => refused u ∧ u.dev.sW p (modCfg q) = old)
    ∧ (s.opens m true (winAddr r (modCfg q)) → bit old 31 = true → s.dev.active (fld old 0 12) = true → ¬ same →
        Answers (exec (.modCfgWrite m r q v) s) fun u => refused u ∧ u.dev.sW p (modCfg q) = old)
    ∧ (s.opens m true (winAddr r (modValue q)) → Answers (exec (.modValueWrite m r q v) s) fun u => u.dev.sW p (modValue q) = v
        ∧ fld (u.dev.sW p (modT q)) 0 16 = s.dev.slotStep p q)

/-! ### Streaming, Freight, quantiser and projection (chapters 8 to 10) -/

/-- A summary at a streamer (R180): stored under its source index with its masks, and counted toward NSUM once; one without a
valid directory entry, beyond NSRC, or for an index that has come already is counted in STM_ACT_OVF and discarded.
A walk (R181, R186, R187): it begins once STEP_QUIET and NSUM summaries are in, or without the missing ones, which are
counted, and whose blocks then read as zero throughout it; a foreign entry and a gated one are counted and passed over, and
one whose mask bit is set enters the merge table; when every entry has been examined and nothing of the world is in hand,
CONSIST_END goes out; STEP_ABANDON stops a walk that is in progress, and one for a step whose walk has ended changes nothing.
Reads and deliveries (R182 to R184, R189): a read that 64 requests have passed closes first, else the oldest; a page whose
check holds makes a delivery of each request; an uncorrectable error, or a check that fails twice, ends the read and is
counted with the streamer's interrupt; corrected errors are counted by channel; a delivery goes to its station while fewer
than 2,048 are out; an idle streamer returns its grant.
Rests on model choices: log entries 3, 10, 30. -/
def Obligations.StreamedPagesArrive : Prop :=
  (∀ (s : State) (k : Fin 12) (q : Packet) (rest : List Packet), s.runs 1 k → s.nv.streamerOn k = true →
      (s.dev.streamer k).inbox = q :: rest →
      let w := q.addr % 4096
      let i := q.addr / 4096 % 4096
      let at_ := s.dev.dirAct k w + 65 * i
      let ok := bit (s.dev.dirWord k w 0) 31 = true ∧ i < s.dev.dirNsrc k w ∧ at_ + 64 ≤ 131071 ∧ (s.dev.sumsOf k w).contains i = false
      let ovf := R.STM_ACT_OVF + 0x100 * k.val
      (ok → Answers (exec (.summaryArrival k) s) fun u => (u.dev.streamer k).inbox = rest ∧ u.dev.sumsOf k w = s.dev.sumsOf k w ++ [i]
          ∧ u.dev.act k at_ = BitVec.ofNat 64 (recNat q.data 0 8)
          ∧ ∀ (j b : Fin 64), (onesBelow 64 (recNat q.data 0 8))[j.val]? = some b.val →
              u.dev.act k (at_ + 1 + b) = BitVec.ofNat 64 (recNat q.data (8 + 8 * j) 8))
      ∧ (¬ ok → Answers (exec (.summaryArrival k) s) fun u => (u.dev.streamer k).inbox = rest ∧ (u.dev.streamer k).act = (s.dev.streamer k).act
          ∧ u.dev.sumsOf k w = s.dev.sumsOf k w ∧ (u.dev.rd ovf).toNat = min ((s.dev.rd ovf).toNat + 1) 0xFFFFFFFF))
  ∧ (∀ (s : State) (k : Fin 12) (w : Fin 4096), s.runs 1 k → s.nv.streamerOn k = true →
        let y := s.dev.streamer k
        let cnt := fun (d : Dev) (r : Nat) => (d.rd (r + 0x100 * k.val)).toNat
        let counts := fun (u : State) (r n : Nat) => cnt u.dev r = min (cnt s.dev r + n) 0xFFFFFFFF
        let begun := fun (ext : Nat) (u : State) => ∃ x, u.dev.walk k w = some x ∧ x.step = ext ∧ x.next = 0
          ∧ (x.base, x.len) = s.dev.consistAt s.mem k w ext
        let first := fun (ext : Nat) => y.abandon.find? (fun q => q.1 == w.val) = some (w.val, ext)
        let missing := s.dev.dirNsum k w - (s.dev.sumsOf k w).length
        (∀ ext t, y.quiet.get noQuiet w = some (ext, t) → s.dev.walk k w = none → y.abandon.contains (w.val, ext) = false → y.grant = 2 →
          (missing = 0 → Answers (exec (.walkBegin k w) s) (begun ext))
          ∧ (0 < missing → Answers (exec (.sumWaitExpiry k w) s) fun u => begun ext u ∧ counts u R.STM_SUM_MISSING missing
              ∧ (∀ x, u.dev.walk k w = some x → ∀ i, i < s.dev.dirNsrc k w → (i ∈ x.missing ↔ i ∉ s.dev.sumsOf k w))
              ∧ u.dev.irq.pend.getLsbD (80 + k) = true))
        ∧ (∀ x, s.dev.walk k w = some x → s.dev.walkTurn k = some w.val →
          (s.dev.walkEntryKind s.nv s.mem k w x = .foreign → Answers (exec (.walkEntry k w) s) fun u =>
              u.dev.walk k w = some { x with next := x.next + 1 } ∧ counts u R.STM_PG_FOREIGN 1)
          ∧ (s.dev.walkEntryKind s.nv s.mem k w x = .gated → Answers (exec (.walkEntry k w) s) fun u =>
              u.dev.walk k w = some { x with next := x.next + 1 } ∧ counts u R.STM_PG_GATED 1)
          ∧ (s.dev.walkEntryKind s.nv s.mem k w x ≠ .foreign → fld (s.mem.gddrWord (x.base + 16 * x.next + 4)) 16 12 ∈ x.missing →
              Answers (exec (.walkEntry k w) s) fun u => u.dev.walk k w = some { x with next := x.next + 1 } ∧ counts u R.STM_PG_GATED 1)
          ∧ (∀ q, s.dev.walkEntryKind s.nv s.mem k w x = .request q → y.reads = [] → Answers (exec (.walkEntry k w) s) fun u =>
              u.dev.walk k w = some { x with next := x.next + 1 }
              ∧ (u.dev.streamer k).reads = [{ page := q.page, reqs := [q], after := 0, opened := s.dev.now, reread := false }]))
        ∧ (∀ x, s.dev.walk k w = some x → x.len ≤ x.next → s.dev.streamBusy k w = false → Answers (exec (.walkEnd k w) s) fun u =>
            u.dev.walk k w = none ∧ (u.dev.streamer k).ends = y.ends ++ [w.val] ∧ u.dev.sumsOf k w = [])
        ∧ (∀ x, s.dev.walk k w = some x → first x.step → y.ended.get noExt w ≠ some x.step → y.reads = [] → x.next ≤ x.len →
            Answers (exec (.stepAbandonArrival k w) s) fun u => u.dev.walk k w = some { x with next := x.len }
              ∧ (u.dev.streamer k).abandon = y.abandon.erase (w.val, x.step) ∧ counts u R.STM_PG_ABANDONED (x.len - x.next))
        ∧ (∀ ext, first ext → y.ended.get noExt w = some ext → Answers (exec (.stepAbandonArrival k w) s) fun u =>
            u.dev.walk k w = s.dev.walk k w ∧ u.dev.regs = s.dev.regs ∧ (u.dev.streamer k).abandon = y.abandon.erase (w.val, ext)
              ∧ (u.dev.streamer k).ends = y.ends))
  ∧ (∀ (s : State) (k : Fin 12) (r : PageRead) (rest : List PageRead), s.runs 1 k → s.nv.streamerOn k = true →
        let y := s.dev.streamer k
        let cnt := fun (d : Dev) (r : Nat) => (d.rd (r + 0x100 * k.val)).toNat
        let counts := fun (u : State) (r : Nat) => cnt u.dev r = min (cnt s.dev r + 1) 0xFFFFFFFF
        let ok := pageCrcOk (s.mem.page r.page)
        let errs := fun (u : State) (ch ce ue : Nat) =>
          u.dev.f (R.DRM_CH_ERR + 4 * ch) 0 16 = min (s.dev.f (R.DRM_CH_ERR + 4 * ch) 0 16 + ce) 0xFFFF
            ∧ u.dev.f (R.DRM_CH_ERR + 4 * ch) 16 16 = min (s.dev.f (R.DRM_CH_ERR + 4 * ch) 16 16 + ue) 0xFFFF
        (y.reads = r :: rest → (64 ≤ r.after ∨ ∀ x ∈ rest, x.after < 64) → Answers (exec (.readClose k) s) fun u =>
            (u.dev.streamer k).reads = rest ∧ (u.dev.streamer k).dram = y.dram ++ [r])
        ∧ (y.dram = r :: rest → y.grant = 2 →
          (∀ e : DramEnd, e.ok = true → r.reread = false → Answers (exec (.pageReadComplete k e) s) fun u =>
              counts u R.STM_PG_FETCHED ∧ errs u (2 * k) e.fixed0.toNat 0 ∧ errs u (2 * k + 1) e.fixed1.toNat 0 ∧
              if ok then (u.dev.streamer k).dram = rest ∧ (u.dev.streamer k).out = y.out ++ r.reqs.map (fun q => (q, s.mem.page r.page))
              else (u.dev.streamer k).dram = { r with reread := true } :: rest ∧ (u.dev.streamer k).out = y.out)
          ∧ (∀ e : DramEnd, e.ok = true → r.reread = true → Answers (exec (.pageReadComplete k e) s) fun u => (u.dev.streamer k).dram = rest ∧
              if ok then (u.dev.streamer k).out = y.out ++ r.reqs.map (fun q => (q, s.mem.page r.page))
              else counts u R.STM_PG_RDERR ∧ u.dev.irq.pend.getLsbD (80 + k) = true)
          ∧ (∀ e : DramEnd, e.ok = false → Answers (exec (.pageReadComplete k e) s) fun u => errs u (2 * k + e.odd.toNat) (if e.odd then e.fixed1 else e.fixed0).toNat 1
              ∧ (u.dev.streamer k).dram = rest ∧ (u.dev.streamer k).out = y.out
              ∧ counts u R.STM_PG_RDERR ∧ u.dev.irq.pend.getLsbD (80 + k) = true ∧ u.dev.irq.pend.getLsbD 104 = true))
        ∧ (∀ q bs more, y.out = (q, bs) :: more → s.dev.slotsHeld (epStreamer k) < 2048 → Answers (exec (.deliverySend k) s) fun u =>
            (u.dev.streamer k).out = more ∧ counts u R.STM_DLV_SENT
            ∧ u.dev.slotsHeld (epStreamer k) = s.dev.slotsHeld (epStreamer k) + 1
            ∧ ∃ p ∈ u.dev.packets, p.typ = pDeliver ∧ p.dst = q.rank ∧ p.src = epStreamer k ∧ p.data = q.descriptor k ++ bs)
        ∧ (y.grant = 2 → s.dev.streamIdle k = true → Answers (exec (.streamTokenIdle k) s) fun u => (u.dev.streamer k).grant = 0
            ∧ ∀ g ∈ u.dev.tok.grants, g.req ≠ k.val))

/-- One hop (R199, R200): toward the intermediate station columns go first, toward the exit rows go first; at the exit the packet
is handed over to its station, or to the edge router behind the exit, under the same arbitration as at a link; one that cannot
be routed is consumed, and counted by an enabled station. A packet waits while the input it would enter has no place for it,
or a packet of class 1 can take the link that it would take in class 0; one that stands at its source enters its router first.
A packet at a station (R203, R205): one whose HCHK fails is dropped and counted; a request whose CRC fails is answered NACK
with status 1; a READ in range is answered with the bytes; a WRITE in range enters the row arbiter; one out of range is
answered NACK with status 2.
Rests on model choices: log entries 41, 49. -/
def Obligations.FreightReachesStations : Prop :=
  (∀ (s : State) (i : Nat) (k : Packet) (p : Fin 2304), s.fabricOn → s.dev.packets[i]? = some k → k.at_ = some p.val →
      let x := p.val % 48
      let y := p.val / 48
      let valid := k.ix < 48 ∧ k.iy < 48 ∧ k.dx < 48 ∧ k.dy < 48
      let exits := k.exit = 0 ∨ (k.exit = 1 ∧ y = 0) ∨ (k.exit = 2 ∧ y = 47) ∨ (k.exit = 3 ∧ x = 0) ∨ (k.exit = 4 ∧ x = 47)
      let stays := Answers (exec (.freightHop i) s) fun u => u.dev.packets = s.dev.packets
      let goes := fun (ph x' y' : Nat) =>
        let z := freightIn (posOf x' y') (portFrom p (posOf x' y')) ph
        (s.dev.linkServes i k z = true → Answers (exec (.freightHop i) s) fun u => ∃ tr : List (Nat × Nat), (tr.map (·.1)).head? = some z
          ∧ u.dev.packets = s.dev.packets.eraseIdx i ++ [{ k with phase := ph, at_ := some (posOf x' y'), trail := tr }])
        ∧ (s.dev.placesFor (isResponse k.typ) z = 0 → stays)
      let yields := fun (x' y' : Nat) => ∀ (j : Nat) (b : Packet) (c : Packet × Nat), j ≠ i → s.dev.packets[j]? = some b →
        b.wants = some c → c.2 = freightIn (posOf x' y') (portFrom p (posOf x' y')) 1 → s.dev.mayStep j b c.2 = true → stays
      (k.trail = [] → Answers (exec (.freightHop i) s) fun u => ∃ tr : List (Nat × Nat), (tr.map (·.2)).sum ≤ k.flits
          ∧ u.dev.packets = s.dev.packets.set i { k with trail := tr })
      ∧ ∀ (x0 c0 : Nat) (more : List (Nat × Nat)), k.trail = (x0, c0) :: more →
        (valid → k.phase = 0 → ((x, y) = (k.dx, k.dy) → exits) → (x < k.ix → goes 0 (x + 1) y ∧ yields (x + 1) y)
          ∧ (k.ix < x → goes 0 (x - 1) y ∧ yields (x - 1) y)
          ∧ (x = k.ix → y < k.iy → goes 0 x (y + 1) ∧ yields x (y + 1)) ∧ (x = k.ix → k.iy < y → goes 0 x (y - 1) ∧ yields x (y - 1)))
        ∧ (valid → (x, y) ≠ (k.dx, k.dy) → k.phase = 1 ∨ (k.phase = 0 ∧ (x, y) = (k.ix, k.iy)) →
          (y < k.dy → goes 1 x (y + 1)) ∧ (k.dy < y → goes 1 x (y - 1))
          ∧ (y = k.dy → x < k.dx → goes 1 (x + 1) y) ∧ (y = k.dy → k.dx < x → goes 1 (x - 1) y))
        ∧ (valid → (x, y) = (k.dx, k.dy) → k.phase = 1 → exits →
          (s.dev.linkServes i k (freightOut p k.exit) = true → Answers (exec (.freightHop i) s) fun u => ∃ tr : List (Nat × Nat),
            (tr.map (·.1)).head? = some (freightOut p k.exit)
            ∧ u.dev.packets = s.dev.packets.eraseIdx i ++ [{ k with at_ := none, trail := tr }])
          ∧ (k.exit ≠ 0 → s.dev.placesFor (isResponse k.typ) (freightOut p k.exit) = 0 → stays))
        ∧ (s.dev.firstIn i x0 = true →
          ((¬ valid ∨ ((x, y) = (k.dx, k.dy) ∧ ¬ exits)) → s.nv.enabled p = true → Answers (exec (.freightHop i) s) fun u =>
            u.dev.packets = s.dev.packets.eraseIdx i
            ∧ (u.dev.sW p (R.STN_FRT_RX + 16)).toNat = min ((s.dev.sW p (R.STN_FRT_RX + 16)).toNat + 1) 0xFFFFFFFF)))
  ∧ (∀ (s : State) (i : Nat) (err : PacketError) (k : Packet) (r p : Fin 2304), s.dev.clocked = true → s.dev.packets[i]? = some k →
        k.at_ = none → k.hurt = (false, false) → k.dst = r.val → posOf k.dx k.dy = p.val → s.dev.posOfRank r = some p.val → s.nv.enabled p = true →
        s.dev.rankOf p = some r.val → s.dev.rst.stations.contains p.val = false → s.dev.stnTested p = false → s.dev.sys.distWait = [] → (∀ y ∈ s.dev.words, y.ended = none) →
        let arrives := fun (q : State → Prop) => Answers (exec (.freightPacketArrival i err) s) q
        let counts := fun (u : State) (b : Nat) => (u.dev.sW p (R.STN_FRT_RX + 4 * b)).toNat = min ((s.dev.sW p (R.STN_FRT_RX + 4 * b)).toNat + 1) 0xFFFFFFFF
        let answers := fun (u : State) (typ status : Nat) (bs : List Byte) => ∃ a ∈ u.dev.packets, a.typ = typ ∧ a.status = status
          ∧ a.dst = k.src ∧ a.txn = k.txn ∧ a.attempt = k.attempt ∧ a.data = bs
        let off := k.addr - (stationBase + r.val * 2 ^ 20)
        let inRange := fun (n : Nat) => stationBase + r.val * 2 ^ 20 ≤ k.addr ∧ k.addr + n ≤ stationBase + r.val * 2 ^ 20 + 0x60000
          ∧ k.addr % 4 = 0 ∧ n % 4 = 0 ∧ 4 ≤ n ∧ n ≤ 4096 ∧ k.addr % 4096 + n ≤ 4096
        (err.hchkBad = true → arrives fun u => u.dev.packets = s.dev.packets.eraseIdx i ∧ counts u 2)
        ∧ (err.hchkBad = false → err.crcBad = true → isRequest k.typ = true → arrives fun u => answers u pNack 1 [] ∧ counts u 1)
        ∧ (err.hchkBad = false → err.crcBad = false → k.typ = pRead → inRange k.rcount → arrives fun u => counts u 0
            ∧ answers u pData 0 (readBytes zeroByte s.dev.stnM (skey p off) k.rcount))
        ∧ (err.hchkBad = false → err.crcBad = false → k.typ = pWrite → inRange k.data.length → s.dev.arbRoom p = true →
            arrives fun u => counts u 0 ∧ u.dev.packets = s.dev.packets.eraseIdx i
              ∧ (u.dev.stn p).arb = (s.dev.stn p).arb ++ [.write off (k.data.take (0x5C000 - off)) (some k.reply)])
        ∧ (err.hchkBad = false → err.crcBad = false → k.typ = pRead → ¬ inRange k.rcount → arrives fun u => answers u pNack 2 []))

/-- A response at the Interchange and a timeout there (R205, R206): an acknowledged host block write is answered to the host; one
that matches no transaction, or whose CRC fails, is stale and counted; a resendable NACK, and the timeout of a READ, send the
request again with the next ATTEMPT, up to seven times; the timeout of a WRITE is a fatal freight error, counted with source
71.
The GDDR6 access at the head of a streamer's work (R203, R372): a WRITE changes exactly its bytes and is acknowledged, a READ
is answered with them, and a READ that meets an uncorrectable error is not answered and raises source 104.
Rests on model choices: log entries 3, 10, 49. -/
def Obligations.FreightEndsAndGddr6 : Prop :=
  (∀ (s : State) (i : Nat) (err : PacketError) (k : Packet) (x : Txn) (j : HostJob), s.dev.clocked = true → s.dev.sys.distWait = [] →
      (∀ y ∈ s.dev.words, y.ended = none) → s.dev.qntState < 3 → s.dev.fwait = [] →
      let cnt := fun (d : Dev) (r : Nat) => (d.rd r).toNat
      let counts := fun (u : State) (r : Nat) => cnt u.dev r = min (cnt s.dev r + 1) 0xFFFFFFFF
      let again := fun (u : State) => counts u R.XCH_FRT_RESEND ∧ (∃ y ∈ u.dev.txns, y.req = x.req ∧ y.txn = x.txn ∧ y.attempt = x.attempt + 1)
        ∧ ∃ p ∈ u.dev.packets, p.typ = x.req.typ ∧ p.dst = x.req.dst ∧ p.txn = x.txn ∧ p.attempt = x.attempt + 1
      (s.dev.packets[i]? = some k → k.at_ = none → k.hurt = (false, false) → err.hchkBad = false → k.dst = epHost →
        ((k.typ = pAck ∨ k.typ = pNack ∨ k.typ = pData) → (err.crcBad = true ∨ s.dev.matching k = none) →
          Answers (exec (.freightResponse i err) s) fun u => counts u R.XCH_FRT_STALE ∧ u.dev.txns = s.dev.txns
            ∧ u.dev.packets = s.dev.packets.eraseIdx i)
        ∧ (k.typ = pNack → k.status = 1 → err.crcBad = false → s.dev.matching k = some x → x.req.ep = epHost → x.attempt < 7 →
          Answers (exec (.freightResponse i err) s) again)
        ∧ (k.typ = pAck → err.crcBad = false → s.dev.matching k = some x → x.req.ep = epHost → x.req.owner = .host j.seq →
            s.dev.link.jobs = [j] → j.left = 1 → j.write = true → j.noack = false → j.code = 0 →
            Answers (exec (.freightResponse i err) s) fun u => u.dev.link.jobs = []
              ∧ u.dev.link.limMsgs = bump s.dev.link.limMsgs 1 1 ∧ u.dev.link.limData = bump s.dev.link.limData 1 j.units
              ∧ u.dev.txns = s.dev.txns.filter (fun y => !(y.req.ep == epHost && y.txn == x.txn))
              ∧ u.dev.link.waitR = s.dev.link.waitR ++ [{ typ := mAck, flags := 0, addrHi := 0, arg := w32 (j.seq % 65536), payload := [], after := 0 }]))
      ∧ (s.dev.txns.find? (fun y => y.req.ep == epHost && y.txn == x.txn) = some x →
        (x.req.typ = pRead → x.attempt < 7 → Answers (exec (.freightTimeout epHost x.txn) s) again)
        ∧ (x.req.typ = pWrite → x.req.owner = .host j.seq → Answers (exec (.freightTimeout epHost x.txn) s) fun u =>
            u.dev.txns = s.dev.txns.filter (fun y => !(y.req.ep == epHost && y.txn == x.txn)) ∧ counts u R.XCH_FRT_FATAL
            ∧ u.dev.irq.pend.getLsbD 71 = true)))
  ∧ (∀ (s : State) (c : Fin 12) (e : DramEnd) (k : Packet) (rest : List Packet), s.runs 1 c → s.nv.streamerOn c = true →
        (s.dev.streamer c).work = k :: rest →
        let a := k.addr - gddrBase
        let read := fun (m : Mem) (b : Nat) => m.gddr.get m.gddrDflt b
        let answers := fun (u : State) (typ : Nat) (bs : List Byte) => ∃ p ∈ u.dev.packets, p.typ = typ ∧ p.dst = k.src ∧ p.txn = k.txn ∧ p.data = bs
        (k.typ = pWrite → Answers (exec (.gddr6AccessComplete c e) s) fun u => (u.dev.streamer c).work = rest ∧ answers u pAck []
            ∧ (∀ b < k.data.length, read u.mem (a + b) = k.data.getD b 0)
            ∧ (∀ b, (b < a ∨ a + k.data.length ≤ b) → read u.mem b = read s.mem b)
            ∧ u.mem.depot = s.mem.depot)
        ∧ (k.typ = pRead → e.ok = true → Answers (exec (.gddr6AccessComplete c e) s) fun u => (u.dev.streamer c).work = rest ∧ u.mem = s.mem
            ∧ answers u pData ((List.range k.rcount).map (fun b => read s.mem (a + b))))
        ∧ (k.typ = pRead → e.ok = false → Answers (exec (.gddr6AccessComplete c e) s) fun u => (u.dev.streamer c).work = rest ∧ u.mem = s.mem
            ∧ u.dev.packets = s.dev.packets ∧ u.dev.irq.pend.getLsbD 104 = true))

/-- Quantiser jobs (R222, R223): START of an idle quantiser checks the job, and asks for a grant or ends with the REASON of the
first check that fails; START of a busy one is rejected; CANCEL ends a job with REASON 0x09, but waits for a page that is
being written; a job whose writes have all been acknowledged ends with DONE alone.
Settings of encoder and decoder channels (R252, R265, R266): a write of an encoder's CFG resets its states, to BIAS for code 2
and else to zero; one of a decoder's CFG discards the window in progress; and the oldest MEMBRANE record that waits is written
once it has waited long enough, its missing outputs counted with source 68.
Rests on model choices: log entries 31, 32. -/
def Obligations.QuantiserJobsRun : Prop :=
  (∀ s : State, s.runs 4 1 →
      let ends := fun (u : State) (reason : Nat) => u.dev.qntState = 0 ∧ u.dev.f R.QNT_STATUS 8 8 = reason ∧ bit (u.dev.rd R.QNT_STATUS) 17 = true
        ∧ (reason ≠ 0 → bit (u.dev.rd R.QNT_STATUS) 18 = true) ∧ u.dev.irq.pend.getLsbD 67 = true ∧ (∀ g ∈ u.dev.tok.grants, g.req ≠ rqQnt)
      let r := s.dev.qntCheck s.nv s.dev.qjob
      let req : TokReq := ⟨rqQnt, 1, s.dev.rd (R.PWR_TOK_COST + 4), s.dev.now⟩
      (s.dev.qntState = 0 → r ≠ 0 → Answers (exec .qntStart s) fun u => ends u r ∧ u.dev.rd R.QNT_PROGRESS = 0)
      ∧ (s.dev.qntState = 0 → r = 0 → s.dev.tok.queue.any (fun q => q.req == rqQnt) = false → s.dev.tok.grants.any (fun q => q.req == rqQnt) = false →
          s.dev.tokHopeless req = false → Answers (exec .qntStart s) fun u => u.dev.qntState = 2 ∧ u.dev.rd R.QNT_PROGRESS = 0
            ∧ u.dev.tok.queue = s.dev.tok.queue ++ [req])
      ∧ (s.dev.qntState ≠ 0 → Answers (exec .qntStart s) fun u => bit (u.dev.rd R.QNT_STATUS) 19 = true ∧ u.dev.qntState = s.dev.qntState
          ∧ u.dev.qnt = s.dev.qnt)
      ∧ (s.dev.qntState ≠ 0 → ¬ (s.dev.qjob.kind = 0 ∧ s.dev.qntState = 4 ∧ s.dev.qnt.out ≠ 0) → Answers (exec .qntCancel s) fun u => ends u 9)
      ∧ (s.dev.qjob.kind = 0 → s.dev.qntState = 4 → s.dev.qnt.out ≠ 0 → Answers (exec .qntCancel s) fun u =>
          u.dev.qnt = { s.dev.qnt with cancel := true } ∧ u.dev.qntState = 4)
      ∧ (s.dev.qntState = 5 → s.dev.qnt.gather = Gather.init → s.dev.qnt.out = 0 → s.dev.qnt.todo = [] →
          Answers (exec .qntJobEnd s) fun u => ends u 0))
  ∧ (∀ (s : State) (m : Master) (c : Fin 256) (v : Word) (k : Fin 1024),
        (s.opens m true (encReg R.XCH_ENC_CFG c) → Answers (exec (.encCfgWrite m c v) s) fun u =>
            u.dev.rd (encReg R.XCH_ENC_CFG c) &&& 0xFFFF0FFF#32 = v &&& 0xFFFF0FFF#32
            ∧ u.dev.encState c k = f32 (if (u.dev.encCfg c).code = 2 then s.dev.rd (encReg R.XCH_ENC_BIAS c) else 0)
            ∧ ∀ e : Fin 256, e ≠ c → u.dev.encState e k = s.dev.encState e k)
        ∧ (s.opens m true (decReg R.XCH_DEC_CFG c) → Answers (exec (.decCfgWrite m c v) s) fun u =>
            u.dev.rd (decReg R.XCH_DEC_CFG c) &&& 0xFFEFFFFF#32 = v &&& 0xFFEFFFFF#32 ∧ u.dev.dec c = Dec.init
            ∧ ∀ e : Fin 256, e ≠ c → u.dev.dec e = s.dev.dec e)
        ∧ (∀ w more, s.runs 4 0 → (s.dev.dec c).wait = w :: more → Answers (exec (.membraneWaitExpiry c) s) fun u =>
            let q := s.dev.decCfg c
            let vals := (List.range q.nout).map (fun i => w.val.get noNat i)
            let miss := (vals.filter Option.isNone).length
            let body := leBytes 8 (w.ext % 2 ^ 32 * 2 ^ 32 + q.nout * 2 ^ 16 + c.val) ++ (vals.map (fun x => leBytes 2 (Option.getD x 0x7FC0))).flatten
            let rcd : Rec := { step := w.step, world := q.world, typ := 3, body := body }
            (u.dev.dec c).wait = (w :: more).filter (fun z => z.step != w.step)
            ∧ (0 < q.nout → s.dev.ringOn q.ring = true → s.dev.storeTakes q.ring rcd = true →
                (u.dev.ring q.ring).waiting = (s.dev.ring q.ring).waiting ++ [rcd])
            ∧ (u.dev.rd (decReg R.XCH_DEC_MISS c)).toNat = min ((s.dev.rd (decReg R.XCH_DEC_MISS c)).toNat + miss) 0xFFFFFFFF
            ∧ (0 < miss → u.dev.irq.pend.getLsbD 68 = true)))

/-- Matrices of a projection unit (R224): LOAD clears LOADED and reads a matrix of an allowed shape, and otherwise sets LOAD_ERR
with source 67; while a batch or a LOAD is in progress the commands wait in order; UNLOAD clears LOADED; a matrix whose scales
and sums hold is LOADED, and one whose sums do not is not.
Batches of a projection unit (R225 to R228): the batch at the head runs once the unit holds its grant and a matrix, and gives
the currents of each vector of K values; without a matrix it is dropped and counted in NOMAT; when it ends it leaves the
queue, its vectors are counted, and a current of at least PA in magnitude makes an event at the place its vector kept in the
injection queue, while the channel may generate one; an idle unit returns its grant.
Rests on model choices: log entries 6, 31. -/
def Obligations.ProjectionsLoadAndRun : Prop :=
  (∀ (s : State) (v : Fin 4), s.runs 4 (2 + v) →
      let st := fun (u : State) (b : Nat) => bit (u.dev.rd (prjReg R.QNT_PRJ_STATUS v)) b
      let sh := s.dev.rd (prjReg R.QNT_PRJ_SHAPE v)
      let size := (fld sh 16 12 + 1) * (fld sh 0 12 + 1)
      let fmt := s.dev.rd (prjReg R.QNT_PRJ_FMT v)
      let src := s.dev.addr40 (prjReg R.QNT_PRJ_WSRC_LO v)
      let x := s.dev.prj v
      let busy := s.dev.prjBusy v = true ∨ s.dev.prjIsLoading v = true
      let idle := ¬ busy ∧ x.waiting = []
      let untested := s.dev.banksTested x.src.1 (x.loading.k * x.loading.m) = false ∧ s.dev.banksTested x.src.2.1 (4 * x.loading.m) = false
        ∧ s.dev.banksTested x.src.2.2 (4 * x.loading.m) = false
      let depot := x.src.1 + x.loading.k * x.loading.m ≤ depotSize ∧ x.src.2.1 + 4 * x.loading.m ≤ depotSize ∧ x.src.2.2 + 4 * x.loading.m ≤ depotSize
      let y : Matrix := { x.loading with
        codes := s.mem.depotBytes x.src.1 (x.loading.k * x.loading.m), groups := wordsOf (s.mem.depotBytes x.src.2.1 (4 * x.loading.m)),
        sums := wordsOf (s.mem.depotBytes x.src.2.2 (4 * x.loading.m)) }
      let sumsHold := y.colSums.map (fun (i : Int) => w32 (i % ((2 ^ 32 : Nat) : Int)).toNat) = y.sums
      let scalesHold := y.groups.any (badScale x.loading.scaleKind) = false
      (idle → (262144 < size ∨ (fld fmt 28 4 ≠ 4 ∧ fld fmt 28 4 ≠ 6)) → Answers (exec (.prjLoad v) s) fun u => st u 27 = true ∧ st u 29 = false
          ∧ u.dev.irq.pend.getLsbD 67 = true)
      ∧ (idle → size ≤ 262144 → (fld fmt 28 4 = 4 ∨ fld fmt 28 4 = 6) → (fld fmt 24 4 = 4 ∨ fld fmt 24 4 = 6) → s.dev.rangeOk s.nv src size = true →
          s.dev.rangeOk s.nv (s.dev.addr40 (prjReg R.QNT_PRJ_PSRC_LO v)) (4 * (fld sh 0 12 + 1)) = true →
          s.dev.rangeOk s.nv (s.dev.addr40 (prjReg R.QNT_PRJ_SSRC_LO v)) (4 * (fld sh 0 12 + 1)) = true →
          Answers (exec (.prjLoad v) s) fun u => st u 28 = true ∧ st u 29 = false)
      ∧ (idle → Answers (exec (.prjUnload v) s) fun u => st u 29 = false ∧ (u.dev.prj v).queue = x.queue)
      ∧ (busy → (Answers (exec (.prjUnload v) s) fun u => (u.dev.prj v).waiting = x.waiting ++ [2] ∧ u.dev.regs = s.dev.regs)
          ∧ (Answers (exec (.prjLoad v) s) fun u => (u.dev.prj v).waiting = x.waiting ++ [1] ∧ u.dev.regs = s.dev.regs))
      ∧ (s.dev.prjIsLoading v = true → x.gather = Gather.init → x.waiting = [] → depot → untested → s.mem.depotErr = [] →
          (sumsHold → scalesHold → Answers (exec (.prjLoadEnd v) s) fun u => st u 29 = true ∧ st u 28 = false ∧ (u.dev.prj v).matrix = y)
          ∧ (st s 29 = false → ¬ (sumsHold ∧ scalesHold) → Answers (exec (.prjLoadEnd v) s) fun u => st u 27 = true ∧ st u 28 = false
              ∧ st u 29 = false ∧ (u.dev.prj v).matrix = x.matrix ∧ u.dev.irq.pend.getLsbD 67 = true)))
  ∧ (∀ (s : State) (v : Fin 4) (b : Batch) (rest : List Batch), s.runs 4 (2 + v) →
        let x := s.dev.prj v
        let gain := s.dev.rd (prjReg R.QNT_PRJ_GAIN v)
        let cnt := fun (d : Dev) (r : Nat) => (d.rd (prjReg r v)).toNat
        (x.queue = b :: rest → b.result = none → s.dev.prjIsLoading v = false →
          (bit (s.dev.rd (prjReg R.QNT_PRJ_STATUS v)) 29 = true → x.grant = 2 → (∀ y ∈ b.vecs, y.vals.length = x.matrix.k) →
            Answers (exec (.prjBatchRun v) s) fun u =>
              (u.dev.prj v).queue = { b with result := some (b.vecs.map (fun y => (x.matrix.currents gain y.vals).1)) } :: rest)
          ∧ (bit (s.dev.rd (prjReg R.QNT_PRJ_STATUS v)) 29 = false → Answers (exec (.prjBatchRun v) s) fun u => (u.dev.prj v).queue = rest
              ∧ cnt u.dev R.QNT_PRJ_NOMAT = min (cnt s.dev R.QNT_PRJ_NOMAT + 1) 0xFFFFFFFF ∧ u.dev.irq.pend.getLsbD 67 = true))
        ∧ (∀ out, x.queue = b :: rest → b.result = some out → x.waiting = [] → Answers (exec (.prjBatchEnd v) s) fun u => (u.dev.prj v).queue = rest
            ∧ cnt u.dev R.QNT_PRJ_VECS = min (cnt s.dev R.QNT_PRJ_VECS + b.vecs.length) 0xFFFFFFFF
            ∧ cnt u.dev R.QNT_PRJ_LAT_MAX = min (max (cnt s.dev R.QNT_PRJ_LAT_MAX) (s.dev.now - b.since)) 0xFFFFFFFF
            ∧ ∀ (pv : PVec) (i : Word) (before after : List QItem), b.vecs = [pv] → out = [[i]] →
                (s.dev.wld (fld pv.cfg 0 12)).queue = before ++ .await pv.place :: after → pv.world = fld pv.cfg 0 12 →
                QItem.await pv.place ∉ before ++ after →
                let q : EncCfg := { chan := pv.enc, place := some pv.place, cfg := pv.cfg, map := pv.map, pa := pv.pa, lim := pv.lim }
                let key := w32 (pv.world * 2 ^ 20 + fld pv.map 24 8 * 2 ^ 12 + fld pv.map 12 12)
                let event := QItem.event (mkWord key (q.pfmt.conv (f32 i) none).code (fld pv.cfg 18 5) false false false) (if bit pv.cfg 27 then 2 else 1)
                ((f32 pv.pa).le (f32 i).abs = true → s.dev.encMay q 0 = true → (u.dev.wld pv.world).queue = before ++ event :: after)
                ∧ ((f32 pv.pa).le (f32 i).abs = false → (u.dev.wld pv.world).queue = before ++ after))
        ∧ (x.queue = [] → x.grant ≠ 0 → Answers (exec (.prjTokenIdle v) s) fun u => (u.dev.prj v).grant = 0
            ∧ (∀ g ∈ u.dev.tok.grants, g.req ≠ rqPrj v) ∧ ∀ g ∈ u.dev.tok.queue, g.req ≠ rqPrj v))

/-! ### Track Plan, tests, resets and bring-up (chapters 2, 13 and 17) -/

/-- A command to the loader in a state that does not take it (R45) sets REJECTED and changes nothing else.
LOAD and PATCH (R46, R50): the first check that the image fails ends the command with its REASON; one that passes is accepted,
and waits for a grant of the Token Office in CHECKING or PATCHING, with TPL_FAIL_COUNT clear; an image in a Depot bank under
test waits to be checked (R287).
Rests on model choices: log entries 38, 50. -/
def Obligations.LoaderTakesPlans : Prop :=
  (∀ (s : State) (i : Instr), s.dev.clocked = true →
      let st := s.dev.tplState
      (match i with
       | .tplLoad => st ≠ 0
       | .tplPatch => st ≠ 6
       | .tplGo => st ≠ 3
       | .tplHold => st ≠ 4 ∧ st ≠ 6
       | .tplRelease => st ≠ 5 ∧ st ≠ 6
       | .tplStop => st ≠ 3 ∧ st ≠ 4 ∧ st ≠ 5 ∧ st ≠ 6 ∧ st ≠ 8
       | .tplCancel => st ≠ 1 ∧ st ≠ 2 ∧ st ≠ 5 ∧ st ≠ 8
       | _ => False) →
      Answers (exec i s) fun u => u.dev.regs = (s.dev.orBits R.TPL_STATUS (2 ^ 19)).regs
        ∧ u = { s with dev := { s.dev with regs := u.dev.regs, irq := u.dev.irq } })
  ∧ (∀ s : State, s.dev.clocked = true →
        let why := fun (u : State) => u.dev.f R.TPL_STATUS 8 8
        let flag := fun (u : State) (i : Nat) => bit (u.dev.rd R.TPL_STATUS) i
        let taken := fun (state : Nat) =>
          let d := ((((s.dev.tplAccept [s.dev.tplState] id).wr R.TPL_FAIL_COUNT 0).setMap R.TPL_FAIL_MAP []).setMap R.TPL_ACK_MAP []).setTpl state
          { d with tpl := { d.tpl with imageWait := none } }
        let tested := s.dev.banksTested s.dev.tplSrc (max 64 (recNat (s.mem.devBytes s.dev.tplSrc 64) 8 8))
        let chk := fun (state : Nat) (patch : Bool) => (taken state).checkImage s.nv s.mem patch
        let asks : TokReq := ⟨rqLoader, 3, s.dev.rd (R.PWR_TOK_COST + 12), s.dev.now⟩
        let ends := fun (u : State) (reason state : Nat) => why u = reason % 256 ∧ u.dev.tplState = state ∧ flag u 16 = true
          ∧ flag u 17 = true ∧ u.dev.tpl = { s.dev.tpl with imageWait := none }
        let goes := fun (u : State) (p : Plan) (state : Nat) => u.dev.tpl.job = some p ∧ u.dev.tplState = state ∧ flag u 16 = false
          ∧ why u = 0 ∧ u.dev.rd R.TPL_FAIL_COUNT = 0 ∧ u.dev.tpl.bad = p.ackRanks s.nv ++ (p.ofType 0x20).map Segment.freightTarget ∧ u.dev.tpl.written = false
          ∧ u.dev.tok.queue = s.dev.tok.queue ++ [asks]
        let canAsk := s.dev.tokHopeless asks = false ∧ (∀ q ∈ s.dev.tok.queue ++ s.dev.tok.grants, q.req ≠ rqLoader)
        (tested = true → (s.dev.tplState = 0 → Answers (exec .tplLoad s) fun u => u.dev.tplState = 1 ∧ u.dev.tpl.imageWait = some false)
          ∧ (s.dev.tplState = 6 → Answers (exec .tplPatch s) fun u => u.dev.tplState = 7 ∧ u.dev.tpl.imageWait = some true))
        ∧ (tested = false →
          (s.dev.tplState = 0 → (chk 1 false).1 ≠ 0 → Answers (exec .tplLoad s) fun u => ends u (chk 1 false).1 0)
          ∧ (s.dev.tplState = 0 → canAsk → Answers (exec .tplLoad s) fun u => (chk 1 false).1 = 0 → goes u (chk 1 false).2.1 1)
          ∧ (s.dev.tplState = 6 → (chk 7 true).1 ≠ 0 → Answers (exec .tplPatch s) fun u => ends u (chk 7 true).1 6)
          ∧ (s.dev.tplState = 6 → (chk 7 true).1 = 0 → canAsk → Answers (exec .tplPatch s) fun u => goes u (chk 7 true).2.1 7
            ∧ u.dev.tpl.jobPatch = true ∧ u.dev.tpl.newRanks.isSome = (chk 7 true).2.1.segs.any (fun g => g.typ == 2))))

/-- The rounds of a load or a patch (R46, R50, R209): once no Freight write of the round is open, ranks that have not
acknowledged, or whose writes failed, go into another round, up to round 3, after which the command fails with REASON 0x09;
once all have, the plan is in force, or where the patch brings a rank table it waits for the switch; and CANCEL ends what is
in progress with REASON 0x0F.
Life of a plan (R48, R49, R52): GO brings its worlds to life, before step 0; HOLD and STOP hold worlds and drain them; CANCEL
and the limit end the command while the drain goes on; a drain that is over ends in DRAINED, and a stop with no plan, no world
and the default ranks, while the registers still show what each world had; RELEASE lets the selected worlds go on at their
next boundary and clears their faults.
Rests on model choices: log entries 10, 28, 38, 50. -/
def Obligations.LoaderRunsPlans : Prop :=
  (∀ (s : State) (p : Plan) (bad : List Nat), s.dev.clocked = true → s.dev.tpl.job = some p → s.dev.tpl.written = true →
      s.dev.loadFlying = false →
      let why := fun (u : State) => u.dev.f R.TPL_STATUS 8 8
      let flag := fun (u : State) (i : Nat) => bit (u.dev.rd R.TPL_STATUS) i
      let round := fun (u : State) => u.dev.f R.TPL_STATUS 4 2
      let left := s.dev.tpl.bad.filter (fun r => bad.contains r || (p.changed s.mem (p.ackRanks s.nv)).contains r || s.dev.tpl.failed.contains r)
      let patch := s.dev.tpl.jobPatch
      let fails := fun (u : State) (reason : Nat) => why u = reason ∧ u.dev.tplState = (if s.dev.tplState = 7 then 6 else 0) ∧ flag u 16 = true
        ∧ flag u 17 = true ∧ u.dev.tpl.job = none
      (left ≠ [] → round s ≠ 3 → Answers (exec (.loadRoundEnd bad) s) fun u => round u = round s + 1 ∧ u.dev.tpl.bad = left
          ∧ u.dev.tplState = s.dev.tplState ∧ flag u 16 = flag s 16)
      ∧ (left ≠ [] → round s = 3 → Answers (exec (.loadRoundEnd bad) s) fun u => fails u 9
          ∧ u.dev.rd R.TPL_FAIL_COUNT = w32 (left.filter (fun r => decide (r < 2304))).length)
      ∧ (left = [] → s.dev.tpl.newRanks = none → p.flags.testBit 1 = false ∨ patch = true → Answers (exec (.loadRoundEnd bad) s) fun u =>
          u.dev.tplState = (if patch then 6 else 3) ∧ why u = 0 ∧ flag u 16 = true ∧ u.dev.rd R.TPL_PLAN_ID = p.planId
            ∧ u.dev.tpl.plan = some p ∧ u.dev.tpl.job = none)
      ∧ (∀ rs, left = [] → s.dev.tpl.newRanks = some rs → Answers (exec (.loadRoundEnd bad) s) fun u => u.dev.tpl.bad = []
          ∧ u.dev.tplState = s.dev.tplState ∧ u.dev.tpl.job = some p ∧ flag u 16 = flag s 16)
      ∧ (∀ rs, patch = true → s.dev.tpl.newRanks = some rs → s.dev.tpl.bad = [] → s.dev.txns = [] →
          (Answers (exec (.rankTableSwitch true) s) fun u => u.dev.tpl.ranks = rs ∧ u.dev.tplState = 6 ∧ why u = 0 ∧ flag u 16 = true
            ∧ u.dev.tpl.plan = some p)
          ∧ (Answers (exec (.rankTableSwitch false) s) fun u => fails u 9 ∧ u.dev.tpl.ranks = s.dev.tpl.ranks))
      ∧ (s.dev.tplState = 1 ∨ s.dev.tplState = 2 → Answers (exec .tplCancel s) fun u => fails u 15))
  ∧ (∀ s : State, s.dev.clocked = true →
        let why := fun (u : State) => u.dev.f R.TPL_STATUS 8 8
        let flag := fun (u : State) (i : Nat) => bit (u.dev.rd R.TPL_STATUS) i
        let st := s.dev.tplState
        let held := fun (u : State) (w : Nat) => (u.dev.wld w).held
        (st = 3 → Answers (exec .tplGo s) fun u => u.dev.tplState = 4 ∧ why u = 0 ∧ flag u 16 = true ∧ flag u 17 = false ∧ flag u 24 = true
            ∧ ∀ p, s.dev.tpl.plan = some p → u.dev.tpl.ranks = p.rankTable s.nv ∧ ∀ x ∈ p.worlds, (u.dev.wld x.id).live = true
              ∧ held u x.id = false ∧ (u.dev.wld x.id).faulted = false ∧ (u.dev.wld x.id).started = false)
        ∧ ((st = 4 ∨ st = 6) → Answers (exec .tplHold s) fun u => u.dev.tplState = 5 ∧ flag u 16 = false ∧ ∀ w : Nat,
            held u w = (held s w || (s.dev.active w && s.dev.selected w)) ∧ (held u w = true → held s w = false → (u.dev.wld w).inputOpen = false))
        ∧ ((st = 5 ∨ st = 6) → Answers (exec .tplRelease s) fun u => flag u 16 = true ∧ why u = 0 ∧ (u.dev.heldWorlds = [] → u.dev.tplState = 4)
            ∧ (u.dev.heldWorlds ≠ [] → st = 6 → u.dev.tplState = 6)
            ∧ ∀ w : Nat, let out := (s.dev.wld w).live && held s w && s.dev.selected w
              held u w = (held s w && !out) ∧ (out = true → (u.dev.wld w).faulted = false ∧ (u.dev.wld w).atOnce = false
                ∧ (u.dev.wld w).nextB = max (s.dev.wld w).nextB (s.dev.nextBoundary (s.dev.wld w)) ∧ (u.dev.wld w).dueB = (u.dev.wld w).nextB))
        ∧ ((st = 3 ∨ st = 4 ∨ st = 5 ∨ st = 6 ∨ st = 8) → Answers (exec .tplStop s) fun u => u.dev.tplState = 8 ∧ flag u 16 = false
            ∧ ∀ w : Nat, held u w = (held s w || s.dev.active w))
        ∧ ((st = 5 ∨ st = 8) → Answers (exec .tplCancel s) fun u => u.dev.tplState = 5 ∧ why u = 15 ∧ flag u 16 = true ∧ flag u 17 = true
            ∧ u.dev.worlds = s.dev.worlds)
        ∧ (st = 5 → s.dev.heldWorlds.all s.dev.drained = true → Answers (exec .holdDrained s) fun u => u.dev.tplState = 6
            ∧ (s.dev.tpl.limitHit = false → why u = 0 ∧ flag u 16 = true) ∧ (s.dev.tpl.limitHit = true → why u = why s ∧ flag u 16 = flag s 16))
        ∧ (st = 8 → s.dev.tpl.limitHit = false → s.dev.liveIds.all s.dev.drained = true → Answers (exec .stopComplete s) fun u =>
            u.dev.tplState = 0 ∧ why u = 0 ∧ flag u 16 = true ∧ flag u 24 = false ∧ u.dev.tpl.plan = none
              ∧ (∀ w : Nat, (u.dev.wld w).live = false ∧ ((s.dev.wld w).live = true → u.dev.wld w = (s.dev.wld w).stopped))
              ∧ u.dev.tpl.ranks = s.nv.defaultRanks ∧ u.dev.rd R.TPL_PLAN_ID = 0)
        ∧ ((st = 5 ∨ st = 8) → s.dev.tpl.limitHit = false → s.dev.rd R.TPL_DRAIN_LIMIT ≠ 0 → Answers (exec .drainLimitExpiry s) fun u =>
            u.dev.tplState = st ∧ why u = 13 ∧ flag u 16 = true ∧ flag u 17 = true ∧ u.dev.worlds = s.dev.worlds))

/-- The march engine (R286 to R289): START of an engine that runs sets REJECTED alone; a selection or a state that does not serve
ends it at once with REASON 2 or 1; else the run asks for its grant. CANCEL ends a run that tests nothing yet, and one of ALG
0, with REASON 4, and has a transparent one stop. The end of a run sets DONE and MBT_TIME, and counts what failed; what ALG 0
tested of a station reads zero.
Rests on model choices: log entry 40. -/
def Obligations.MarchRunsProceed : Prop :=
  ∀ (s : State) (fails : List MarchFail), s.dev.clocked = true →
    let why := fun (u : State) => u.dev.f R.MBT_STATUS 8 8
    let flag := fun (u : State) (i : Nat) => bit (u.dev.rd R.MBT_STATUS) i
    let st := s.dev.mbtState
    let asks : TokReq := ⟨rqMarch, 5, s.dev.rd (R.PWR_TOK_COST + 20), s.dev.now⟩
    let ended := fun (u : State) (reason : Nat) => u.dev.mbtState = 0 ∧ why u = reason ∧ flag u 17 = true ∧ u.dev.mbt = none
      ∧ (reason ≠ 0 → flag u 18 = true)
    (st ≠ 0 → Answers (exec .mbtStart s) fun u => flag u 19 = true ∧ u.dev.mbt = s.dev.mbt ∧ u.dev.mbtState = st)
    ∧ (st = 0 → s.dev.mbtUnits s.nv = none → Answers (exec .mbtStart s) fun u => ended u 2)
    ∧ (∀ us, st = 0 → s.dev.mbtUnits s.nv = some us → s.dev.mbtAllowed us = false → Answers (exec .mbtStart s) fun u => ended u 1)
    ∧ (∀ us, st = 0 → s.dev.mbtUnits s.nv = some us → s.dev.mbtAllowed us = true → s.dev.tokHopeless asks = false →
        (∀ q ∈ s.dev.tok.queue ++ s.dev.tok.grants, q.req ≠ rqMarch) → Answers (exec .mbtStart s) fun u => u.dev.mbtState = 2 ∧ why u = 0
          ∧ u.dev.tok.queue = s.dev.tok.queue ++ [asks]
          ∧ u.dev.mbt = some ⟨s.dev.f R.MBT_CFG 24 4, us, s.dev.mbtAlg, decide (s.dev.mbtAlg = 0 ∧ bit (s.dev.rd R.MBT_CFG) 28 = true), s.dev.now, false⟩)
    ∧ (∀ r, s.dev.mbt = some r → s.dev.words = [] → s.dev.tpl.imageWait = none → s.dev.qntState < 3 →
        (st < 3 ∨ r.alg ≠ 1 → Answers (exec .mbtCancel s) fun u => ended u 4)
        ∧ (3 ≤ st → r.alg = 1 → Answers (exec .mbtCancel s) fun u => u.dev.mbt = some { r with stopping := true } ∧ u.mem = s.mem)
        ∧ (3 ≤ st → r.stopping = false → Answers (exec (.mbtRunEnd fails) s) fun u => ended u 0
          ∧ u.dev.rd R.MBT_TIME = satWord ((s.dev.now - r.began) / 100) ∧ u.dev.rd R.MBT_FAIL_CNT = w32 (min fails.length 0xFFFFFFFF)
          ∧ (r.alg = 0 → r.target < 2 → ∀ p ∈ r.units, ∀ a < 0x60000, u.dev.stnM.get zeroByte (skey p a) = 0))
        ∧ (3 ≤ st → r.stopping = true → Answers (exec (.mbtRunEnd fails) s) fun u => ended u 4))

/-- The resets (R363 to R366): a request that may not be carried out sets REFUSED and REFUSE_WHY; COLD and WARM from the transport
are due 10 µs later, and from another source begin at once: worlds and plan are gone, GDDR6 contents lost, SB0 starts at its
reset vector, LAST, SOURCE and SYS_RST_OPS tell of it, and WARM goes on in stage 1 with AUTO and the report of stage 0 kept;
COMPUTE leaves no world and no plan, and BUSY, but waits while GDDR6 trains; SECTION empties its stations, their Junction
buffers too; and the end of either clears BUSY, sets DONE and raises source 107. Where requests of class C wait or accesses of
the host are open, they follow (R250), and may change more.
The rails (R427, R363): the rise of VDD_AON is a COLD reset that finds nothing in progress; with the power go the contents of
every memory, and what is non-volatile stays.
Rests on model choices: log entries 18, 36, 51, 52. -/
def Obligations.ResetsTakePlace : Prop :=
  (∀ (s : State) (src : ResetSource) (w : Fin 4096),
      let flag := fun (u : State) (i : Nat) => bit (u.dev.rd R.SYS_RST_STATUS) i
      let last := fun (u : State) => u.dev.f R.SYS_RST_STATUS 24 3
      let source := fun (u : State) => u.dev.f R.SYS_RST_STATUS 20 4
      let refused := fun (u : State) (why : Nat) => flag u 29 = true ∧ u.dev.f R.SYS_RST_STATUS 8 8 = why ∧ u.dev.worlds = s.dev.worlds
        ∧ u.mem = s.mem ∧ u.dev.rst = s.dev.rst
      let alone := s.dev.clocked = true ∧ s.dev.link.waitC = [] ∧ s.dev.words = []
      let begun := fun (u : State) (kind : Nat) => last u = kind ∧ source u = sourceCode src ∧ flag u 31 = false
        ∧ u.dev.rd R.SYS_RST_OPS = w32 s.dev.opsNow ∧ u.dev.worlds = [] ∧ u.dev.tpl = Tpl.init
        ∧ u.dev.core 0 = { Core.init 0 with running := kind == 2 }
        ∧ u.mem.gddr = [] ∧ u.mem.depot = s.mem.depot ∧ u.nv = s.nv ∧ u.dev.now = s.dev.now
      (s.dev.powered = true → s.dev.rstWhy 1 ≠ 0 → Answers (exec (.resetCold src) s) fun u => refused u (s.dev.rstWhy 1))
      ∧ (s.dev.powered = true → s.dev.rstWhy 2 ≠ 0 → Answers (exec (.resetWarm src) s) fun u => refused u (s.dev.rstWhy 2))
      ∧ (s.dev.powered = true → s.dev.rstWhy 1 = 0 → src = .transport → Answers (exec (.resetCold src) s) fun u =>
          u.dev.rst.due = some (s.dev.now + 1000, 1, src) ∧ u.dev.regs = s.dev.regs ∧ u.mem = s.mem)
      ∧ (s.dev.powered = true → s.dev.rstWhy 2 = 0 → src = .transport → Answers (exec (.resetWarm src) s) fun u =>
          u.dev.rst.due = some (s.dev.now + 1000, 2, src) ∧ u.dev.regs = s.dev.regs ∧ u.mem = s.mem)
      ∧ (s.dev.powered = true → s.dev.rstWhy 1 = 0 → src ≠ .transport → Answers (exec (.resetCold src) s) fun u => begun u 1
          ∧ u.dev.rst = Rst.init)
      ∧ (s.dev.powered = true → s.dev.rstWhy 2 = 0 → src ≠ .transport → Answers (exec (.resetWarm src) s) fun u => begun u 2
          ∧ u.dev.stage = 1 ∧ u.dev.stageRunning = true ∧ u.dev.bootReady = false ∧ u.dev.rd (bootReport 0) = s.dev.rd (bootReport 0)
          ∧ u.dev.f R.SYS_BRING_STATUS 30 1 = s.dev.f R.SYS_BRING_STATUS 30 1 ∧ flag u 30 = flag s 30 ∧ flag u 29 = flag s 29)
      ∧ (alone → s.dev.rstWhy 3 ≠ 0 → Answers (exec (.resetCompute src) s) fun u => refused u (s.dev.rstWhy 3))
      ∧ (alone → s.dev.rstWhy 3 = 0 → s.dev.trainingNow = false → Answers (exec (.resetCompute src) s) fun u => last u = 3
          ∧ source u = sourceCode src ∧ flag u 31 = true ∧ u.dev.worlds = [] ∧ u.dev.tplState = 0 ∧ u.dev.tpl.plan = none
          ∧ u.dev.streamers = [] ∧ u.dev.packets = [] ∧ u.dev.edgeBuf = [] ∧ u.dev.rst.stations = s.nv.positions)
      ∧ (alone → s.dev.rstWhy 3 = 0 → s.dev.trainingNow = true → Answers (exec (.resetCompute src) s) fun u =>
          flag u 31 = true ∧ source u = sourceCode src ∧ u.dev.rst.waiting = true ∧ u.dev.worlds = s.dev.worlds ∧ u.mem = s.mem)
      ∧ (alone → (s.dev.sectionWhy s.nv w).1 ≠ 0 → Answers (exec (.resetSection src w) s) fun u => refused u (s.dev.sectionWhy s.nv w).1)
      ∧ (alone → (s.dev.sectionWhy s.nv w).1 = 0 → Answers (exec (.resetSection src w) s) fun u => last u = 4
          ∧ source u = sourceCode src ∧ flag u 31 = true ∧ u.dev.rst.stations = (s.dev.sectionWhy s.nv w).2
          ∧ ∀ p ∈ (s.dev.sectionWhy s.nv w).2, (u.dev.stn p).emit = [] ∧ (u.dev.stn p).arb = [] ∧ (u.dev.stn p).samples = []
            ∧ (u.dev.stn p).opened = [] ∧ (u.dev.stn p).bufs = [])
      ∧ (s.dev.clocked = true → flag s 31 = true → s.dev.rst.waiting = false → Answers (exec .resetDone s) fun u => flag u 31 = false
          ∧ flag u 30 = true ∧ last u = last s ∧ u.dev.irq.pend.getLsbD 107 = true ∧ u.dev.rst = { Rst.init with due := s.dev.rst.due }))
  ∧ (∀ s : State,
        (Answers (exec .vddAonRise s) fun u => u.dev.powered = true ∧ u.dev.regs = s.nv.fused ∧ u.dev.worlds = [] ∧ u.dev.tpl = Tpl.init
          ∧ u.dev.core 0 = Core.init 0 ∧ u.mem.gddr = [] ∧ u.nv = s.nv ∧ u.dev.sbclk = s.dev.sbclk ∧ u.dev.boot.started = s.dev.sbclk
          ∧ u.dev.boot.gdReleased = 0)
        ∧ (Answers (exec .powerRemoved s) fun u => u.dev.powered = false ∧ u.dev.sbclk = false ∧ u.mem.depot = [] ∧ u.mem.gddr = []
          ∧ u.dev.stnM = [] ∧ u.dev.coreMem = [] ∧ u.nv = s.nv))

/-- Depot contents (R280): SLEEP, DEEP, COMPUTE and SECTION keep them; COLD and WARM lose them, every word reading zero once stage
3 has passed. (A request of class C that waits may follow a COMPUTE or SECTION reset or the end of a stage, and write.) -/
def Obligations.DepotContentsKept : Prop :=
  ∀ (s : State) (src : ResetSource) (w : Fin 4096) (c : Fin 7) (r : StageReport),
    let kept := fun (u : State) => u.mem.depot = s.mem.depot
    (s.dev.clocked = true →
      Answers (exec .pwrSleepReq s) kept ∧ Answers (exec .pwrDeepReq s) kept ∧ Answers (exec .pwrStateEntry s) kept
      ∧ Answers (exec .pwrWakeReq s) kept ∧ Answers (exec (.wakeCauseEvent c) s) kept ∧ Answers (exec .pwrWakeTimeExpiry s) kept
      ∧ Answers (exec .resetDone s) kept
      ∧ (s.dev.link.waitC = [] → Answers (exec (.resetCompute src) s) kept ∧ Answers (exec (.resetSection src w) s) kept))
    ∧ (s.dev.clocked = true → s.dev.stage = 3 → s.dev.stageRunning = true → s.dev.stageBlocked = false → s.dev.boot.rerun = none →
        s.dev.rst.waiting = false → physical 3 r.code.toNat = 0 → r.unrepaired = [] →
        (s.dev.sramMarch r).1 = true → s.dev.link.waitC = [] →
        Answers (exec (.stageEnd r) s) fun u => 2 ^ 30 * 2 ≤ (u.dev.rd (bootReport 3)).toNat ∧ ∀ a, u.mem.depotWord a = 0)

/-- Commands of bring-up (R355, R356): NEXT starts the stage after the one at which the device waits, ALL that stage and has the
rest follow, RETRY the failed stage, RERUN stage 4, 6 or 7 of a device that is READY, and AUTO written as 1 acts as ALL; one
that does not fit sets REJECTED alone.
Ends of stages (R354 to R360, Table 17-1): a stage whose physical work failed fails with that CODE; stage 1 leads to stage 2;
a passed stage from 4 on sets STAGE_EVT and raises source 107; stage 4 with no module trained fails with 1, without the
forwarded clock with 2, and else LINK runs on that clock; stage 8 fails with fewer than 48 rows left, and after it the device
waits, unless ALL runs; stage 9 with a record that agrees ends READY. An island reset during a stage fails it with 1, and
takes what the island held.
Rests on model choices: log entries 36, 37, 51, 52, 53. -/
def Obligations.BringUpProceeds : Prop :=
  (∀ (s : State) (n : BitVec 4) (v : Bool), s.dev.clocked = true → s.dev.stage < 9 ∨ s.dev.stageWaits = false →
      let k := n.toNat
      let auto := fun (u : State) => u.dev.f R.SYS_BRING_STATUS 30 1
      let starts := fun (u : State) (k : Nat) => u.dev.stage = k ∧ u.dev.stageRunning = true ∧ u.dev.stageWaits = false
        ∧ u.dev.stageFailed = false ∧ u.dev.rd (bootReport k) = w32 (2 ^ 30)
      let ready := fun (k : Nat) => k = 6 → s.dev.tokHopeless ⟨rqTrain, 4, s.dev.rd (R.PWR_TOK_COST + 16), s.dev.now⟩ = false
      let idle := s.dev.resetting = false
      let next := s.dev.stage + 1
      let rejected := fun (u : State) => bit (u.dev.rd R.SYS_BRING_STATUS) 29 = true ∧ u.dev.rd R.SYS_BOOT_STAGE = s.dev.rd R.SYS_BOOT_STAGE
        ∧ u.dev.boot = s.dev.boot ∧ u.mem = s.mem
      (idle → s.dev.stageWaits = true → ready next → Answers (exec .bringNext s) fun u => starts u next ∧ u.dev.boot.all = s.dev.boot.all)
      ∧ (s.dev.resetting = true ∨ s.dev.stageWaits = false → Answers (exec .bringNext s) rejected)
      ∧ (idle → s.dev.bootReady = false → s.dev.stageFailed = false → s.dev.stageWaits = true → ready next →
          Answers (exec .bringAll s) fun u => starts u next ∧ u.dev.boot.all = true)
      ∧ (idle → s.dev.bootReady = false → s.dev.stageFailed = false → s.dev.stageWaits = false →
          Answers (exec .bringAll s) fun u => u.dev.regs = s.dev.regs ∧ u.dev.boot.all = true)
      ∧ (s.dev.resetting = true ∨ s.dev.bootReady = true ∨ s.dev.stageFailed = true → Answers (exec .bringAll s) rejected)
      ∧ (idle → s.dev.stageFailed = true → 4 ≤ s.dev.stage → s.dev.stage ≤ 9 → ready s.dev.stage →
          Answers (exec .bringRetry s) fun u => starts u s.dev.stage)
      ∧ (s.dev.resetting = true ∨ s.dev.stageFailed = false ∨ s.dev.stage < 4 → Answers (exec .bringRetry s) rejected)
      ∧ (idle → s.dev.bootReady = true → s.dev.stageRunning = false → (k = 4 ∨ k = 6 ∨ k = 7) → ready k →
          Answers (exec (.bringRerun n) s) fun u => starts u k ∧ u.dev.boot.rerun = some k)
      ∧ (s.dev.resetting = true ∨ s.dev.bootReady = false ∨ s.dev.stageRunning = true ∨ (k ≠ 4 ∧ k ≠ 6 ∧ k ≠ 7) →
          Answers (exec (.bringRerun n) s) rejected)
      ∧ (v = false ∨ s.dev.stageWaits = false → Answers (exec (.autoWrite v) s) fun u => auto u = (if v then 1 else 0)
          ∧ u.dev.rd R.SYS_BOOT_STAGE = s.dev.rd R.SYS_BOOT_STAGE ∧ u.dev.boot = s.dev.boot)
      ∧ (idle → s.dev.bootReady = false → s.dev.stageFailed = false → s.dev.stageWaits = true → ready next →
          Answers (exec (.autoWrite true) s) fun u => auto u = 1 ∧ starts u next ∧ u.dev.boot.all = true))
  ∧ (∀ (s : State) (r : StageReport) (v : Word), s.dev.clocked = true →
        let st := s.dev.stage
        let code := physical st r.code.toNat
        let report := fun (u : State) (k code : Nat) => u.dev.rd (bootReport k) = w32 ((if code = 0 then 2 else 3) * 2 ^ 30 + code * 2 ^ 24 + r.time.toNat)
        let fails := fun (u : State) (code : Nat) => u.dev.stageFailed = true ∧ u.dev.stageRunning = false ∧ u.dev.stage = st
          ∧ u.dev.f R.SYS_BRING_STATUS 8 8 = code ∧ u.dev.f R.SYS_BRING_STATUS 0 4 = st ∧ u.dev.boot.all = false
        let event := fun (u : State) => bit (u.dev.rd R.SYS_BRING_STATUS) 28 = true ∧ u.dev.irq.pend.getLsbD 107 = true
        let end_ := s.dev.stageRunning = true ∧ s.dev.stageBlocked = false ∧ s.dev.boot.rerun = none ∧ s.dev.rst.waiting = false
          ∧ s.dev.link.waitC = []
        (end_ → code ≠ 0 → Answers (exec (.stageEnd r) s) fun u => fails u code ∧ report u st code ∧ u.mem = s.mem)
        ∧ (end_ → st = 1 → code = 0 → Answers (exec (.stageEnd r) s) fun u => u.dev.stage = 2 ∧ u.dev.stageRunning = true ∧ report u 1 0
            ∧ u.dev.f R.SYS_BRING_STATUS 0 4 = 1)
        ∧ (end_ → st = 4 → s.dev.trainStatus r.train = none → Answers (exec (.stageEnd r) s) fun u => fails u 1 ∧ report u 4 1 ∧ event u)
        ∧ (∀ lk, end_ → st = 4 → s.dev.trainStatus r.train = some lk →
            (r.code.toNat = 2 → Answers (exec (.stageEnd r) s) fun u => fails u 2 ∧ report u 4 2 ∧ event u)
            ∧ (r.code.toNat ≠ 2 → bit (s.dev.rd R.CLK_MON) (clkSource 0 0) = true → Answers (exec (.stageEnd r) s) fun u => report u 4 0 ∧ event u
              ∧ u.dev.rd R.XCH_LINK_STATUS = lk ∧ bit (u.dev.rd R.CLK_SEL) 0 = true))
        ∧ (end_ → st = 8 → s.dev.keptRows.length < 48 → Answers (exec (.stageEnd r) s) fun u => fails u 1 ∧ event u
            ∧ bit (u.dev.rd R.SYS_CENSUS) 30 = true)
        ∧ (end_ → st = 8 → 48 ≤ s.dev.keptRows.length → s.dev.boot.all = false → Answers (exec (.stageEnd r) s) fun u => u.dev.stageWaits = true
            ∧ u.dev.stageRunning = false ∧ report u 8 0 ∧ event u ∧ bit (u.dev.rd R.SYS_CENSUS) 30 = false
            ∧ u.dev.tpl.ranks = s.nv.defaultRanks)
        ∧ (end_ → st = 9 → (s.dev.isManager = true → 2 ≤ s.dev.sysSize → s.dev.formed = true) → (s.dev.topoCheck (some s.dev.sys.topo)).1 = 0 →
            Answers (exec (.stageEnd r) s) fun u => u.dev.bootReady = true ∧ u.dev.stageRunning = false ∧ report u 9 0 ∧ event u)
        ∧ (s.dev.stageRunning = false → Answers (exec (.islandReset v) s) fun u =>
            (v.getLsbD 0 = true → u.dev.linkUp = false ∧ u.dev.link = Link.init ∧ (v.getLsbD 1 = false → u.dev.rings = []))
            ∧ (v.getLsbD 1 = true → u.dev.streamers = [] ∧ u.mem.gddr = []) ∧ (v.getLsbD 2 = true → u.dev.trunks = [])
            ∧ (v.getLsbD 0 = false → v.getLsbD 1 = false → v.getLsbD 2 = false → u.dev.regs = s.dev.regs ∧ u.mem = s.mem))
        ∧ (s.dev.stageRunning = true → s.dev.rst.waiting = false → (v.getLsbD 0 = true ∨ v.getLsbD 1 = true ∨ v.getLsbD 2 = true) →
            Answers (exec (.islandReset v) s) fun u => fails u 1))

/-! ### Firmware, the host link and trunks (chapters 11, 18 and 19) -/

/-- Write sessions (R381 to R384): one begins by its own route alone, with the header sector of the other slot erased and the slot
EMPTY; it is refused with REASON 1 while the running slot is PENDING; an SD card is read after its START, and no card, no
FAT32 volume, no file, a file of another length or a read error ends the session with 6, and otherwise the whole slot is
erased and the file stands in it; CANCEL ends it with 8, a failing QSPI device with 7; an image that fails a check ends it
with that REASON, and one that passes is written, its slot PENDING. A command that does not fit the engine's state sets
REJECTED alone.
The boot record and what goes with it (R378, R385, R386, R389 to R391): SELECT of a GOOD slot that does not run makes it
PENDING; a customer key hash is burnt once; FWU_HEALTH_OK confirms the running PENDING slot, which becomes GOOD and ACTIVE;
when the health timer of a watched slot passes, the slot is REJECTED and a WARM reset is due 10 µs later, unless another reset
is due already; a settings block that does not fit is refused with 0xD, and one that does is written in STATE SETTINGS, with
SEQ increased, once no Depot bank that it lies in is under test.
Attestation (R394, Table 18-7): a request binds the report to what its fields show now and sets BUSY, and one while BUSY sets
REJECTED alone; when the engine is done, SEC_REPORT holds those bytes with the signature after them, and source 105 is raised.
Rests on model choices: log entries 39, 44, 52. -/
def Obligations.FirmwareChangesSlots : Prop :=
  (∀ (s : State) (card : SdCard), s.dev.clocked = true →
      let flag := fun (u : State) (i : Nat) => bit (u.dev.rd R.FWU_STATUS) i
      let other := 1 - s.dev.fwu.running
      let pending := (s.nv.bootRec.slot s.dev.fwu.running).state = sPending
      let route := s.dev.f R.FWU_SOURCE 0 1
      let rejected := fun (u : State) => flag u 29 = true ∧ u.nv = s.nv ∧ u.dev.fwu = s.dev.fwu ∧ u.dev.fwuState = s.dev.fwuState
      let ends := fun (u : State) (reason : Nat) => u.dev.fwuState = 0 ∧ u.dev.f R.FWU_STATUS 8 8 = reason ∧ flag u 31 = true
        ∧ flag u 30 = true ∧ u.dev.irq.pend.getLsbD 105 = true
      let open_ := fun (u : State) => flag u 31 = false ∧ flag u 30 = false ∧ (u.nv.bootRec.slot other).state = sEmpty
      let whole := card.answers && card.fat32 && !card.readError && card.file.any (fun bs => decide (12 ≤ bs.length ∧ bs.length = recNat bs 8 4))
      (s.dev.fwuState ≠ 0 ∨ route ≠ 0 → Answers (exec .fwuBegin s) rejected)
      ∧ (s.dev.fwuState = 0 → route = 0 → pending → Answers (exec .fwuBegin s) fun u => ends u 1 ∧ u.nv = s.nv)
      ∧ (s.dev.fwuState = 0 → route = 0 → ¬pending → Answers (exec .fwuBegin s) fun u => u.dev.fwuState = 1 ∧ open_ u
          ∧ u.dev.rd R.FWU_PROGRESS = 0 ∧ u.dev.f R.FWU_STATUS 16 7 = 64
          ∧ ∀ a, slotBase other ≤ a → a < slotBase other + 0x1000 → u.nv.qspi.get erased a = 0xFF)
      ∧ (s.dev.fwuState ≠ 0 ∨ route ≠ 1 → Answers (exec (.fwuStartSd card) s) rejected)
      ∧ (s.dev.fwuState = 0 → route = 1 → ¬pending → Answers (exec (.fwuStartSd card) s) fun u => u.dev.fwuState = 2 ∧ open_ u
          ∧ u.dev.fwu.card = some card)
      ∧ (s.dev.fwuState = 2 → s.dev.fwu.card = some card →
          (whole = false → Answers (exec (.fwuSessionEnd true) s) fun u => ends u 6 ∧ u.nv = s.nv)
          ∧ ∀ bs, whole = true → card.file = some bs → s.dev.fwu.erased = 0 →
            fwuVerify (fwuGather s.nv s.dev slotBlocks).1 (fwuGather s.nv s.dev slotBlocks).2 ≠ 0 → Answers (exec (.fwuSessionEnd true) s) fun u =>
            ends u (fwuVerify (fwuGather s.nv s.dev slotBlocks).1 (fwuGather s.nv s.dev slotBlocks).2)
            ∧ (bs.length ≤ 0x1000000 → ∀ i, 0x2000 ≤ i → i < 0x1000000 →
                u.nv.qspi.get erased (slotBase other + i) = if i < bs.length then bs.getD i 0 else 0xFF))
      ∧ (s.dev.fwuState ≠ 0 → s.dev.fwuState ≠ 5 → Answers (exec .fwuCancel s) fun u => ends u 8 ∧ u.nv = s.nv)
      ∧ (s.dev.fwuState = 0 ∨ s.dev.fwuState = 5 → Answers (exec .fwuCancel s) rejected)
      ∧ (s.dev.fwuState ≠ 0 → Answers (exec (.fwuSessionEnd false) s) fun u => ends u 7 ∧ u.nv = s.nv)
      ∧ (s.dev.fwuState = 3 → fwuVerify s.nv s.dev ≠ 0 → Answers (exec (.fwuSessionEnd true) s) fun u => ends u (fwuVerify s.nv s.dev) ∧ u.nv = s.nv)
      ∧ (s.dev.fwuState = 3 → s.dev.fwu.running < 2 → Answers (exec (.fwuSessionEnd true) s) fun u => fwuVerify s.nv s.dev = 0 →
          u.dev.fwuState = 0 ∧ flag u 31 = true ∧ u.dev.f R.FWU_STATUS 8 8 = 0 ∧ (u.nv.bootRec.slot other).state = sPending
          ∧ (u.nv.bootRec.slot other).boots = 0 ∧ u.nv.bootRec.active = s.nv.bootRec.active))
  ∧ (∀ (s : State) (k : Fin 16) (v : Word), s.dev.clocked = true → s.dev.fwu.running < 2 →
        let flag := fun (u : State) (i : Nat) => bit (u.dev.rd R.FWU_STATUS) i
        let why := fun (u : State) => u.dev.f R.FWU_STATUS 8 8
        let slot := fun (u : State) (k : Nat) => u.nv.bootRec.slot k
        let run := s.dev.fwu.running
        let fits := k.val < 2 ∧ (slot s k).state = sGood ∧ k.val ≠ run ∧ (slot s k).region ≠ 0xFF ∧ s.nv.rollback ≤ (slot s k).svn
        let done := fun (u : State) (reason : Nat) => flag u 31 = true ∧ why u = reason ∧ u.dev.irq.pend.getLsbD 105 = true
        let key : BitVec 256 := BitVec.ofNat 256 (leNat (s.dev.hashAt R.FWU_CUSTKEY))
        let block := settingsIn (s.mem.depotBytes (s.dev.f R.FWU_SET_SRC 0 24)
          (max 32 (min 0x100000 (leNat (s.mem.depotBytes (s.dev.f R.FWU_SET_SRC 0 24 + 8) 4)))))
        (s.dev.fwuState = 0 → fits → Answers (exec (.fwuSelect k) s) fun u => done u 0 ∧ (slot u k).state = sPending ∧ (slot u k).boots = 0)
        ∧ (s.dev.fwuState = 0 → ¬fits → Answers (exec (.fwuSelect k) s) fun u => done u 11 ∧ flag u 30 = true ∧ u.nv = s.nv)
        ∧ (s.dev.fwuState = 0 → s.nv.custHash = 0 → key ≠ 0 → Answers (exec .fwuCustkey s) fun u => done u 0 ∧ u.nv = { s.nv with custHash := key })
        ∧ (s.dev.fwuState = 0 → s.nv.custHash ≠ 0 ∨ key = 0 → Answers (exec .fwuCustkey s) fun u => done u 12 ∧ u.nv = s.nv)
        ∧ (s.dev.fwuState = 0 → s.dev.banksTested (s.dev.f R.FWU_SET_SRC 0 24) (max 32 (min 0x100000 (leNat (s.mem.depotBytes (s.dev.f R.FWU_SET_SRC 0 24 + 8) 4)))) = true →
            Answers (exec .fwuSetWrite s) fun u => u.dev.fwuState = 5 ∧ u.dev.fwu.setWait = true ∧ u.nv = s.nv)
        ∧ (s.dev.fwuState = 0 → block = none → s.dev.mbt = none → Answers (exec .fwuSetWrite s) fun u => done u 13 ∧ flag u 30 = true ∧ u.nv = s.nv)
        ∧ (∀ ver seq bs, s.dev.fwuState = 0 → block = some (ver, seq, bs) → s.mem.depotErr = [] → s.dev.mbt = none →
            s.dev.f R.FWU_SET_SRC 0 24 + min 0x100000 (leNat (s.mem.depotBytes (s.dev.f R.FWU_SET_SRC 0 24 + 8) 4)) ≤ depotSize →
            (slot s run).region < 2 → Answers (exec .fwuSetWrite s) fun u => ver = ((s.nv.settings (slot s run).region).map (·.1)).getD (slot s run).sver →
            u.dev.fwuState = 5 ∧ u.dev.fwu.setting = bs ∧ u.nv = s.nv)
        ∧ (s.dev.fwuState = 5 → s.dev.fwu.setWait = false → Answers (exec (.fwuSessionEnd true) s) fun u => done u 0 ∧ u.dev.fwuState = 0
            ∧ u.nv = s.nv.replaceSettings (slot s run).region s.dev.fwu.setting)
        ∧ (bit (s.dev.rd R.SYS_BOOT_STAGE) 31 = true → v = 0x4845414C#32 → (slot s run).state = sPending → s.dev.fwu.svn ≤ s.nv.rollback →
            Answers (exec (.fwuHealthOk v) s) fun u => (slot u run).state = sGood ∧ u.nv.bootRec.active = run ∧ u.dev.fwu.watched = false)
        ∧ (bit (s.dev.rd R.SYS_BOOT_STAGE) 31 = false ∨ v ≠ 0x4845414C#32 ∨ (slot s run).state ≠ sPending →
            Answers (exec (.fwuHealthOk v) s) fun u => flag u 29 = true ∧ u.nv = s.nv ∧ u.dev.fwu = s.dev.fwu)
        ∧ (s.dev.fwu.watched = true → Answers (exec .healthTimerExpiry s) fun u => (slot u run).state = sRejected ∧ u.nv.bootRec.fallback = 2
            ∧ u.dev.fwu.watched = false
            ∧ u.dev.rst.due = (if s.dev.rst.due = none then some (s.dev.now + 1000, 2, .sb0) else s.dev.rst.due) ∧ u.dev.irq.pend.getLsbD 105 = true))
  ∧ (∀ s : State, s.dev.clocked = true →
        let flag := fun (u : State) (i : Nat) => bit (u.dev.rd R.SEC_STATUS) i
        (flag s 31 = false → Answers (exec .secAttest s) fun u => flag u 31 = true ∧ u.dev.fwu = { s.dev.fwu with report := reportBody s.nv s.dev })
        ∧ (flag s 31 = true → Answers (exec .secAttest s) fun u => flag u 29 = true ∧ flag u 31 = true ∧ u.dev.fwu = s.dev.fwu)
        ∧ (flag s 31 = true → Answers (exec .attestDone s) fun u => flag u 31 = false ∧ flag u 30 = true ∧ u.dev.irq.pend.getLsbD 105 = true
            ∧ ∀ i : Fin 669, u.dev.rd (R.SEC_REPORT + 4 * i)
                = recWord (s.dev.fwu.report ++ recBytes (Config.deviceSign s.nv.keySeed (sha3 s.dev.fwu.report)) 0 2420) (4 * i)))

/-- Requests of the host (R232, R234, R235, R241): a message in sequence is taken, and answered: REG_RD with the word read, REG_WR
once it is written, BLK_RD with the bytes and BLK_WR once they are stored (stated for Depot memory); NACK code 5 where nothing
lies at the address, 10 where a field is wrong.
Input of the host (R140, R146, R147, R254, R256, R297): events join the queue of their world, with a mark for END_STEP; a
value under RATE adds its clamped rate to the state of its place and makes an event when it reaches one; a modulator fills the
world's latch; entries join their channel. Where there is no room the message is refused with RETRY, and an input for a world
that is not live with NO_WORLD.
Rests on model choices: log entries 18, 33, 51. -/
def Obligations.HostRequestsAnswered : Prop :=
  (∀ (s : State) (msg : HostMsg), s.dev.clocked = true → s.dev.linkUp = true → msg.seq.toNat = s.dev.link.rxNext → s.dev.link.waitC = [] →
      s.dev.ra .transport = none → s.dev.words.any WordAcc.classC = false → s.dev.resetting = false → s.dev.mbt = none → s.mem.depotErr = [] →
      let a := msg.addr
      let len := msg.len.toNat
      let count := fld (recWord msg.payload 0) 0 13
      let taken := fun (u : State) => u.dev.link.rxNext = (s.dev.link.rxNext + 1) % 65536
      let acked := fun (u : State) (data : List Byte) => taken u ∧ u.dev.link.waitR = s.dev.link.waitR ++ [⟨mAck, 0, 0, w32 msg.seq.toNat, data, 0⟩]
      let done := fun (u : State) => taken u ∧ u.dev.link.waitR = s.dev.link.waitR ++ (if msg.noack then [] else [⟨mAck, 0, 0, w32 msg.seq.toNat, [], 0⟩])
      let nacked := fun (code : Nat) (u : State) => taken u ∧ u.mem = s.mem
        ∧ u.dev.link.waitR = s.dev.link.waitR ++ [⟨mNack, 0, 0, w32 (code * 2 ^ 26 + msg.seq.toNat), [], 0⟩]
      let stored := fun (u : State) (n : Nat) => u.mem.depotBytes a n = recBytes msg.payload 0 n
        ∧ ∀ b, b < a ∨ a + n ≤ b → u.mem.depot.get zeroByte b = s.mem.depot.get zeroByte b
      let word := a < depotSize ∧ a % 4 = 0 ∧ s.dev.passed 3 = true
      let open_ := fun (wr : Bool) => s.dev.gate s.nv .transport wr a = .open_
      let block := fun (n : Nat) => 4 ≤ n ∧ n ≤ 4096 ∧ n % 4 = 0
      (len = 0 → word → open_ false → Answers (exec (.regRd msg) s) fun u => acked u (wordBytes (s.mem.depotWord a)) ∧ u.mem = s.mem)
      ∧ (len = 4 → word → open_ true → Answers (exec (.regWr msg) s) fun u => done u ∧ stored u 4)
      ∧ (len = 0 → a % 4 = 0 → s.dev.targetOf s.nv a = .unmapped → open_ false → Answers (exec (.regRd msg) s) (nacked 5))
      ∧ (len = 4 → a % 4 = 0 → s.dev.targetOf s.nv a = .unmapped → open_ true → Answers (exec (.regWr msg) s) (nacked 5))
      ∧ (len ≠ 0 ∨ a % 4 ≠ 0 → Answers (exec (.regRd msg) s) (nacked 10))
      ∧ (len ≠ 4 ∨ a % 4 ≠ 0 → Answers (exec (.regWr msg) s) (nacked 10))
      ∧ (block len → s.dev.inDepot a len = true → s.dev.gatedOff a = false → Answers (exec (.blkWr msg) s) fun u => done u ∧ stored u len)
      ∧ (len = 4 → block count → s.dev.inDepot a count = true → s.dev.gatedOff a = false →
          Answers (exec (.blkRd msg) s) fun u => acked u (s.mem.depotBytes a count) ∧ u.mem = s.mem)
      ∧ (¬block len ∨ a % 4 ≠ 0 → Answers (exec (.blkWr msg) s) (nacked 10))
      ∧ (len ≠ 4 ∨ ¬block count ∨ a % 4 ≠ 0 → Answers (exec (.blkRd msg) s) (nacked 10)))
  ∧ (∀ (s : State) (msg : HostMsg) (w : Fin 4096) (x : Word), s.dev.clocked = true → s.dev.linkUp = true → msg.seq.toNat = s.dev.link.rxNext →
        s.dev.bootReady = true → s.dev.resetting = false →
        let len := msg.len.toNat
        let y := s.dev.wld w
        let now := fun (u : State) => u.dev.wld w
        let done := fun (u : State) => u.dev.link.waitR = s.dev.link.waitR ++ (if msg.noack then [] else [⟨mAck, 0, 0, w32 msg.seq.toNat, [], 0⟩])
        let nacked := fun (u : State) (code credit : Nat) =>
          u.dev.link.waitR = s.dev.link.waitR ++ [⟨mNack, 0, 0, w32 (code * 2 ^ 26 + credit * 2 ^ 16 + msg.seq.toNat), [], 0⟩]
        let runs := fld msg.arg 0 12 = w.val ∧ y.live = true ∧ y.faulted = false ∧ y.blocked = false
        let evs := eventsOf (wordsOf (recBytes msg.payload 0 len))
        let items := evs.map (fun e => QItem.event (mkWord e.1 (fld e.2 0 16) (fld e.2 16 5) (bit e.2 21) false false) msg.vc)
        let mark := if msg.endStep then [QItem.mark] else []
        let evOk := len % 8 = 0 ∧ len ≤ 4096 ∧ (len ≠ 0 ∨ msg.endStep = true) ∧ evs.all (fun e => fld e.1 20 12 == w.val) = true
        let room := s.dev.queueFree w
        let e := fld msg.arg 12 8
        let q := s.dev.encCfg e
        let gx := fmul (f32 x) (f32 (s.dev.rd (encReg R.XCH_ENC_GAIN e)))
        let v := fadd gx (f32 (s.dev.rd (encReg R.XCH_ENC_BIAS e)))
        let acc := fadd (s.dev.encState e 0) (fvMin (fvMax v .zero) (fvMin (f32 q.pa) .one))
        let fires := FVal.one.le acc && s.dev.encMay q (if msg.endStep then 1 else 0)
        let key := w32 (w * 2 ^ 20 + fld q.map 24 8 * 2 ^ 12 + fld q.map 12 12)
        let valOk := len = 4 ∧ wordsOf (recBytes msg.payload 0 4) = [x] ∧ q.code = 0 ∧ q.world = w.val ∧ s.dev.encRefuses q w 1 = false
          ∧ (f32 x).isNan = false ∧ v.isNan = false
        let ch := fld msg.arg 0 5
        let old := s.dev.chEntries ch
        let entries := evs.map (fun e => word64 e.2 e.1)
        let msgOk := len % 8 = 0 ∧ 8 ≤ len ∧ len ≤ 128 ∧ s.dev.link.blocked.get (fun _ => false) ch = false
        (runs → evOk → evs.length + mark.length ≤ room → Answers (exec (.evtIn msg) s) fun u => done u ∧ (now u).queue = y.queue ++ items ++ mark)
        ∧ (runs → evOk → room < evs.length + mark.length → Answers (exec (.evtIn msg) s) fun u => nacked u 1 room ∧ (now u).queue = y.queue
            ∧ (now u).blocked = true)
        ∧ (fld msg.arg 0 12 = w.val → evOk → y.live = false → Answers (exec (.evtIn msg) s) fun u => nacked u 3 0 ∧ u.dev.wregs = s.dev.wregs)
        ∧ (runs → valOk → y.reserve ≤ room → 0 < room → Answers (exec (.valIn msg) s) fun u => done u
            ∧ (now u).queue = y.queue ++ (if fires then [QItem.event (mkWord key 0 q.delay true false false) (if bit q.cfg 27 then 2 else 1)] else []) ++ mark
            ∧ u.dev.encState e 0 = f32 (f32Bits (if FVal.one.le acc then fsub acc .one else acc)))
        ∧ (runs → valOk → room < y.reserve → Answers (exec (.valIn msg) s) fun u => nacked u 1 room ∧ (now u).queue = y.queue ∧ u.dev.encSt = s.dev.encSt)
        ∧ (runs → len = 0 → s.dev.member w = false → y.latch = none → (y.held = true → 0 < room) → Answers (exec (.modIn msg) s) fun u => done u
            ∧ (now u).latch = some (BitVec.ofNat 16 (fld msg.arg 16 16), bit msg.arg 12))
        ∧ (runs → len = 0 → s.dev.member w = false → y.latch.isSome = true → Answers (exec (.modIn msg) s) fun u => nacked u 1 0
            ∧ (now u).latch = y.latch ∧ (now u).blocked = true)
        ∧ (msgOk → evs.length ≤ s.dev.chFree ch → (∀ n : Fin 8, (s.dev.core n).blocked = none) → Answers (exec (.msgToDevice msg) s) fun u => done u
            ∧ u.dev.chEntries ch = old ++ entries ∧ u.dev.chn.peak.get zeroNat ch = max (s.dev.chn.peak.get zeroNat ch) (old.length + evs.length))
        ∧ (msgOk → s.dev.chFree ch < evs.length → Answers (exec (.msgToDevice msg) s) fun u => nacked u 1 (s.dev.chFree ch) ∧ u.dev.chn = s.dev.chn
            ∧ u.dev.link.blocked.get (fun _ => false) ch = true))

/-- Output rings (R244 to R248): a ring that is enabled starts empty, with its size and index address; space is returned by
RING_FREE; the record at the head of a ring is written where the procedure place puts it, and the index after it; one that
does not fit waits, and one longer than the ring takes is dropped.
The transport (R237 to R240): a message goes out under credit and is held until it is acknowledged; a timeout replays what is
held, and after four replays retrains, on source 0 of the LINK island (R333); a retrain that failed is tried again, and a
third failure in a row takes the link DOWN; LINK carries limits and acknowledgement; a message that fails is discarded, the
first of a run with REPLAY_REQ, which is repeated; a type that no device takes is refused.
Rests on model choices: log entries 10, 33, 51. -/
def Obligations.HostLinkDelivers : Prop :=
  (∀ (s : State) (msg : HostMsg) (r : Fin 256), s.dev.clocked = true →
      let inSeq := s.dev.linkUp = true ∧ msg.seq.toNat = s.dev.link.rxNext ∧ s.dev.link.waitC = [] ∧ s.dev.ra .transport = none
        ∧ s.dev.words.any WordAcc.classC = false ∧ s.dev.bootReady = true ∧ fld msg.arg 0 8 = r.val
      let p := recBytes msg.payload 0 32
      let base := recNat p 0 8 % 2 ^ 40
      let widx := recNat p 16 8 % 2 ^ 40
      let size := recNat p 8 4
      let on := bit (recWord p 12) 31
      let form := msg.len.toNat = 32 ∧ size % 4096 = 0 ∧ 4096 ≤ size ∧ size ≤ 2 ^ 27 ∧ base % 64 = 0 ∧ widx % 8 = 0 ∧ base + size ≤ 2 ^ 40 ∧ widx + 8 ≤ 2 ^ 40
      let st := fun (u : State) (i : Nat) => bit (u.dev.rd (ringState r)) i
      let memWr := fun (a : Nat) (bs : List Byte) => (⟨mMemWr, 0, a / 2 ^ 32 % 256, w32 a, bs, 0⟩ : DevMsg)
      let ack := fun (after : Nat) => (⟨mAck, 0, 0, w32 msg.seq.toNat, [], after⟩ : DevMsg)
      let idx := 8 * fld msg.arg 8 24
      let rsize := s.dev.ringSize r
      let g := s.dev.ring r
      let w := s.dev.ringW r
      (inSeq → form → on = true → s.dev.ringOn r = false → Answers (exec (.ringSet msg) s) fun u => st u 31 = true ∧ u.dev.ringW r = 0
          ∧ u.dev.ringR r = 0 ∧ u.dev.ringSize r = size ∧ (u.dev.ring r).base = base ∧ (u.dev.ring r).waiting = []
          ∧ u.dev.link.waitP = s.dev.link.waitP ++ [memWr widx (leBytes 4 0 ++ leBytes 4 0)]
          ∧ u.dev.link.waitR = s.dev.link.waitR ++ [ack (s.dev.link.waitP.length + 1)])
      ∧ (inSeq → form → on = false → s.dev.ringOn r = true → Answers (exec (.ringSet msg) s) fun u => st u 31 = false
          ∧ (u.dev.ring r).waiting = [] ∧ u.dev.link.waitR = s.dev.link.waitR ++ [ack (s.dev.link.waitP.length + 1)])
      ∧ (inSeq → form → on = true → s.dev.ringOn r = true → Answers (exec (.ringSet msg) s) fun u => u.dev.rings = s.dev.rings
          ∧ u.dev.link.waitR = s.dev.link.waitR ++ [⟨mNack, 0, 0, w32 (10 * 2 ^ 26 + msg.seq.toNat), [], 0⟩])
      ∧ (inSeq → msg.len.toNat = 0 → s.dev.ringOn r = true → idx < rsize →
          (idx + rsize - s.dev.ringR r) % rsize ≤ (w + rsize - s.dev.ringR r) % rsize → idx < 2 ^ 27 → Answers (exec (.ringFree msg) s) fun u =>
          u.dev.ringR r = idx ∧ u.dev.link.waitR = s.dev.link.waitR ++ (if msg.noack then [] else [ack 0]))
      ∧ (∀ x rest to_, g.waiting = x :: rest → placeAt rsize w (s.dev.ringR r) x.bytes = .put to_ → to_ < 2 ^ 27 →
          Answers (exec (.recordPlace r) s) fun u => (u.dev.ring r).waiting = rest ∧ u.dev.ringW r = to_ ∧ (u.dev.ring r).recs = (g.recs + 1) % 2 ^ 32
            ∧ (u.dev.ring r).drop = false ∧ u.dev.link.waitP = s.dev.link.waitP
              ++ [memWr (g.base + w) (x.image g.drop), memWr g.widx (leBytes 4 to_ ++ leBytes 4 ((g.recs + 1) % 2 ^ 32))])
      ∧ (∀ x rest, g.waiting = x :: rest → placeAt rsize w (s.dev.ringR r) x.bytes = .wait → Answers (exec (.recordPlace r) s) fun u =>
          u.dev.rings = s.dev.rings ∧ st u 30 = true ∧ u.dev.link = s.dev.link)
      ∧ (∀ x rest, g.waiting = x :: rest → placeAt rsize w (s.dev.ringR r) x.bytes = .tooLong → Answers (exec (.recordPlace r) s) fun u =>
          (u.dev.ring r).waiting = rest ∧ (u.dev.ring r).drop = true ∧ st u 29 = true ∧ st u 30 = false ∧ u.dev.link = s.dev.link
            ∧ u.dev.rd (R.XCH_RING_DROP + 16 * r) = w32 (satAdd 32 (s.dev.rd (R.XCH_RING_DROP + 16 * r)).toNat 1)))
  ∧ (∀ (s : State) (m : Master) (tr : TrainOutcome) (msg : HostMsg) (ackseq : Half) (limR limP : Word), s.dev.clocked = true →
        let k := s.dev.link
        let now := fun (u : State) => u.dev.link
        let up := s.dev.linkUp = true
        let down := bit (s.dev.rd R.XCH_LINK_STATUS) 30 = true
        let again := s.dev.retraining = true
        let counts := fun (u : State) (r : Nat) => u.dev.rd r = w32 (satAdd 32 (s.dev.rd r).toNat 1)
        let fits := fun (c : Nat) (x : DevMsg) => k.creditFor c x.payload.length = true ∧ k.held.length < 32767
          ∧ k.heldBytes + 16 + (x.payload.length + 15) / 16 * 16 ≤ 262144
        let sends := fun (u : State) (x : DevMsg) => (now u).held = k.held ++ [(k.txNext, x)] ∧ (now u).txNext = (k.txNext + 1) % 65536
          ∧ (now u).wire = [x.bytes k.txNext k.rxNext] ∧ (now u).ackTold = k.rxNext
        let asks := fun (u : State) (rr : Bool) => (now u).lastLink = some ⟨k.rxNext, rr, k.limMsgs, k.limData⟩ ∧ (now u).wire.length = 1
        let retrains := fun (u : State) (st : Word) => u.dev.rd R.XCH_LINK_STATUS = st ∧ counts u R.XCH_LINK_RETRAINS ∧ (now u).replays = 0
          ∧ (now u).failed = 0 ∧ (now u).held = k.held ∧ u.dev.irq.pend.getLsbD 70 = true
          ∧ (bit (s.dev.rd R.CLK_SEL) 31 = false → bit (u.dev.rd R.CLK_SEL) 0 = false)
        (∀ x rest, up → k.waitR = x :: rest → x.after = 0 → fits 0 x → Answers (exec (.messageSend .r) s) fun u => sends u x ∧ (now u).waitR = rest
            ∧ (x.typ = mNack → counts u R.XCH_TP_NACKS))
        ∧ (∀ x rest, up → k.waitP = x :: rest → fits 1 x → Answers (exec (.messageSend .p) s) fun u => sends u x ∧ (now u).waitP = rest
            ∧ (now u).waitR.map (·.after) = k.waitR.map (fun y => y.after - 1))
        ∧ (up → ¬down → k.held ≠ [] → k.replays < 4 → Answers (exec (.replayTimeout tr) s) fun u => (now u).replays = k.replays + 1
            ∧ (now u).wire = k.held.map (fun q => q.2.bytes q.1 k.rxNext) ∧ counts u R.XCH_TP_REPLAYS)
        ∧ (∀ st, ¬down → k.held ≠ [] → 4 ≤ k.replays → s.dev.trainStatus tr = some st → Answers (exec (.replayTimeout tr) s) fun u => retrains u st)
        ∧ (s.opens m true R.XCH_LINK_CTRL →
            (∀ st, up ∨ again ∨ m = .sideband ∧ down → s.dev.trainStatus tr = some st → Answers (exec (.linkRetrain m tr) s) fun u => retrains u st)
            ∧ (up ∨ again → s.dev.trainStatus tr = none → k.failed < 2 → Answers (exec (.linkRetrain m tr) s) fun u => (now u).failed = k.failed + 1
              ∧ u.dev.linkUp = false ∧ (now u).held = k.held)
            ∧ (up ∨ again → s.dev.trainStatus tr = none → 2 ≤ k.failed → Answers (exec (.linkRetrain m tr) s) fun u => u.dev.rd R.XCH_LINK_STATUS = 0x40000000#32
              ∧ u.dev.irq.pend.getLsbD 70 = true))
        ∧ (up → Answers (exec .creditReport s) fun u => asks u false ∧ (now u).repMsgs = k.limMsgs ∧ (now u).repData = k.limData)
        ∧ (up → k.ackTold ≠ k.rxNext → Answers (exec .ackLinkSend s) fun u => asks u false ∧ (now u).ackTold = k.rxNext)
        ∧ (up → k.ackTold = k.rxNext → Answers (exec .ackLinkSend s) fun u => u.dev.link = s.dev.link)
        ∧ (up → Answers (exec (.link true ackseq false limR limP) s) fun u => (now u).hostMsgs = [fld limR 0 16, fld limP 0 16]
            ∧ (now u).hostData = [fld limR 16 16, fld limP 16 16] ∧ (now u).held = k.held.filter (fun q =>
              !decide (1 ≤ (ackseq.toNat + 65536 - q.1 % 65536) % 65536 ∧ (ackseq.toNat + 65536 - q.1 % 65536) % 65536 ≤ 32767)))
        ∧ (up → k.discarding = false → Answers (exec (.messageDiscarded msg false) s) fun u => counts u R.XCH_TP_RX_BAD ∧ (now u).discarding = true
            ∧ asks u true ∧ (now u).rxNext = k.rxNext)
        ∧ (up → k.discarding = true → Answers (exec (.messageDiscarded msg false) s) fun u => counts u R.XCH_TP_RX_BAD ∧ u.dev.link = s.dev.link)
        ∧ (up → k.discarding = true → Answers (exec .replayReqRepeat s) fun u => asks u true ∧ u.dev.regs = s.dev.regs)
        ∧ (up → 11 ≤ msg.typ.toNat → msg.seq.toNat = k.rxNext → Answers (exec (.disallowedMessageType msg) s) fun u => counts u R.XCH_TP_DISCARD
            ∧ (now u).rxNext = (k.rxNext + 1) % 65536 ∧ (now u).waitR = k.waitR ++ [⟨mNack, 0, 0, w32 (10 * 2 ^ 26 + msg.seq.toNat), [], 0⟩]))

/-- Sequence and replay of a trunk link (R402, R405): a DATA link unit with the expected SEQ is accepted; one whose CRC fails
counts in TRK_RX_BAD, and the first of a run is answered with NAK, which is repeated while the receiver discards; one received
before only counts; RTO replays every held link unit in order, and after 8 replays retrains; a retrain restarts the link, and
the third failure in a row takes it DOWN; WAKE sends its token, or drives the lanes of a link that is not up for 20 µs.
Traffic between devices (R406, R408): the response at the head of its lane, else the request, goes to its endpoint here, or is
toward its device, its bytes whole, or is dropped and counted where no route leads on or the link is DOWN; a packet that ends
here has this link's endpoint as SRC, and as DST its RDST or, a response, 0xF10 + OSRC; a remote write of Depot memory stores
its bytes and a remote read returns them, each answered with RSP and STATUS 0; an access through TRK_RA_DATA sends its message
and waits, ends with the data of its RSP, and with Completer Abort where no route leads there or no RSP comes.
Rests on model choices: log entries 22, 34, 53. -/
def Obligations.TrunkLinksDeliver : Prop :=
  (∀ (s : State) (k : Fin 8) (u : LinkUnit), s.runs 2 k →
      let x := s.dev.trunk k
      let up := s.dev.trunkUp s.nv k = true
      let now := fun (t : State) => t.dev.trunk k
      let status := fun (t : State) (i : Nat) => bit (t.dev.rd (trk R.TRK_STATUS k)) i
      let counts := fun (t : State) (r : Nat) => t.dev.rd (trk r k) = w32 (satAdd 32 (s.dev.rd (trk r k)).toNat 1)
      let hdr := (luHdr u.bytes).toNat
      let whole := u.blocksOk = true ∧ luOk u.bytes = true
      let seq := (hdr >>> 15) % 4096
      let nak := fun (t : State) => ∃ q, (now t).wire = [q] ∧ q.length = 64 ∧ luOk q = true ∧ (luHdr q).toNat % 16 = 0 ∧ (luHdr q).getLsbD 39 = true
      (up → whole → hdr % 16 = 1 → seq = x.rxNext → Answers (exec (.luRx k u) s) fun t =>
          (now t).rxNext = (x.rxNext + 1) % 4096 ∧ (now t).discarding = false)
      ∧ (up → ¬ whole → Answers (exec (.luRx k u) s) fun t => counts t R.TRK_RX_BAD ∧ (now t).rxNext = x.rxNext
          ∧ (now t).discarding = true ∧ (x.discarding = false → nak t) ∧ (x.discarding = true → (now t).wire = []))
      ∧ (up → whole → hdr % 16 = 1 → x.rxNext < 4096 → 1 ≤ (x.rxNext + 4096 - seq) % 4096 → (x.rxNext + 4096 - seq) % 4096 ≤ 2048 →
          Answers (exec (.luRx k u) s) fun t => counts t R.TRK_RX_BAD ∧ (now t).rxNext = x.rxNext ∧ (now t).discarding = x.discarding)
      ∧ (up → x.discarding = true → Answers (exec (.nakRepeat k) s) fun t => nak t ∧ t.dev.regs = s.dev.regs)
      ∧ (∀ ok, up → x.held ≠ [] → x.replays < 8 → Answers (exec (.trunkRtoExpiry k ok) s) fun t => (now t).replays = x.replays + 1
          ∧ (now t).wire.map luPayload = x.held.map (fun u => recBytes u.payload 0 52) ∧ (now t).held = x.held ∧ counts t R.TRK_REPLAYS)
      ∧ (up → x.held ≠ [] → 8 ≤ x.replays → Answers (exec (.trunkRtoExpiry k true) s) fun t => (now t).replays = 0 ∧ status t 31 = true
          ∧ counts t R.TRK_RETRAINS ∧ t.dev.irq.pend.getLsbD (92 + k) = true)
      ∧ (s.nv.trunkOn k = true →
          (Answers (exec (.trkRetrain k true) s) fun t => status t 31 = true ∧ status t 30 = false ∧ status t 1 = true
            ∧ (now t).replays = 0 ∧ (now t).failed = 0 ∧ counts t R.TRK_RETRAINS)
          ∧ (status s 30 = false → x.failed < 2 → Answers (exec (.trkRetrain k false) s) fun t => status t 31 = false ∧ status t 30 = false
            ∧ (now t).failed = x.failed + 1 ∧ (now t).held = x.held ∧ counts t R.TRK_RETRAINS)
          ∧ (status s 30 = false → 2 ≤ x.failed → Answers (exec (.trkRetrain k false) s) fun t => status t 31 = false ∧ status t 30 = true
            ∧ (now t).held = [] ∧ (now t).rxNext = 0 ∧ t.dev.irq.pend.getLsbD (92 + k) = true))
      ∧ (up → x.wait = [] → x.credit.get laneSize 4 ≠ 0 → x.held.length < 1024 → Answers (exec (.trkWake k) s) fun t =>
          (now t).held.map (·.payload) = x.held.map (·.payload) ++ [(s.dev.mkToken 14 0 0 0).bytes])
      ∧ (s.dev.trunkUp s.nv k = false → Answers (exec (.trkWake k) s) fun t => now t = { x with driven := s.dev.now + 2000 }
          ∧ ∀ j : Nat, j ≠ k.val → t.dev.trunk j = s.dev.trunk j))
  ∧ (∀ (s : State) (k j : Fin 8) (c : Nat) (bs : List Byte) (rest : List (Nat × List Byte)) (m : Master) (wr : Option Word), s.runs 2 k →
        let x := s.dev.trunk k
        let idle := s.dev.trunkUp s.nv j = true ∧ s.dev.trunkHeld s.nv j = true ∧ (s.dev.trunk j).wait = [] ∧ (s.dev.trunk j).credit.get laneSize 3 ≠ 0 ∧ (s.dev.trunk j).held.length < 1024
        let sent := fun (u : State) (p : List Byte) => (u.dev.trunk j).held.map (·.payload) = (s.dev.trunk j).held.map (·.payload) ++ [p]
        let p := Packet.ofBytes bs
        let counts := fun (u : State) => u.dev.rd (trk R.TRK_NOROUTE k) = w32 (satAdd 32 (s.dev.rd (trk R.TRK_NOROUTE k)).toNat 1)
        let lost := fun (u : State) => counts u ∧ u.dev.packets = s.dev.packets
        let lane := if isResponse p.typ then 2 else 1
        let out := fun (y : Trunk) => (y.held ++ y.wait.get noLus lane).flatMap (·.payload)
        let goal := p.remote.map (·.2.2)
        let onward := p.remote.isSome = true ∧ goal ≠ some s.dev.device
        let route := s.dev.route (goal.getD 0)
        let sees := fun (y : Packet) => (y.src, y.dst, y.typ, y.txn, y.addr, y.data, y.remote)
        let dst := if isResponse p.typ then 0xF10 + (p.remote.getD (0, 0, 0)).1 else p.rdst
        let crosses := fun (u : State) => (p.remote = none → lost u)
          ∧ (goal = some s.dev.device → u.dev.packets.dropLast = s.dev.packets
            ∧ u.dev.packets.getLast?.map sees = some (0xF18 + k.val, dst, p.typ, p.txn, p.addr, p.data, p.remote))
          ∧ (onward → route = none → lost u)
          ∧ (onward → route = some j.val → s.dev.trunkHeld s.nv j = false → lost u)
          ∧ (onward → route = some j.val → s.dev.trunkHeld s.nv j = true → s.dev.orphan = false → (s.dev.trunk j).wait = [] →
            out (u.dev.trunk j) = out (s.dev.trunk j) ++ bs)
        let q := SMsg.ofBytes bs
        let mine := x.inS = (c, bs) :: rest ∧ q.ddev = s.dev.device ∧ sCrcOk bs = true
        let depot := s.dev.inDepot q.addr 4 = true ∧ q.len = 4 ∧ s.mem.depotErr = [] ∧ s.dev.mbt = none ∧ s.dev.gatedOff q.addr = false
          ∧ s.dev.route q.sdev = some j.val ∧ idle
        let rsp := fun (data : List Byte) => SMsg.bytes ⟨sRsp, s.dev.device, q.sdev, q.tag, data.length, 0, 0, data⟩
        let ask : SMsg := ⟨if wr.isSome then sWr else sRd, s.dev.device, fld (s.dev.mrd m R.TRK_RA_DEV) 0 6, s.dev.sys.tag, 4, 0,
          fld (s.dev.mrd m R.TRK_RA_ADDR_HI) 0 8 * 2 ^ 32 + (s.dev.mrd m R.TRK_RA_ADDR_LO).toNat, (wr.map wordBytes).getD []⟩
        let core := ∃ n, m = .sb n
        let gone := fun (u : State) => u.dev.ra m = none ∧ (¬core → u.dev.completion m = ⟨.abort, []⟩) ∧ (core → u.dev.completion m = ⟨.fault, []⟩)
        (x.inR = (c, bs) :: rest → Answers (exec (.remotePacketRx k) s) fun u => (u.dev.trunk k).inR = rest ∧ (u.dev.trunk k).inF = x.inF ∧ crosses u)
        ∧ (x.inR = [] → x.inF = (c, bs) :: rest → Answers (exec (.remotePacketRx k) s) fun u => (u.dev.trunk k).inF = rest ∧ crosses u)
        ∧ (mine → q.kind = sWr → depot → Answers (exec (.sMsgWr k) s) fun u => (u.dev.trunk k).inS = rest
            ∧ u.mem.depotBytes q.addr 4 = recBytes q.payload 0 4 ∧ sent u (rsp [])
            ∧ ∀ a, a < q.addr ∨ q.addr + 4 ≤ a → u.mem.depot.get zeroByte a = s.mem.depot.get zeroByte a)
        ∧ (mine → q.kind = sRd → depot → Answers (exec (.sMsgRd k) s) fun u => (u.dev.trunk k).inS = rest
            ∧ sent u (rsp (s.mem.depotBytes q.addr 4)) ∧ u.mem = s.mem)
        ∧ (∀ r, mine → q.kind = sRsp → s.dev.ra m = some r → r.tag = q.tag → r.reply = none → q.status = 0 → s.dev.link.waitC = [] →
            s.dev.sys.distOut = [] → (∀ m' ∈ masters, (s.dev.ra m').any (fun r => r.tag == q.tag) = true → m' = m) →
            Answers (exec (.sMsgRsp k) s) fun u => (u.dev.trunk k).inS = rest ∧ u.dev.ra m = none
              ∧ u.dev.completion m = ⟨.ok, if r.wr then [] else [recWord q.payload 0]⟩)
        ∧ (x.inS = (c, bs) :: rest → q.kind = sRecord → s.dev.isManager = true → s.dev.sys.forming = true → sCrcOk bs = true → q.sdev < 64 →
            Answers (exec (.sMsgRecord k) s) fun u => (u.dev.trunk k).inS = rest ∧ u.dev.sys.recs = s.dev.sys.recs ++ [q.payload]
              ∧ u.dev.route q.sdev = some k.val ∧ u.dev.tree k = true)
        ∧ (s.opens m wr.isSome R.TRK_RA_DATA → s.dev.ra m = none →
            (s.dev.route ask.ddev = some j.val → idle → Answers (exec (.trkRaDataAccess m wr) s) fun u => u.dev.ra m = some ⟨s.dev.sys.tag, wr.isSome, none⟩
              ∧ sent u ask.bytes)
            ∧ (s.dev.route ask.ddev = none → Answers (exec (.trkRaDataAccess m wr) s) gone)
            ∧ (∀ i, s.dev.route ask.ddev = some i → s.dev.trunkHeld s.nv i = false → Answers (exec (.trkRaDataAccess m wr) s) gone))
        ∧ (∀ r, s.dev.ra m = some r → s.dev.link.waitC = [] → Answers (exec (.raTimeout m) s) gone))

/-- Tokens (R409 to R418, R421): the token at the head of lane T is taken, and does at its device what its kind says; one for
another device goes on toward it.
The system forms, and the engine distributes (R411, R412, R420): a forming wave that times out ends FORMED, or failed, as the
records agree or not; REFORM starts one at the manager; a command to the engine ends with REASON 1 before FORMED, at once
where no worker is selected, GO then carried out here, and otherwise waits for its workers; CANCEL ends it with 4; the last
acknowledgement ends it, and a worker that has failed after round 3 ends it with 2.
Rests on model choices: log entry 35. -/
def Obligations.SystemsRunTogether : Prop :=
  (∀ (s : State) (k j : Fin 8) (t : Token) (last : Bool) (rest : List (Token × Bool)) (w : Fin 4096), s.runs 2 k →
      (s.dev.trunk k).inT = (t, last) :: rest → t.world = w.val →
      let x := s.dev.wld w
      let now := fun (u : State) => u.dev.wld w
      let pop := fun (u : State) => (u.dev.trunk k).inT = rest
      let mine := t.ddev = s.dev.device
      let member := s.dev.member w = true
      let manages := s.dev.manages w = true
      let idle := s.dev.trunkUp s.nv j = true ∧ s.dev.trunkHeld s.nv j = true ∧ (s.dev.trunk j).wait = [] ∧ (s.dev.trunk j).credit.get laneSize 4 ≠ 0 ∧ (s.dev.trunk j).held.length < 1024
      let sent := fun (u : State) (p : List Byte) => (u.dev.trunk j).held.map (·.payload) = (s.dev.trunk j).held.map (·.payload) ++ [p]
      let sys := fun (u : State) => u.dev.f R.TRK_SYS 30 2
      let peer := fun (u : State) (r : Nat) => u.dev.rd (trk r k)
      let upward := s.dev.isManager = false ∧ s.dev.f R.TRK_SYS 25 3 = k.val ∧ s.dev.sys.seen = true
      (t.kind = 1 → Answers (exec (.tokenIdent k) s) fun u => pop u ∧ peer u R.TRK_PEER_LO = t.a ∧ peer u R.TRK_PEER_HI = t.b
          ∧ fld (peer u R.TRK_PEER_ID) 0 6 = fld t.c 0 6 ∧ fld (peer u R.TRK_PEER_ID) 8 7 = fld t.c 16 7 ∧ fld (peer u R.TRK_PEER_LINK) 0 3 = fld t.c 12 3
          ∧ bit (peer u R.TRK_STATUS) 29 = true)
      ∧ (t.kind = 2 → s.dev.isManager = false → s.dev.sys.topo ≠ [] → s.dev.sys.seen = false → s.dev.sysSize ≤ 64 →
          Answers (exec (.tokenTopo k) s) fun u => pop u ∧ u.dev.tree k = true ∧ u.dev.f R.TRK_SYS 25 3 = k.val ∧ sys u = 1
            ∧ u.dev.f R.TRK_SYS 8 6 = (fld t.c 0 6 + 1) % 64 ∧ ∀ v < s.dev.sysSize, v ≠ s.dev.device → u.dev.route v = some k.val)
      ∧ (t.kind = 3 → upward → Answers (exec (.tokenSysok k) s) fun u => pop u ∧ sys u = 2 ∧ u.dev.sys.seen = false)
      ∧ (t.kind = 4 → upward → Answers (exec (.tokenSysfail k) s) fun u => pop u ∧ sys u = 3 ∧ u.dev.sys.seen = false)
      ∧ (t.kind = 5 → mine → s.dev.isManager = true → Answers (exec (.tokenLinkdown k) s) fun u => pop u ∧ sys u = 1 ∧ u.dev.sys.forming = true)
      ∧ (t.kind = 6 → mine → member → x.live = true → t.step = (if x.started then (x.step + 1) % 65536 else 0) →
          (x.held = true → Answers (exec (.tokenRelease k) s) fun u => pop u ∧ (now u).pendRelease = some t.step ∧ (now u).faulted = false
            ∧ (now u).step = x.step)
          ∧ (x.held = false → s.dev.pwrState = 0 → x.bankEmpty = true → (x.started = true → x.done = true) →
            Answers (exec (.tokenRelease k) s) fun u => pop u ∧ (now u).step = t.step ∧ (now u).started = true ∧ (now u).done = false
              ∧ (now u).inputOpen = true ∧ (now u).pendRelease = none))
      ∧ (t.kind = 7 → mine → member → x.live = true → x.passed t.step = false → s.dev.formed = true → s.dev.route t.sdev = some j.val → idle →
          let r := s.dev.reading w (t.flags % 2)
          let fl := s.dev.reportFlags w (t.flags % 2) r % 8
          Answers (exec (.tokenProbe k) s) fun u => pop u ∧ sent u (Token.bytes ⟨8, s.dev.device, t.sdev, w, if x.at_ t.step then fl else fl / 4 * 4,
            t.step, t.round, w32 r.limit.created, w32 r.limit.consumed, w32 r.limit.lost, 0⟩))
      ∧ (t.kind = 8 → mine → manages → x.live = true → x.reports ≠ [] → t.round = x.round → (∀ q ∈ x.reports, q.1 ≠ t.sdev) →
          (∃ m ∈ s.dev.otherMembers w, m ≠ t.sdev ∧ ∀ q ∈ x.reports, q.1 ≠ m) → Answers (exec (.tokenReport k) s) fun u => pop u
            ∧ (now u).reports = x.reports ++ [(t.sdev, t.a.toNat, t.b.toNat, t.c.toNat, t.flags)])
      ∧ (t.kind = 9 → mine → member → x.at_ t.step = true → x.quiescent = false → x.skip = false → x.done = false →
          Answers (exec (.tokenQuiet k) s) fun u => pop u ∧ (now u).inputOpen = false ∧ (now u).quiescent = true)
      ∧ (t.kind = 10 → mine → manages → x.at_ t.step = true → t.sdev ∉ x.dones → Answers (exec (.tokenDone k) s) fun u => pop u
          ∧ (now u).dones = x.dones ++ [t.sdev])
      ∧ (t.kind = 11 → mine → member → x.at_ t.step = true → x.done = false → x.skip = false → Answers (exec (.tokenAbandon k) s) fun u => pop u
          ∧ (now u).skip = true ∧ (now u).inputOpen = false)
      ∧ (t.kind = 12 → mine → member → x.live = true → x.passed t.step = false → x.faulted = false → Answers (exec (.tokenFault k) s) fun u => pop u
          ∧ (now u).faulted = true ∧ (now u).cause = t.a.toNat ∧ u.dev.irq.pend.getLsbD 66 = true)
      ∧ (t.kind = 13 → mine → member → x.live = true → x.started = true →
          let c := modCopy w t.step (BitVec.ofNat 16 (fld t.a 0 16)) (bit t.a 16)
          (∀ d, x.passed t.step = false → s.dev.injectCopy s.nv c = some d → Answers (exec (.tokenMod k) s) fun u => pop u ∧ u.dev.edgeBuf = d.edgeBuf)
          ∧ (x.passed t.step = true → Answers (exec (.tokenMod k) s) fun u => pop u ∧ u.dev.edgeBuf = s.dev.edgeBuf ∧ u.dev.worlds = s.dev.worlds)
          ∧ (x.passed t.step = false → s.dev.injectCopy s.nv c = none → Answers (exec (.tokenMod k) s) fun u => u.dev.trunks = s.dev.trunks))
      ∧ (t.kind = 14 → s.dev.pwrState ≠ 0 → bit (s.dev.rd R.PWR_STATE) 29 = false → bit (s.dev.rd R.PWR_WAKE_EN) 4 = true →
          s.dev.linkListens k = true → Answers (exec (.tokenWake k) s) fun u => u.dev.pwrState = 0 ∧ bit (u.dev.rd R.PWR_STATE) 4 = true ∧ pop u)
      ∧ (t.kind = 10 → ¬mine → s.dev.orphan = false → s.dev.formed = true → s.dev.route t.ddev = some j.val → idle →
          Answers (exec (.tokenDone k) s) fun u => pop u ∧ sent u t.bytes ∧ u.dev.worlds = s.dev.worlds))
  ∧ (∀ (s : State) (v : Fin 64) (cmd : Instr) (n : Nat), s.dev.clocked = true →
        let sys := fun (u : State) => u.dev.f R.TRK_SYS 30 2
        let flag := fun (u : State) (i : Nat) => bit (u.dev.rd R.TRK_DIST_STATUS) i
        let ends := fun (u : State) (reason : Nat) => u.dev.distState = 0 ∧ u.dev.f R.TRK_DIST_STATUS 8 8 = reason ∧ flag u 31 = true
          ∧ (reason ≠ 0 → flag u 30 = true) ∧ u.dev.sys.distLeft = [] ∧ u.dev.irq.pend.getLsbD 92 = true
        let acked := fun (u : State) => bit (u.dev.rd (R.TRK_DIST_ACK_LO + 4 * (v / 32))) (v % 32)
        let begins := s.dev.isManager = true ∧ s.dev.distState = 0 ∧ (cmd = .distPlan ∧ n = 1 ∨ cmd = .distFirmware ∧ n = 2 ∨ cmd = .distGo ∧ n = 3)
        (s.dev.sys.forming = true → Answers (exec .formTimeout s) fun u => sys u = (if systemOk s.nv s.dev then 2 else 3)
            ∧ u.dev.sys.forming = false ∧ (sys u ≠ sys s → u.dev.irq.pend.getLsbD 92 = true))
        ∧ (s.dev.isManager = true → Answers (exec .trkReform s) fun u => sys u = 1 ∧ u.dev.sys.forming = true ∧ u.dev.sys.recs = [s.dev.ownRecord])
        ∧ (begins → s.dev.formed = false → Answers (exec cmd s) fun u => ends u 1 ∧ u.mem = s.mem)
        ∧ (begins → s.dev.formed = true → s.dev.distWorkers = [] → Answers (exec cmd s) fun u => ends u 0
            ∧ (n = 3 → s.dev.tplState = 3 → u.dev.tplState = 4))
        ∧ (begins → s.dev.formed = true → s.dev.distWorkers ≠ [] → Answers (exec cmd s) fun u => u.dev.distState = n
            ∧ u.dev.sys.distLeft = s.dev.distWorkers ∧ flag u 31 = false ∧ u.dev.distFailing = s.dev.distWorkers
            ∧ (n = 3 → u.dev.sys.distOut.map (fun q => (q.2.1, q.2.2.1)) = s.dev.sys.distOut.map (fun q => (q.2.1, q.2.2.1))
                ++ s.dev.distWorkers.map (fun v => (v, R.TPL_STATUS))))
        ∧ (s.dev.isManager = true → s.dev.distState ≠ 0 → Answers (exec .distCancel s) fun u => ends u 4)
        ∧ ((s.dev.distState = 1 ∨ s.dev.distState = 2) → s.dev.sys.distLeft = [v.val] → s.dev.distFailing = [v.val] →
            (Answers (exec (.distWorkerAck v true) s) fun u => ends u 0 ∧ acked u = true)
            ∧ (s.dev.distRound = 3 → Answers (exec (.distWorkerAck v false) s) fun u => ends u 2 ∧ acked u = acked s
              ∧ bit (u.dev.rd (R.TRK_DIST_FAIL_LO + 4 * (v / 32))) (v % 32) = true))
        ∧ ((s.dev.distState = 1 ∨ s.dev.distState = 2) → v.val ∈ s.dev.sys.distLeft → (∃ q ∈ s.dev.sys.distLeft, q ≠ v.val) →
            Answers (exec (.distWorkerAck v true) s) fun u => u.dev.sys.distLeft = s.dev.sys.distLeft.filter (· != v.val) ∧ acked u = true
              ∧ u.dev.distState = s.dev.distState))
end

