-- ==== Sys2Proof/Laws/Maps.lean ====
section
/-! SUPPORT. Laws of the sparse map and of the byte memories built on it: a read after a write, and the canonical form. -/

namespace Sys2Proof

variable {α : Type}

theorem PMap.get_insert (d : Nat → α) (m : PMap α) (k : Nat) (v : α) (j : Nat) :
    PMap.get d (PMap.insert k v m) j = if j = k then v else m.get d j := by
  induction m with
  | nil => simp only [PMap.insert, PMap.get, eq_comm]
  | cons p m ih =>
    obtain ⟨i, x⟩ := p
    simp only [PMap.insert]
    split
    · simp only [PMap.get, eq_comm (a := k)]
    · split
      · next h => subst h; simp only [PMap.get, eq_comm (a := k)]; split <;> simp_all
      · next h => simp only [PMap.get, ih]; split <;> simp_all [eq_comm]

theorem PMap.get_remove (d : Nat → α) (m : PMap α) (k j : Nat) :
    PMap.get d (m.filter (fun p => p.1 != k)) j = if j = k then d k else m.get d j := by
  induction m with
  | nil => simp only [List.filter, PMap.get]; split <;> simp_all
  | cons p m ih =>
    obtain ⟨i, x⟩ := p
    by_cases h : i = k
    · subst h
      rw [List.filter_cons_of_neg (by simp), ih]
      by_cases e : j = i
      · simp [e]
      · simp [PMap.get, e, Ne.symm e]
    · rw [List.filter_cons_of_pos (by simpa using h)]
      simp only [PMap.get, ih]
      by_cases e : i = j
      · subst e; simp [h]
      · simp [e]

variable [DecidableEq α]

theorem PMap.set_eq (d : Nat → α) (m : PMap α) (k : Nat) (v : α) :
    m.set d k v = if v = d k then m.filter (fun p => p.1 != k) else PMap.insert k v m := by
  cases m <;> simp [PMap.set, PMap.insert]

/-- A read after a write. -/
theorem PMap.get_set (d : Nat → α) (m : PMap α) (k : Nat) (v : α) (j : Nat) :
    (m.set d k v).get d j = if j = k then v else m.get d j := by
  rw [PMap.set_eq]
  split
  · next h => rw [PMap.get_remove, h]
  · exact PMap.get_insert d m k v j

@[simp] theorem PMap.get_set_self (d : Nat → α) (m : PMap α) (k : Nat) (v : α) : (m.set d k v).get d k = v := by
  simp [PMap.get_set]

theorem PMap.get_set_ne (d : Nat → α) (m : PMap α) {k j : Nat} (v : α) (h : j ≠ k) :
    (m.set d k v).get d j = m.get d j := by
  simp [PMap.get_set, h]

omit [DecidableEq α] in
theorem PMap.get_clear (d : Nat → α) (m : PMap α) (lo hi j : Nat) :
    (m.clear lo hi).get d j = if lo ≤ j ∧ j < hi then d j else m.get d j := by
  unfold PMap.clear
  induction m with
  | nil => simp only [List.filter, PMap.get]; split <;> rfl
  | cons p m ih =>
    obtain ⟨i, x⟩ := p
    simp only [List.filter]
    by_cases h : i < lo ∨ hi ≤ i
    · have : (decide (i < lo) || decide (hi ≤ i)) = true := by simpa using h
      simp only [this, PMap.get, ih]
      by_cases e : i = j
      · subst e; rw [if_pos rfl, if_neg (by omega)]; simp
      · simp only [if_neg e]
    · have : (decide (i < lo) || decide (hi ≤ i)) = false := by simpa using h
      simp only [this, ih, PMap.get]
      by_cases e : i = j
      · subst e; rw [if_pos (by omega), if_pos (by omega)]
      · simp only [if_neg e]

/-! ### The canonical form -/

/-- The canonical form, said in one go: the keys rise, and no pair equals the default. -/
theorem PMap.wf_iff (d : Nat → α) (m : PMap α) :
    m.wf d = true ↔ m.Pairwise (fun p q => p.1 < q.1) ∧ ∀ p ∈ m, p.2 ≠ d p.1 := by
  induction m with
  | nil => simp [PMap.wf]
  | cons p m ih =>
    obtain ⟨i, x⟩ := p
    cases m with
    | nil => simp [PMap.wf]
    | cons q m =>
      obtain ⟨j, y⟩ := q
      simp only [PMap.wf, Bool.and_eq_true, decide_eq_true_eq, ih]
      constructor
      · rintro ⟨⟨hx, hij⟩, hp, hd⟩
        refine ⟨List.pairwise_cons.mpr ⟨?_, hp⟩, ?_⟩
        · intro r hr
          rcases List.mem_cons.mp hr with rfl | hr
          · exact hij
          · exact Nat.lt_trans hij ((List.pairwise_cons.mp hp).1 r hr)
        · intro r hr
          rcases List.mem_cons.mp hr with rfl | hr
          · exact hx
          · exact hd r hr
      · rintro ⟨hp, hd⟩
        obtain ⟨h1, h2⟩ := List.pairwise_cons.mp hp
        exact ⟨⟨hd (i, x) (by simp), h1 (j, y) (by simp)⟩, h2, fun r hr => hd r (List.mem_cons_of_mem _ hr)⟩

theorem PMap.wf_filter (d : Nat → α) (m : PMap α) (p : Nat × α → Bool) (h : m.wf d = true) : PMap.wf d (m.filter p) = true := by
  rw [PMap.wf_iff] at h ⊢
  exact ⟨h.1.filter p, fun q hq => h.2 q (List.mem_filter.mp hq).1⟩

theorem PMap.wf_clear (d : Nat → α) (m : PMap α) (lo hi : Nat) (h : m.wf d = true) : PMap.wf d (m.clear lo hi) = true :=
  PMap.wf_filter d m _ h

omit [DecidableEq α] in
theorem PMap.mem_insert {k : Nat} {v : α} {m : PMap α} {p : Nat × α} (h : p ∈ PMap.insert k v m) : p = (k, v) ∨ p ∈ m := by
  induction m with
  | nil => simpa [PMap.insert] using h
  | cons q m ih =>
    obtain ⟨j, x⟩ := q
    simp only [PMap.insert] at h
    split at h
    · simpa using h
    · split at h
      · rcases List.mem_cons.mp h with h | h
        · exact .inl h
        · exact .inr (List.mem_cons_of_mem _ h)
      · rcases List.mem_cons.mp h with h | h
        · exact .inr (by simp [h])
        · rcases ih h with h | h
          · exact .inl h
          · exact .inr (List.mem_cons_of_mem _ h)

omit [DecidableEq α] in
theorem PMap.sorted_insert {k : Nat} {v : α} {m : PMap α} (h : m.Pairwise (fun p q => p.1 < q.1)) :
    (PMap.insert k v m).Pairwise (fun p q => p.1 < q.1) := by
  induction m with
  | nil => simp [PMap.insert]
  | cons q m ih =>
    obtain ⟨j, x⟩ := q
    obtain ⟨h1, h2⟩ := List.pairwise_cons.mp h
    simp only [PMap.insert]
    split
    · next hk =>
      refine List.pairwise_cons.mpr ⟨fun r hr => ?_, h⟩
      rcases List.mem_cons.mp hr with rfl | hr
      · exact hk
      · exact Nat.lt_trans hk (h1 r hr)
    · split
      · next hk =>
        subst hk
        exact List.pairwise_cons.mpr ⟨fun r hr => h1 r hr, h2⟩
      · next ha hb =>
        refine List.pairwise_cons.mpr ⟨fun r hr => ?_, ih h2⟩
        rcases PMap.mem_insert hr with rfl | hr
        · show j < k
          omega
        · exact h1 r hr

/-- A write keeps the canonical form. -/
theorem PMap.wf_set (d : Nat → α) (m : PMap α) (k : Nat) (v : α) (h : m.wf d = true) : PMap.wf d (m.set d k v) = true := by
  rw [PMap.set_eq]
  split
  · exact PMap.wf_filter d m _ h
  · next hv =>
    rw [PMap.wf_iff] at h ⊢
    refine ⟨PMap.sorted_insert h.1, fun p hp => ?_⟩
    rcases PMap.mem_insert hp with rfl | hp
    · exact hv
    · exact h.2 p hp

namespace Machine

theorem writeBytes_wf (d : Nat → Byte) (bs : List Byte) (m : PMap Byte) (a : Nat) (h : m.wf d = true) :
    PMap.wf d (writeBytes d m a bs) = true := by
  induction bs generalizing m a with
  | nil => exact h
  | cons b bs ih => exact ih _ _ (PMap.wf_set d m a b h)

theorem writeWord_wf (m : PMap Byte) (a : Nat) (v : Word) (h : m.wf zeroByte = true) :
    PMap.wf zeroByte (writeWord m a v) = true := writeBytes_wf _ _ _ _ h

theorem fillWords_wf (n : Nat) (m : PMap Byte) (a : Nat) (v : Word) (h : m.wf zeroByte = true) :
    PMap.wf zeroByte (fillWords m a v n) = true := by
  induction n generalizing m a with
  | zero => exact h
  | succ n ih => exact ih _ _ (writeWord_wf m a v h)

theorem writeEnabled_wf (m : PMap Byte) (a : Nat) (be : BitVec 4) (v : Word) (h : m.wf zeroByte = true) :
    PMap.wf zeroByte (writeEnabled m a be v) = true := by
  unfold writeEnabled
  induction List.range 4 generalizing m with
  | nil => exact h
  | cons i l ih =>
    simp only [List.foldl_cons]
    apply ih
    split
    · exact PMap.wf_set _ _ _ _ h
    · exact h

/-- Bytes outside the range written read as before. -/
theorem get_writeBytes_out (d : Nat → Byte) (bs : List Byte) (m : PMap Byte) (a j : Nat) (h : j < a ∨ a + bs.length ≤ j) :
    (writeBytes d m a bs).get d j = m.get d j := by
  induction bs generalizing m a with
  | nil => rfl
  | cons b bs ih =>
    simp only [List.length_cons] at h
    rw [writeBytes, ih _ _ (by omega), PMap.get_set_ne _ _ _ (by omega)]

/-- Bytes inside the range written read as written. -/
theorem get_writeBytes_in (d : Nat → Byte) (bs : List Byte) (m : PMap Byte) (a i : Nat) (h : i < bs.length) :
    (writeBytes d m a bs).get d (a + i) = bs[i] := by
  induction bs generalizing m a i with
  | nil => simp at h
  | cons b bs ih =>
    cases i with
    | zero => rw [writeBytes, get_writeBytes_out _ _ _ _ _ (by omega)]; simp
    | succ i =>
      have : a + (i + 1) = (a + 1) + i := by omega
      rw [writeBytes, this, ih _ _ _ (by simpa using h)]; simp

end Machine

end Sys2Proof
end

