-- ==== Sys2Proof/Laws/State.lean ====
section
/-! SUPPORT. What each update of the device leaves alone, field by field, true by unfolding; and what a read gives after each
write. -/

namespace Sys2Proof.Machine

@[simp] theorem Dev.wr_mregs (d : Dev) (a : Nat) (v : Word) : (d.wr a v).mregs = d.mregs := rfl
@[simp] theorem Dev.wr_latches (d : Dev) (a : Nat) (v : Word) : (d.wr a v).latches = d.latches := rfl
@[simp] theorem Dev.wr_compl (d : Dev) (a : Nat) (v : Word) : (d.wr a v).compl = d.compl := rfl
@[simp] theorem Dev.wr_stnW (d : Dev) (a : Nat) (v : Word) : (d.wr a v).stnW = d.stnW := rfl
@[simp] theorem Dev.wr_stnM (d : Dev) (a : Nat) (v : Word) : (d.wr a v).stnM = d.stnM := rfl
@[simp] theorem Dev.wr_stns (d : Dev) (a : Nat) (v : Word) : (d.wr a v).stns = d.stns := rfl
@[simp] theorem Dev.wr_worlds (d : Dev) (a : Nat) (v : Word) : (d.wr a v).worlds = d.worlds := rfl
@[simp] theorem Dev.wr_wregs (d : Dev) (a : Nat) (v : Word) : (d.wr a v).wregs = d.wregs := rfl
@[simp] theorem Dev.wr_edgeTab (d : Dev) (a : Nat) (v : Word) : (d.wr a v).edgeTab = d.edgeTab := rfl
@[simp] theorem Dev.wr_edgeCnt (d : Dev) (a : Nat) (v : Word) : (d.wr a v).edgeCnt = d.edgeCnt := rfl
@[simp] theorem Dev.wr_edgeBuf (d : Dev) (a : Nat) (v : Word) : (d.wr a v).edgeBuf = d.edgeBuf := rfl
@[simp] theorem Dev.wr_injNext (d : Dev) (a : Nat) (v : Word) : (d.wr a v).injNext = d.injNext := rfl
@[simp] theorem Dev.wr_notices (d : Dev) (a : Nat) (v : Word) : (d.wr a v).notices = d.notices := rfl
@[simp] theorem Dev.wr_packets (d : Dev) (a : Nat) (v : Word) : (d.wr a v).packets = d.packets := rfl
@[simp] theorem Dev.wr_txns (d : Dev) (a : Nat) (v : Word) : (d.wr a v).txns = d.txns := rfl
@[simp] theorem Dev.wr_fwait (d : Dev) (a : Nat) (v : Word) : (d.wr a v).fwait = d.fwait := rfl
@[simp] theorem Dev.wr_frtTurn (d : Dev) (a : Nat) (v : Word) : (d.wr a v).frtTurn = d.frtTurn := rfl
@[simp] theorem Dev.wr_frtServed (d : Dev) (a : Nat) (v : Word) : (d.wr a v).frtServed = d.frtServed := rfl
@[simp] theorem Dev.wr_words (d : Dev) (a : Nat) (v : Word) : (d.wr a v).words = d.words := rfl
@[simp] theorem Dev.wr_bankHeld (d : Dev) (a : Nat) (v : Word) : (d.wr a v).bankHeld = d.bankHeld := rfl
@[simp] theorem Dev.wr_accNext (d : Dev) (a : Nat) (v : Word) : (d.wr a v).accNext = d.accNext := rfl
@[simp] theorem Dev.wr_streamers (d : Dev) (a : Nat) (v : Word) : (d.wr a v).streamers = d.streamers := rfl
@[simp] theorem Dev.wr_qnt (d : Dev) (a : Nat) (v : Word) : (d.wr a v).qnt = d.qnt := rfl
@[simp] theorem Dev.wr_prjs (d : Dev) (a : Nat) (v : Word) : (d.wr a v).prjs = d.prjs := rfl
@[simp] theorem Dev.wr_link (d : Dev) (a : Nat) (v : Word) : (d.wr a v).link = d.link := rfl
@[simp] theorem Dev.wr_rings (d : Dev) (a : Nat) (v : Word) : (d.wr a v).rings = d.rings := rfl
@[simp] theorem Dev.wr_encBase (d : Dev) (a : Nat) (v : Word) : (d.wr a v).encBase = d.encBase := rfl
@[simp] theorem Dev.wr_encSt (d : Dev) (a : Nat) (v : Word) : (d.wr a v).encSt = d.encSt := rfl
@[simp] theorem Dev.wr_encCnt (d : Dev) (a : Nat) (v : Word) : (d.wr a v).encCnt = d.encCnt := rfl
@[simp] theorem Dev.wr_decs (d : Dev) (a : Nat) (v : Word) : (d.wr a v).decs = d.decs := rfl
@[simp] theorem Dev.wr_trunks (d : Dev) (a : Nat) (v : Word) : (d.wr a v).trunks = d.trunks := rfl
@[simp] theorem Dev.wr_sys (d : Dev) (a : Nat) (v : Word) : (d.wr a v).sys = d.sys := rfl
@[simp] theorem Dev.wr_tpl (d : Dev) (a : Nat) (v : Word) : (d.wr a v).tpl = d.tpl := rfl
@[simp] theorem Dev.wr_cores (d : Dev) (a : Nat) (v : Word) : (d.wr a v).cores = d.cores := rfl
@[simp] theorem Dev.wr_coreMem (d : Dev) (a : Nat) (v : Word) : (d.wr a v).coreMem = d.coreMem := rfl
@[simp] theorem Dev.wr_chn (d : Dev) (a : Nat) (v : Word) : (d.wr a v).chn = d.chn := rfl
@[simp] theorem Dev.wr_irq (d : Dev) (a : Nat) (v : Word) : (d.wr a v).irq = d.irq := rfl
@[simp] theorem Dev.wr_timers (d : Dev) (a : Nat) (v : Word) : (d.wr a v).timers = d.timers := rfl
@[simp] theorem Dev.wr_sdma (d : Dev) (a : Nat) (v : Word) : (d.wr a v).sdma = d.sdma := rfl
@[simp] theorem Dev.wr_sdmaNext (d : Dev) (a : Nat) (v : Word) : (d.wr a v).sdmaNext = d.sdmaNext := rfl
@[simp] theorem Dev.wr_sdmaCpl (d : Dev) (a : Nat) (v : Word) : (d.wr a v).sdmaCpl = d.sdmaCpl := rfl
@[simp] theorem Dev.wr_mbt (d : Dev) (a : Nat) (v : Word) : (d.wr a v).mbt = d.mbt := rfl
@[simp] theorem Dev.wr_spares (d : Dev) (a : Nat) (v : Word) : (d.wr a v).spares = d.spares := rfl
@[simp] theorem Dev.wr_tok (d : Dev) (a : Nat) (v : Word) : (d.wr a v).tok = d.tok := rfl
@[simp] theorem Dev.wr_vfab (d : Dev) (a : Nat) (v : Word) : (d.wr a v).vfab = d.vfab := rfl
@[simp] theorem Dev.wr_pwr (d : Dev) (a : Nat) (v : Word) : (d.wr a v).pwr = d.pwr := rfl
@[simp] theorem Dev.wr_boot (d : Dev) (a : Nat) (v : Word) : (d.wr a v).boot = d.boot := rfl
@[simp] theorem Dev.wr_rst (d : Dev) (a : Nat) (v : Word) : (d.wr a v).rst = d.rst := rfl
@[simp] theorem Dev.wr_locked (d : Dev) (a : Nat) (v : Word) : (d.wr a v).locked = d.locked := rfl
@[simp] theorem Dev.wr_switches (d : Dev) (a : Nat) (v : Word) : (d.wr a v).switches = d.switches := rfl
@[simp] theorem Dev.wr_xchWant (d : Dev) (a : Nat) (v : Word) : (d.wr a v).xchWant = d.xchWant := rfl
@[simp] theorem Dev.wr_fwu (d : Dev) (a : Nat) (v : Word) : (d.wr a v).fwu = d.fwu := rfl
@[simp] theorem Dev.wr_microcode (d : Dev) (a : Nat) (v : Word) : (d.wr a v).microcode = d.microcode := rfl
@[simp] theorem Dev.wr_training (d : Dev) (a : Nat) (v : Word) : (d.wr a v).training = d.training := rfl
@[simp] theorem Dev.wr_jtag (d : Dev) (a : Nat) (v : Word) : (d.wr a v).jtag = d.jtag := rfl
@[simp] theorem Dev.wr_pins (d : Dev) (a : Nat) (v : Word) : (d.wr a v).pins = d.pins := rfl
@[simp] theorem Dev.wr_araDone (d : Dev) (a : Nat) (v : Word) : (d.wr a v).araDone = d.araDone := rfl
@[simp] theorem Dev.wr_smbUse (d : Dev) (a : Nat) (v : Word) : (d.wr a v).smbUse = d.smbUse := rfl
@[simp] theorem Dev.wr_sbclk (d : Dev) (a : Nat) (v : Word) : (d.wr a v).sbclk = d.sbclk := rfl
@[simp] theorem Dev.wr_powered (d : Dev) (a : Nat) (v : Word) : (d.wr a v).powered = d.powered := rfl
@[simp] theorem Dev.wr_fwdClk (d : Dev) (a : Nat) (v : Word) : (d.wr a v).fwdClk = d.fwdClk := rfl
@[simp] theorem Dev.wr_now (d : Dev) (a : Nat) (v : Word) : (d.wr a v).now = d.now := rfl
@[simp] theorem Dev.wr_freeCtr (d : Dev) (a : Nat) (v : Word) : (d.wr a v).freeCtr = d.freeCtr := rfl

@[simp] theorem Dev.mwr_regs (d : Dev) (m : Master) (a : Nat) (v : Word) : (d.mwr m a v).regs = d.regs := rfl
@[simp] theorem Dev.mwr_latches (d : Dev) (m : Master) (a : Nat) (v : Word) : (d.mwr m a v).latches = d.latches := rfl
@[simp] theorem Dev.mwr_compl (d : Dev) (m : Master) (a : Nat) (v : Word) : (d.mwr m a v).compl = d.compl := rfl
@[simp] theorem Dev.mwr_stnW (d : Dev) (m : Master) (a : Nat) (v : Word) : (d.mwr m a v).stnW = d.stnW := rfl
@[simp] theorem Dev.mwr_stnM (d : Dev) (m : Master) (a : Nat) (v : Word) : (d.mwr m a v).stnM = d.stnM := rfl
@[simp] theorem Dev.mwr_stns (d : Dev) (m : Master) (a : Nat) (v : Word) : (d.mwr m a v).stns = d.stns := rfl
@[simp] theorem Dev.mwr_worlds (d : Dev) (m : Master) (a : Nat) (v : Word) : (d.mwr m a v).worlds = d.worlds := rfl
@[simp] theorem Dev.mwr_wregs (d : Dev) (m : Master) (a : Nat) (v : Word) : (d.mwr m a v).wregs = d.wregs := rfl
@[simp] theorem Dev.mwr_edgeTab (d : Dev) (m : Master) (a : Nat) (v : Word) : (d.mwr m a v).edgeTab = d.edgeTab := rfl
@[simp] theorem Dev.mwr_edgeCnt (d : Dev) (m : Master) (a : Nat) (v : Word) : (d.mwr m a v).edgeCnt = d.edgeCnt := rfl
@[simp] theorem Dev.mwr_edgeBuf (d : Dev) (m : Master) (a : Nat) (v : Word) : (d.mwr m a v).edgeBuf = d.edgeBuf := rfl
@[simp] theorem Dev.mwr_injNext (d : Dev) (m : Master) (a : Nat) (v : Word) : (d.mwr m a v).injNext = d.injNext := rfl
@[simp] theorem Dev.mwr_notices (d : Dev) (m : Master) (a : Nat) (v : Word) : (d.mwr m a v).notices = d.notices := rfl
@[simp] theorem Dev.mwr_packets (d : Dev) (m : Master) (a : Nat) (v : Word) : (d.mwr m a v).packets = d.packets := rfl
@[simp] theorem Dev.mwr_txns (d : Dev) (m : Master) (a : Nat) (v : Word) : (d.mwr m a v).txns = d.txns := rfl
@[simp] theorem Dev.mwr_fwait (d : Dev) (m : Master) (a : Nat) (v : Word) : (d.mwr m a v).fwait = d.fwait := rfl
@[simp] theorem Dev.mwr_frtTurn (d : Dev) (m : Master) (a : Nat) (v : Word) : (d.mwr m a v).frtTurn = d.frtTurn := rfl
@[simp] theorem Dev.mwr_frtServed (d : Dev) (m : Master) (a : Nat) (v : Word) : (d.mwr m a v).frtServed = d.frtServed := rfl
@[simp] theorem Dev.mwr_words (d : Dev) (m : Master) (a : Nat) (v : Word) : (d.mwr m a v).words = d.words := rfl
@[simp] theorem Dev.mwr_bankHeld (d : Dev) (m : Master) (a : Nat) (v : Word) : (d.mwr m a v).bankHeld = d.bankHeld := rfl
@[simp] theorem Dev.mwr_accNext (d : Dev) (m : Master) (a : Nat) (v : Word) : (d.mwr m a v).accNext = d.accNext := rfl
@[simp] theorem Dev.mwr_streamers (d : Dev) (m : Master) (a : Nat) (v : Word) : (d.mwr m a v).streamers = d.streamers := rfl
@[simp] theorem Dev.mwr_qnt (d : Dev) (m : Master) (a : Nat) (v : Word) : (d.mwr m a v).qnt = d.qnt := rfl
@[simp] theorem Dev.mwr_prjs (d : Dev) (m : Master) (a : Nat) (v : Word) : (d.mwr m a v).prjs = d.prjs := rfl
@[simp] theorem Dev.mwr_link (d : Dev) (m : Master) (a : Nat) (v : Word) : (d.mwr m a v).link = d.link := rfl
@[simp] theorem Dev.mwr_rings (d : Dev) (m : Master) (a : Nat) (v : Word) : (d.mwr m a v).rings = d.rings := rfl
@[simp] theorem Dev.mwr_encBase (d : Dev) (m : Master) (a : Nat) (v : Word) : (d.mwr m a v).encBase = d.encBase := rfl
@[simp] theorem Dev.mwr_encSt (d : Dev) (m : Master) (a : Nat) (v : Word) : (d.mwr m a v).encSt = d.encSt := rfl
@[simp] theorem Dev.mwr_encCnt (d : Dev) (m : Master) (a : Nat) (v : Word) : (d.mwr m a v).encCnt = d.encCnt := rfl
@[simp] theorem Dev.mwr_decs (d : Dev) (m : Master) (a : Nat) (v : Word) : (d.mwr m a v).decs = d.decs := rfl
@[simp] theorem Dev.mwr_trunks (d : Dev) (m : Master) (a : Nat) (v : Word) : (d.mwr m a v).trunks = d.trunks := rfl
@[simp] theorem Dev.mwr_sys (d : Dev) (m : Master) (a : Nat) (v : Word) : (d.mwr m a v).sys = d.sys := rfl
@[simp] theorem Dev.mwr_tpl (d : Dev) (m : Master) (a : Nat) (v : Word) : (d.mwr m a v).tpl = d.tpl := rfl
@[simp] theorem Dev.mwr_cores (d : Dev) (m : Master) (a : Nat) (v : Word) : (d.mwr m a v).cores = d.cores := rfl
@[simp] theorem Dev.mwr_coreMem (d : Dev) (m : Master) (a : Nat) (v : Word) : (d.mwr m a v).coreMem = d.coreMem := rfl
@[simp] theorem Dev.mwr_chn (d : Dev) (m : Master) (a : Nat) (v : Word) : (d.mwr m a v).chn = d.chn := rfl
@[simp] theorem Dev.mwr_irq (d : Dev) (m : Master) (a : Nat) (v : Word) : (d.mwr m a v).irq = d.irq := rfl
@[simp] theorem Dev.mwr_timers (d : Dev) (m : Master) (a : Nat) (v : Word) : (d.mwr m a v).timers = d.timers := rfl
@[simp] theorem Dev.mwr_sdma (d : Dev) (m : Master) (a : Nat) (v : Word) : (d.mwr m a v).sdma = d.sdma := rfl
@[simp] theorem Dev.mwr_sdmaNext (d : Dev) (m : Master) (a : Nat) (v : Word) : (d.mwr m a v).sdmaNext = d.sdmaNext := rfl
@[simp] theorem Dev.mwr_sdmaCpl (d : Dev) (m : Master) (a : Nat) (v : Word) : (d.mwr m a v).sdmaCpl = d.sdmaCpl := rfl
@[simp] theorem Dev.mwr_mbt (d : Dev) (m : Master) (a : Nat) (v : Word) : (d.mwr m a v).mbt = d.mbt := rfl
@[simp] theorem Dev.mwr_spares (d : Dev) (m : Master) (a : Nat) (v : Word) : (d.mwr m a v).spares = d.spares := rfl
@[simp] theorem Dev.mwr_tok (d : Dev) (m : Master) (a : Nat) (v : Word) : (d.mwr m a v).tok = d.tok := rfl
@[simp] theorem Dev.mwr_vfab (d : Dev) (m : Master) (a : Nat) (v : Word) : (d.mwr m a v).vfab = d.vfab := rfl
@[simp] theorem Dev.mwr_pwr (d : Dev) (m : Master) (a : Nat) (v : Word) : (d.mwr m a v).pwr = d.pwr := rfl
@[simp] theorem Dev.mwr_boot (d : Dev) (m : Master) (a : Nat) (v : Word) : (d.mwr m a v).boot = d.boot := rfl
@[simp] theorem Dev.mwr_rst (d : Dev) (m : Master) (a : Nat) (v : Word) : (d.mwr m a v).rst = d.rst := rfl
@[simp] theorem Dev.mwr_locked (d : Dev) (m : Master) (a : Nat) (v : Word) : (d.mwr m a v).locked = d.locked := rfl
@[simp] theorem Dev.mwr_switches (d : Dev) (m : Master) (a : Nat) (v : Word) : (d.mwr m a v).switches = d.switches := rfl
@[simp] theorem Dev.mwr_xchWant (d : Dev) (m : Master) (a : Nat) (v : Word) : (d.mwr m a v).xchWant = d.xchWant := rfl
@[simp] theorem Dev.mwr_fwu (d : Dev) (m : Master) (a : Nat) (v : Word) : (d.mwr m a v).fwu = d.fwu := rfl
@[simp] theorem Dev.mwr_microcode (d : Dev) (m : Master) (a : Nat) (v : Word) : (d.mwr m a v).microcode = d.microcode := rfl
@[simp] theorem Dev.mwr_training (d : Dev) (m : Master) (a : Nat) (v : Word) : (d.mwr m a v).training = d.training := rfl
@[simp] theorem Dev.mwr_jtag (d : Dev) (m : Master) (a : Nat) (v : Word) : (d.mwr m a v).jtag = d.jtag := rfl
@[simp] theorem Dev.mwr_pins (d : Dev) (m : Master) (a : Nat) (v : Word) : (d.mwr m a v).pins = d.pins := rfl
@[simp] theorem Dev.mwr_araDone (d : Dev) (m : Master) (a : Nat) (v : Word) : (d.mwr m a v).araDone = d.araDone := rfl
@[simp] theorem Dev.mwr_smbUse (d : Dev) (m : Master) (a : Nat) (v : Word) : (d.mwr m a v).smbUse = d.smbUse := rfl
@[simp] theorem Dev.mwr_sbclk (d : Dev) (m : Master) (a : Nat) (v : Word) : (d.mwr m a v).sbclk = d.sbclk := rfl
@[simp] theorem Dev.mwr_powered (d : Dev) (m : Master) (a : Nat) (v : Word) : (d.mwr m a v).powered = d.powered := rfl
@[simp] theorem Dev.mwr_fwdClk (d : Dev) (m : Master) (a : Nat) (v : Word) : (d.mwr m a v).fwdClk = d.fwdClk := rfl
@[simp] theorem Dev.mwr_now (d : Dev) (m : Master) (a : Nat) (v : Word) : (d.mwr m a v).now = d.now := rfl
@[simp] theorem Dev.mwr_freeCtr (d : Dev) (m : Master) (a : Nat) (v : Word) : (d.mwr m a v).freeCtr = d.freeCtr := rfl

@[simp] theorem Dev.latch_regs (d : Dev) (m : Master) (a : Nat) (v : Word) : (d.latch m a v).regs = d.regs := rfl
@[simp] theorem Dev.latch_mregs (d : Dev) (m : Master) (a : Nat) (v : Word) : (d.latch m a v).mregs = d.mregs := rfl
@[simp] theorem Dev.latch_compl (d : Dev) (m : Master) (a : Nat) (v : Word) : (d.latch m a v).compl = d.compl := rfl
@[simp] theorem Dev.latch_stnW (d : Dev) (m : Master) (a : Nat) (v : Word) : (d.latch m a v).stnW = d.stnW := rfl
@[simp] theorem Dev.latch_stnM (d : Dev) (m : Master) (a : Nat) (v : Word) : (d.latch m a v).stnM = d.stnM := rfl
@[simp] theorem Dev.latch_stns (d : Dev) (m : Master) (a : Nat) (v : Word) : (d.latch m a v).stns = d.stns := rfl
@[simp] theorem Dev.latch_worlds (d : Dev) (m : Master) (a : Nat) (v : Word) : (d.latch m a v).worlds = d.worlds := rfl
@[simp] theorem Dev.latch_wregs (d : Dev) (m : Master) (a : Nat) (v : Word) : (d.latch m a v).wregs = d.wregs := rfl
@[simp] theorem Dev.latch_edgeTab (d : Dev) (m : Master) (a : Nat) (v : Word) : (d.latch m a v).edgeTab = d.edgeTab := rfl
@[simp] theorem Dev.latch_edgeCnt (d : Dev) (m : Master) (a : Nat) (v : Word) : (d.latch m a v).edgeCnt = d.edgeCnt := rfl
@[simp] theorem Dev.latch_edgeBuf (d : Dev) (m : Master) (a : Nat) (v : Word) : (d.latch m a v).edgeBuf = d.edgeBuf := rfl
@[simp] theorem Dev.latch_injNext (d : Dev) (m : Master) (a : Nat) (v : Word) : (d.latch m a v).injNext = d.injNext := rfl
@[simp] theorem Dev.latch_notices (d : Dev) (m : Master) (a : Nat) (v : Word) : (d.latch m a v).notices = d.notices := rfl
@[simp] theorem Dev.latch_packets (d : Dev) (m : Master) (a : Nat) (v : Word) : (d.latch m a v).packets = d.packets := rfl
@[simp] theorem Dev.latch_txns (d : Dev) (m : Master) (a : Nat) (v : Word) : (d.latch m a v).txns = d.txns := rfl
@[simp] theorem Dev.latch_fwait (d : Dev) (m : Master) (a : Nat) (v : Word) : (d.latch m a v).fwait = d.fwait := rfl
@[simp] theorem Dev.latch_frtTurn (d : Dev) (m : Master) (a : Nat) (v : Word) : (d.latch m a v).frtTurn = d.frtTurn := rfl
@[simp] theorem Dev.latch_frtServed (d : Dev) (m : Master) (a : Nat) (v : Word) : (d.latch m a v).frtServed = d.frtServed := rfl
@[simp] theorem Dev.latch_words (d : Dev) (m : Master) (a : Nat) (v : Word) : (d.latch m a v).words = d.words := rfl
@[simp] theorem Dev.latch_bankHeld (d : Dev) (m : Master) (a : Nat) (v : Word) : (d.latch m a v).bankHeld = d.bankHeld := rfl
@[simp] theorem Dev.latch_accNext (d : Dev) (m : Master) (a : Nat) (v : Word) : (d.latch m a v).accNext = d.accNext := rfl
@[simp] theorem Dev.latch_streamers (d : Dev) (m : Master) (a : Nat) (v : Word) : (d.latch m a v).streamers = d.streamers := rfl
@[simp] theorem Dev.latch_qnt (d : Dev) (m : Master) (a : Nat) (v : Word) : (d.latch m a v).qnt = d.qnt := rfl
@[simp] theorem Dev.latch_prjs (d : Dev) (m : Master) (a : Nat) (v : Word) : (d.latch m a v).prjs = d.prjs := rfl
@[simp] theorem Dev.latch_link (d : Dev) (m : Master) (a : Nat) (v : Word) : (d.latch m a v).link = d.link := rfl
@[simp] theorem Dev.latch_rings (d : Dev) (m : Master) (a : Nat) (v : Word) : (d.latch m a v).rings = d.rings := rfl
@[simp] theorem Dev.latch_encBase (d : Dev) (m : Master) (a : Nat) (v : Word) : (d.latch m a v).encBase = d.encBase := rfl
@[simp] theorem Dev.latch_encSt (d : Dev) (m : Master) (a : Nat) (v : Word) : (d.latch m a v).encSt = d.encSt := rfl
@[simp] theorem Dev.latch_encCnt (d : Dev) (m : Master) (a : Nat) (v : Word) : (d.latch m a v).encCnt = d.encCnt := rfl
@[simp] theorem Dev.latch_decs (d : Dev) (m : Master) (a : Nat) (v : Word) : (d.latch m a v).decs = d.decs := rfl
@[simp] theorem Dev.latch_trunks (d : Dev) (m : Master) (a : Nat) (v : Word) : (d.latch m a v).trunks = d.trunks := rfl
@[simp] theorem Dev.latch_sys (d : Dev) (m : Master) (a : Nat) (v : Word) : (d.latch m a v).sys = d.sys := rfl
@[simp] theorem Dev.latch_tpl (d : Dev) (m : Master) (a : Nat) (v : Word) : (d.latch m a v).tpl = d.tpl := rfl
@[simp] theorem Dev.latch_cores (d : Dev) (m : Master) (a : Nat) (v : Word) : (d.latch m a v).cores = d.cores := rfl
@[simp] theorem Dev.latch_coreMem (d : Dev) (m : Master) (a : Nat) (v : Word) : (d.latch m a v).coreMem = d.coreMem := rfl
@[simp] theorem Dev.latch_chn (d : Dev) (m : Master) (a : Nat) (v : Word) : (d.latch m a v).chn = d.chn := rfl
@[simp] theorem Dev.latch_irq (d : Dev) (m : Master) (a : Nat) (v : Word) : (d.latch m a v).irq = d.irq := rfl
@[simp] theorem Dev.latch_timers (d : Dev) (m : Master) (a : Nat) (v : Word) : (d.latch m a v).timers = d.timers := rfl
@[simp] theorem Dev.latch_sdma (d : Dev) (m : Master) (a : Nat) (v : Word) : (d.latch m a v).sdma = d.sdma := rfl
@[simp] theorem Dev.latch_sdmaNext (d : Dev) (m : Master) (a : Nat) (v : Word) : (d.latch m a v).sdmaNext = d.sdmaNext := rfl
@[simp] theorem Dev.latch_sdmaCpl (d : Dev) (m : Master) (a : Nat) (v : Word) : (d.latch m a v).sdmaCpl = d.sdmaCpl := rfl
@[simp] theorem Dev.latch_mbt (d : Dev) (m : Master) (a : Nat) (v : Word) : (d.latch m a v).mbt = d.mbt := rfl
@[simp] theorem Dev.latch_spares (d : Dev) (m : Master) (a : Nat) (v : Word) : (d.latch m a v).spares = d.spares := rfl
@[simp] theorem Dev.latch_tok (d : Dev) (m : Master) (a : Nat) (v : Word) : (d.latch m a v).tok = d.tok := rfl
@[simp] theorem Dev.latch_vfab (d : Dev) (m : Master) (a : Nat) (v : Word) : (d.latch m a v).vfab = d.vfab := rfl
@[simp] theorem Dev.latch_pwr (d : Dev) (m : Master) (a : Nat) (v : Word) : (d.latch m a v).pwr = d.pwr := rfl
@[simp] theorem Dev.latch_boot (d : Dev) (m : Master) (a : Nat) (v : Word) : (d.latch m a v).boot = d.boot := rfl
@[simp] theorem Dev.latch_rst (d : Dev) (m : Master) (a : Nat) (v : Word) : (d.latch m a v).rst = d.rst := rfl
@[simp] theorem Dev.latch_locked (d : Dev) (m : Master) (a : Nat) (v : Word) : (d.latch m a v).locked = d.locked := rfl
@[simp] theorem Dev.latch_switches (d : Dev) (m : Master) (a : Nat) (v : Word) : (d.latch m a v).switches = d.switches := rfl
@[simp] theorem Dev.latch_xchWant (d : Dev) (m : Master) (a : Nat) (v : Word) : (d.latch m a v).xchWant = d.xchWant := rfl
@[simp] theorem Dev.latch_fwu (d : Dev) (m : Master) (a : Nat) (v : Word) : (d.latch m a v).fwu = d.fwu := rfl
@[simp] theorem Dev.latch_microcode (d : Dev) (m : Master) (a : Nat) (v : Word) : (d.latch m a v).microcode = d.microcode := rfl
@[simp] theorem Dev.latch_training (d : Dev) (m : Master) (a : Nat) (v : Word) : (d.latch m a v).training = d.training := rfl
@[simp] theorem Dev.latch_jtag (d : Dev) (m : Master) (a : Nat) (v : Word) : (d.latch m a v).jtag = d.jtag := rfl
@[simp] theorem Dev.latch_pins (d : Dev) (m : Master) (a : Nat) (v : Word) : (d.latch m a v).pins = d.pins := rfl
@[simp] theorem Dev.latch_araDone (d : Dev) (m : Master) (a : Nat) (v : Word) : (d.latch m a v).araDone = d.araDone := rfl
@[simp] theorem Dev.latch_smbUse (d : Dev) (m : Master) (a : Nat) (v : Word) : (d.latch m a v).smbUse = d.smbUse := rfl
@[simp] theorem Dev.latch_sbclk (d : Dev) (m : Master) (a : Nat) (v : Word) : (d.latch m a v).sbclk = d.sbclk := rfl
@[simp] theorem Dev.latch_powered (d : Dev) (m : Master) (a : Nat) (v : Word) : (d.latch m a v).powered = d.powered := rfl
@[simp] theorem Dev.latch_fwdClk (d : Dev) (m : Master) (a : Nat) (v : Word) : (d.latch m a v).fwdClk = d.fwdClk := rfl
@[simp] theorem Dev.latch_now (d : Dev) (m : Master) (a : Nat) (v : Word) : (d.latch m a v).now = d.now := rfl
@[simp] theorem Dev.latch_freeCtr (d : Dev) (m : Master) (a : Nat) (v : Word) : (d.latch m a v).freeCtr = d.freeCtr := rfl

@[simp] theorem Dev.complete_regs (d : Dev) (m : Master) (st : Status) (l : List Word) : (d.complete m st l).regs = d.regs := rfl
@[simp] theorem Dev.complete_mregs (d : Dev) (m : Master) (st : Status) (l : List Word) : (d.complete m st l).mregs = d.mregs := rfl
@[simp] theorem Dev.complete_latches (d : Dev) (m : Master) (st : Status) (l : List Word) : (d.complete m st l).latches = d.latches := rfl
@[simp] theorem Dev.complete_stnW (d : Dev) (m : Master) (st : Status) (l : List Word) : (d.complete m st l).stnW = d.stnW := rfl
@[simp] theorem Dev.complete_stnM (d : Dev) (m : Master) (st : Status) (l : List Word) : (d.complete m st l).stnM = d.stnM := rfl
@[simp] theorem Dev.complete_stns (d : Dev) (m : Master) (st : Status) (l : List Word) : (d.complete m st l).stns = d.stns := rfl
@[simp] theorem Dev.complete_worlds (d : Dev) (m : Master) (st : Status) (l : List Word) : (d.complete m st l).worlds = d.worlds := rfl
@[simp] theorem Dev.complete_wregs (d : Dev) (m : Master) (st : Status) (l : List Word) : (d.complete m st l).wregs = d.wregs := rfl
@[simp] theorem Dev.complete_edgeTab (d : Dev) (m : Master) (st : Status) (l : List Word) : (d.complete m st l).edgeTab = d.edgeTab := rfl
@[simp] theorem Dev.complete_edgeCnt (d : Dev) (m : Master) (st : Status) (l : List Word) : (d.complete m st l).edgeCnt = d.edgeCnt := rfl
@[simp] theorem Dev.complete_edgeBuf (d : Dev) (m : Master) (st : Status) (l : List Word) : (d.complete m st l).edgeBuf = d.edgeBuf := rfl
@[simp] theorem Dev.complete_injNext (d : Dev) (m : Master) (st : Status) (l : List Word) : (d.complete m st l).injNext = d.injNext := rfl
@[simp] theorem Dev.complete_notices (d : Dev) (m : Master) (st : Status) (l : List Word) : (d.complete m st l).notices = d.notices := rfl
@[simp] theorem Dev.complete_packets (d : Dev) (m : Master) (st : Status) (l : List Word) : (d.complete m st l).packets = d.packets := rfl
@[simp] theorem Dev.complete_txns (d : Dev) (m : Master) (st : Status) (l : List Word) : (d.complete m st l).txns = d.txns := rfl
@[simp] theorem Dev.complete_fwait (d : Dev) (m : Master) (st : Status) (l : List Word) : (d.complete m st l).fwait = d.fwait := rfl
@[simp] theorem Dev.complete_frtTurn (d : Dev) (m : Master) (st : Status) (l : List Word) : (d.complete m st l).frtTurn = d.frtTurn := rfl
@[simp] theorem Dev.complete_frtServed (d : Dev) (m : Master) (st : Status) (l : List Word) : (d.complete m st l).frtServed = d.frtServed := rfl
@[simp] theorem Dev.complete_words (d : Dev) (m : Master) (st : Status) (l : List Word) : (d.complete m st l).words = d.words := rfl
@[simp] theorem Dev.complete_bankHeld (d : Dev) (m : Master) (st : Status) (l : List Word) : (d.complete m st l).bankHeld = d.bankHeld := rfl
@[simp] theorem Dev.complete_accNext (d : Dev) (m : Master) (st : Status) (l : List Word) : (d.complete m st l).accNext = d.accNext := rfl
@[simp] theorem Dev.complete_streamers (d : Dev) (m : Master) (st : Status) (l : List Word) : (d.complete m st l).streamers = d.streamers := rfl
@[simp] theorem Dev.complete_qnt (d : Dev) (m : Master) (st : Status) (l : List Word) : (d.complete m st l).qnt = d.qnt := rfl
@[simp] theorem Dev.complete_prjs (d : Dev) (m : Master) (st : Status) (l : List Word) : (d.complete m st l).prjs = d.prjs := rfl
@[simp] theorem Dev.complete_link (d : Dev) (m : Master) (st : Status) (l : List Word) : (d.complete m st l).link = d.link := rfl
@[simp] theorem Dev.complete_rings (d : Dev) (m : Master) (st : Status) (l : List Word) : (d.complete m st l).rings = d.rings := rfl
@[simp] theorem Dev.complete_encBase (d : Dev) (m : Master) (st : Status) (l : List Word) : (d.complete m st l).encBase = d.encBase := rfl
@[simp] theorem Dev.complete_encSt (d : Dev) (m : Master) (st : Status) (l : List Word) : (d.complete m st l).encSt = d.encSt := rfl
@[simp] theorem Dev.complete_encCnt (d : Dev) (m : Master) (st : Status) (l : List Word) : (d.complete m st l).encCnt = d.encCnt := rfl
@[simp] theorem Dev.complete_decs (d : Dev) (m : Master) (st : Status) (l : List Word) : (d.complete m st l).decs = d.decs := rfl
@[simp] theorem Dev.complete_trunks (d : Dev) (m : Master) (st : Status) (l : List Word) : (d.complete m st l).trunks = d.trunks := rfl
@[simp] theorem Dev.complete_sys (d : Dev) (m : Master) (st : Status) (l : List Word) : (d.complete m st l).sys = d.sys := rfl
@[simp] theorem Dev.complete_tpl (d : Dev) (m : Master) (st : Status) (l : List Word) : (d.complete m st l).tpl = d.tpl := rfl
@[simp] theorem Dev.complete_cores (d : Dev) (m : Master) (st : Status) (l : List Word) : (d.complete m st l).cores = d.cores := rfl
@[simp] theorem Dev.complete_coreMem (d : Dev) (m : Master) (st : Status) (l : List Word) : (d.complete m st l).coreMem = d.coreMem := rfl
@[simp] theorem Dev.complete_chn (d : Dev) (m : Master) (st : Status) (l : List Word) : (d.complete m st l).chn = d.chn := rfl
@[simp] theorem Dev.complete_irq (d : Dev) (m : Master) (st : Status) (l : List Word) : (d.complete m st l).irq = d.irq := rfl
@[simp] theorem Dev.complete_timers (d : Dev) (m : Master) (st : Status) (l : List Word) : (d.complete m st l).timers = d.timers := rfl
@[simp] theorem Dev.complete_sdma (d : Dev) (m : Master) (st : Status) (l : List Word) : (d.complete m st l).sdma = d.sdma := rfl
@[simp] theorem Dev.complete_sdmaNext (d : Dev) (m : Master) (st : Status) (l : List Word) : (d.complete m st l).sdmaNext = d.sdmaNext := rfl
@[simp] theorem Dev.complete_sdmaCpl (d : Dev) (m : Master) (st : Status) (l : List Word) : (d.complete m st l).sdmaCpl = d.sdmaCpl := rfl
@[simp] theorem Dev.complete_mbt (d : Dev) (m : Master) (st : Status) (l : List Word) : (d.complete m st l).mbt = d.mbt := rfl
@[simp] theorem Dev.complete_spares (d : Dev) (m : Master) (st : Status) (l : List Word) : (d.complete m st l).spares = d.spares := rfl
@[simp] theorem Dev.complete_tok (d : Dev) (m : Master) (st : Status) (l : List Word) : (d.complete m st l).tok = d.tok := rfl
@[simp] theorem Dev.complete_vfab (d : Dev) (m : Master) (st : Status) (l : List Word) : (d.complete m st l).vfab = d.vfab := rfl
@[simp] theorem Dev.complete_pwr (d : Dev) (m : Master) (st : Status) (l : List Word) : (d.complete m st l).pwr = d.pwr := rfl
@[simp] theorem Dev.complete_boot (d : Dev) (m : Master) (st : Status) (l : List Word) : (d.complete m st l).boot = d.boot := rfl
@[simp] theorem Dev.complete_rst (d : Dev) (m : Master) (st : Status) (l : List Word) : (d.complete m st l).rst = d.rst := rfl
@[simp] theorem Dev.complete_locked (d : Dev) (m : Master) (st : Status) (l : List Word) : (d.complete m st l).locked = d.locked := rfl
@[simp] theorem Dev.complete_switches (d : Dev) (m : Master) (st : Status) (l : List Word) : (d.complete m st l).switches = d.switches := rfl
@[simp] theorem Dev.complete_xchWant (d : Dev) (m : Master) (st : Status) (l : List Word) : (d.complete m st l).xchWant = d.xchWant := rfl
@[simp] theorem Dev.complete_fwu (d : Dev) (m : Master) (st : Status) (l : List Word) : (d.complete m st l).fwu = d.fwu := rfl
@[simp] theorem Dev.complete_microcode (d : Dev) (m : Master) (st : Status) (l : List Word) : (d.complete m st l).microcode = d.microcode := rfl
@[simp] theorem Dev.complete_training (d : Dev) (m : Master) (st : Status) (l : List Word) : (d.complete m st l).training = d.training := rfl
@[simp] theorem Dev.complete_jtag (d : Dev) (m : Master) (st : Status) (l : List Word) : (d.complete m st l).jtag = d.jtag := rfl
@[simp] theorem Dev.complete_pins (d : Dev) (m : Master) (st : Status) (l : List Word) : (d.complete m st l).pins = d.pins := rfl
@[simp] theorem Dev.complete_araDone (d : Dev) (m : Master) (st : Status) (l : List Word) : (d.complete m st l).araDone = d.araDone := rfl
@[simp] theorem Dev.complete_smbUse (d : Dev) (m : Master) (st : Status) (l : List Word) : (d.complete m st l).smbUse = d.smbUse := rfl
@[simp] theorem Dev.complete_sbclk (d : Dev) (m : Master) (st : Status) (l : List Word) : (d.complete m st l).sbclk = d.sbclk := rfl
@[simp] theorem Dev.complete_powered (d : Dev) (m : Master) (st : Status) (l : List Word) : (d.complete m st l).powered = d.powered := rfl
@[simp] theorem Dev.complete_fwdClk (d : Dev) (m : Master) (st : Status) (l : List Word) : (d.complete m st l).fwdClk = d.fwdClk := rfl
@[simp] theorem Dev.complete_now (d : Dev) (m : Master) (st : Status) (l : List Word) : (d.complete m st l).now = d.now := rfl
@[simp] theorem Dev.complete_freeCtr (d : Dev) (m : Master) (st : Status) (l : List Word) : (d.complete m st l).freeCtr = d.freeCtr := rfl

@[simp] theorem Dev.setSW_regs (d : Dev) (p o : Nat) (v : Word) : (d.setSW p o v).regs = d.regs := rfl
@[simp] theorem Dev.setSW_mregs (d : Dev) (p o : Nat) (v : Word) : (d.setSW p o v).mregs = d.mregs := rfl
@[simp] theorem Dev.setSW_latches (d : Dev) (p o : Nat) (v : Word) : (d.setSW p o v).latches = d.latches := rfl
@[simp] theorem Dev.setSW_compl (d : Dev) (p o : Nat) (v : Word) : (d.setSW p o v).compl = d.compl := rfl
@[simp] theorem Dev.setSW_stnM (d : Dev) (p o : Nat) (v : Word) : (d.setSW p o v).stnM = d.stnM := rfl
@[simp] theorem Dev.setSW_stns (d : Dev) (p o : Nat) (v : Word) : (d.setSW p o v).stns = d.stns := rfl
@[simp] theorem Dev.setSW_worlds (d : Dev) (p o : Nat) (v : Word) : (d.setSW p o v).worlds = d.worlds := rfl
@[simp] theorem Dev.setSW_wregs (d : Dev) (p o : Nat) (v : Word) : (d.setSW p o v).wregs = d.wregs := rfl
@[simp] theorem Dev.setSW_edgeTab (d : Dev) (p o : Nat) (v : Word) : (d.setSW p o v).edgeTab = d.edgeTab := rfl
@[simp] theorem Dev.setSW_edgeCnt (d : Dev) (p o : Nat) (v : Word) : (d.setSW p o v).edgeCnt = d.edgeCnt := rfl
@[simp] theorem Dev.setSW_edgeBuf (d : Dev) (p o : Nat) (v : Word) : (d.setSW p o v).edgeBuf = d.edgeBuf := rfl
@[simp] theorem Dev.setSW_injNext (d : Dev) (p o : Nat) (v : Word) : (d.setSW p o v).injNext = d.injNext := rfl
@[simp] theorem Dev.setSW_notices (d : Dev) (p o : Nat) (v : Word) : (d.setSW p o v).notices = d.notices := rfl
@[simp] theorem Dev.setSW_packets (d : Dev) (p o : Nat) (v : Word) : (d.setSW p o v).packets = d.packets := rfl
@[simp] theorem Dev.setSW_txns (d : Dev) (p o : Nat) (v : Word) : (d.setSW p o v).txns = d.txns := rfl
@[simp] theorem Dev.setSW_fwait (d : Dev) (p o : Nat) (v : Word) : (d.setSW p o v).fwait = d.fwait := rfl
@[simp] theorem Dev.setSW_frtTurn (d : Dev) (p o : Nat) (v : Word) : (d.setSW p o v).frtTurn = d.frtTurn := rfl
@[simp] theorem Dev.setSW_frtServed (d : Dev) (p o : Nat) (v : Word) : (d.setSW p o v).frtServed = d.frtServed := rfl
@[simp] theorem Dev.setSW_words (d : Dev) (p o : Nat) (v : Word) : (d.setSW p o v).words = d.words := rfl
@[simp] theorem Dev.setSW_bankHeld (d : Dev) (p o : Nat) (v : Word) : (d.setSW p o v).bankHeld = d.bankHeld := rfl
@[simp] theorem Dev.setSW_accNext (d : Dev) (p o : Nat) (v : Word) : (d.setSW p o v).accNext = d.accNext := rfl
@[simp] theorem Dev.setSW_streamers (d : Dev) (p o : Nat) (v : Word) : (d.setSW p o v).streamers = d.streamers := rfl
@[simp] theorem Dev.setSW_qnt (d : Dev) (p o : Nat) (v : Word) : (d.setSW p o v).qnt = d.qnt := rfl
@[simp] theorem Dev.setSW_prjs (d : Dev) (p o : Nat) (v : Word) : (d.setSW p o v).prjs = d.prjs := rfl
@[simp] theorem Dev.setSW_link (d : Dev) (p o : Nat) (v : Word) : (d.setSW p o v).link = d.link := rfl
@[simp] theorem Dev.setSW_rings (d : Dev) (p o : Nat) (v : Word) : (d.setSW p o v).rings = d.rings := rfl
@[simp] theorem Dev.setSW_encBase (d : Dev) (p o : Nat) (v : Word) : (d.setSW p o v).encBase = d.encBase := rfl
@[simp] theorem Dev.setSW_encSt (d : Dev) (p o : Nat) (v : Word) : (d.setSW p o v).encSt = d.encSt := rfl
@[simp] theorem Dev.setSW_encCnt (d : Dev) (p o : Nat) (v : Word) : (d.setSW p o v).encCnt = d.encCnt := rfl
@[simp] theorem Dev.setSW_decs (d : Dev) (p o : Nat) (v : Word) : (d.setSW p o v).decs = d.decs := rfl
@[simp] theorem Dev.setSW_trunks (d : Dev) (p o : Nat) (v : Word) : (d.setSW p o v).trunks = d.trunks := rfl
@[simp] theorem Dev.setSW_sys (d : Dev) (p o : Nat) (v : Word) : (d.setSW p o v).sys = d.sys := rfl
@[simp] theorem Dev.setSW_tpl (d : Dev) (p o : Nat) (v : Word) : (d.setSW p o v).tpl = d.tpl := rfl
@[simp] theorem Dev.setSW_cores (d : Dev) (p o : Nat) (v : Word) : (d.setSW p o v).cores = d.cores := rfl
@[simp] theorem Dev.setSW_coreMem (d : Dev) (p o : Nat) (v : Word) : (d.setSW p o v).coreMem = d.coreMem := rfl
@[simp] theorem Dev.setSW_chn (d : Dev) (p o : Nat) (v : Word) : (d.setSW p o v).chn = d.chn := rfl
@[simp] theorem Dev.setSW_irq (d : Dev) (p o : Nat) (v : Word) : (d.setSW p o v).irq = d.irq := rfl
@[simp] theorem Dev.setSW_timers (d : Dev) (p o : Nat) (v : Word) : (d.setSW p o v).timers = d.timers := rfl
@[simp] theorem Dev.setSW_sdma (d : Dev) (p o : Nat) (v : Word) : (d.setSW p o v).sdma = d.sdma := rfl
@[simp] theorem Dev.setSW_sdmaNext (d : Dev) (p o : Nat) (v : Word) : (d.setSW p o v).sdmaNext = d.sdmaNext := rfl
@[simp] theorem Dev.setSW_sdmaCpl (d : Dev) (p o : Nat) (v : Word) : (d.setSW p o v).sdmaCpl = d.sdmaCpl := rfl
@[simp] theorem Dev.setSW_mbt (d : Dev) (p o : Nat) (v : Word) : (d.setSW p o v).mbt = d.mbt := rfl
@[simp] theorem Dev.setSW_spares (d : Dev) (p o : Nat) (v : Word) : (d.setSW p o v).spares = d.spares := rfl
@[simp] theorem Dev.setSW_tok (d : Dev) (p o : Nat) (v : Word) : (d.setSW p o v).tok = d.tok := rfl
@[simp] theorem Dev.setSW_vfab (d : Dev) (p o : Nat) (v : Word) : (d.setSW p o v).vfab = d.vfab := rfl
@[simp] theorem Dev.setSW_pwr (d : Dev) (p o : Nat) (v : Word) : (d.setSW p o v).pwr = d.pwr := rfl
@[simp] theorem Dev.setSW_boot (d : Dev) (p o : Nat) (v : Word) : (d.setSW p o v).boot = d.boot := rfl
@[simp] theorem Dev.setSW_rst (d : Dev) (p o : Nat) (v : Word) : (d.setSW p o v).rst = d.rst := rfl
@[simp] theorem Dev.setSW_locked (d : Dev) (p o : Nat) (v : Word) : (d.setSW p o v).locked = d.locked := rfl
@[simp] theorem Dev.setSW_switches (d : Dev) (p o : Nat) (v : Word) : (d.setSW p o v).switches = d.switches := rfl
@[simp] theorem Dev.setSW_xchWant (d : Dev) (p o : Nat) (v : Word) : (d.setSW p o v).xchWant = d.xchWant := rfl
@[simp] theorem Dev.setSW_fwu (d : Dev) (p o : Nat) (v : Word) : (d.setSW p o v).fwu = d.fwu := rfl
@[simp] theorem Dev.setSW_microcode (d : Dev) (p o : Nat) (v : Word) : (d.setSW p o v).microcode = d.microcode := rfl
@[simp] theorem Dev.setSW_training (d : Dev) (p o : Nat) (v : Word) : (d.setSW p o v).training = d.training := rfl
@[simp] theorem Dev.setSW_jtag (d : Dev) (p o : Nat) (v : Word) : (d.setSW p o v).jtag = d.jtag := rfl
@[simp] theorem Dev.setSW_pins (d : Dev) (p o : Nat) (v : Word) : (d.setSW p o v).pins = d.pins := rfl
@[simp] theorem Dev.setSW_araDone (d : Dev) (p o : Nat) (v : Word) : (d.setSW p o v).araDone = d.araDone := rfl
@[simp] theorem Dev.setSW_smbUse (d : Dev) (p o : Nat) (v : Word) : (d.setSW p o v).smbUse = d.smbUse := rfl
@[simp] theorem Dev.setSW_sbclk (d : Dev) (p o : Nat) (v : Word) : (d.setSW p o v).sbclk = d.sbclk := rfl
@[simp] theorem Dev.setSW_powered (d : Dev) (p o : Nat) (v : Word) : (d.setSW p o v).powered = d.powered := rfl
@[simp] theorem Dev.setSW_fwdClk (d : Dev) (p o : Nat) (v : Word) : (d.setSW p o v).fwdClk = d.fwdClk := rfl
@[simp] theorem Dev.setSW_now (d : Dev) (p o : Nat) (v : Word) : (d.setSW p o v).now = d.now := rfl
@[simp] theorem Dev.setSW_freeCtr (d : Dev) (p o : Nat) (v : Word) : (d.setSW p o v).freeCtr = d.freeCtr := rfl

@[simp] theorem Dev.setSM_regs (d : Dev) (p o : Nat) (v : Word) : (d.setSM p o v).regs = d.regs := rfl
@[simp] theorem Dev.setSM_mregs (d : Dev) (p o : Nat) (v : Word) : (d.setSM p o v).mregs = d.mregs := rfl
@[simp] theorem Dev.setSM_latches (d : Dev) (p o : Nat) (v : Word) : (d.setSM p o v).latches = d.latches := rfl
@[simp] theorem Dev.setSM_compl (d : Dev) (p o : Nat) (v : Word) : (d.setSM p o v).compl = d.compl := rfl
@[simp] theorem Dev.setSM_stnW (d : Dev) (p o : Nat) (v : Word) : (d.setSM p o v).stnW = d.stnW := rfl
@[simp] theorem Dev.setSM_stns (d : Dev) (p o : Nat) (v : Word) : (d.setSM p o v).stns = d.stns := rfl
@[simp] theorem Dev.setSM_worlds (d : Dev) (p o : Nat) (v : Word) : (d.setSM p o v).worlds = d.worlds := rfl
@[simp] theorem Dev.setSM_wregs (d : Dev) (p o : Nat) (v : Word) : (d.setSM p o v).wregs = d.wregs := rfl
@[simp] theorem Dev.setSM_edgeTab (d : Dev) (p o : Nat) (v : Word) : (d.setSM p o v).edgeTab = d.edgeTab := rfl
@[simp] theorem Dev.setSM_edgeCnt (d : Dev) (p o : Nat) (v : Word) : (d.setSM p o v).edgeCnt = d.edgeCnt := rfl
@[simp] theorem Dev.setSM_edgeBuf (d : Dev) (p o : Nat) (v : Word) : (d.setSM p o v).edgeBuf = d.edgeBuf := rfl
@[simp] theorem Dev.setSM_injNext (d : Dev) (p o : Nat) (v : Word) : (d.setSM p o v).injNext = d.injNext := rfl
@[simp] theorem Dev.setSM_notices (d : Dev) (p o : Nat) (v : Word) : (d.setSM p o v).notices = d.notices := rfl
@[simp] theorem Dev.setSM_packets (d : Dev) (p o : Nat) (v : Word) : (d.setSM p o v).packets = d.packets := rfl
@[simp] theorem Dev.setSM_txns (d : Dev) (p o : Nat) (v : Word) : (d.setSM p o v).txns = d.txns := rfl
@[simp] theorem Dev.setSM_fwait (d : Dev) (p o : Nat) (v : Word) : (d.setSM p o v).fwait = d.fwait := rfl
@[simp] theorem Dev.setSM_frtTurn (d : Dev) (p o : Nat) (v : Word) : (d.setSM p o v).frtTurn = d.frtTurn := rfl
@[simp] theorem Dev.setSM_frtServed (d : Dev) (p o : Nat) (v : Word) : (d.setSM p o v).frtServed = d.frtServed := rfl
@[simp] theorem Dev.setSM_words (d : Dev) (p o : Nat) (v : Word) : (d.setSM p o v).words = d.words := rfl
@[simp] theorem Dev.setSM_bankHeld (d : Dev) (p o : Nat) (v : Word) : (d.setSM p o v).bankHeld = d.bankHeld := rfl
@[simp] theorem Dev.setSM_accNext (d : Dev) (p o : Nat) (v : Word) : (d.setSM p o v).accNext = d.accNext := rfl
@[simp] theorem Dev.setSM_streamers (d : Dev) (p o : Nat) (v : Word) : (d.setSM p o v).streamers = d.streamers := rfl
@[simp] theorem Dev.setSM_qnt (d : Dev) (p o : Nat) (v : Word) : (d.setSM p o v).qnt = d.qnt := rfl
@[simp] theorem Dev.setSM_prjs (d : Dev) (p o : Nat) (v : Word) : (d.setSM p o v).prjs = d.prjs := rfl
@[simp] theorem Dev.setSM_link (d : Dev) (p o : Nat) (v : Word) : (d.setSM p o v).link = d.link := rfl
@[simp] theorem Dev.setSM_rings (d : Dev) (p o : Nat) (v : Word) : (d.setSM p o v).rings = d.rings := rfl
@[simp] theorem Dev.setSM_encBase (d : Dev) (p o : Nat) (v : Word) : (d.setSM p o v).encBase = d.encBase := rfl
@[simp] theorem Dev.setSM_encSt (d : Dev) (p o : Nat) (v : Word) : (d.setSM p o v).encSt = d.encSt := rfl
@[simp] theorem Dev.setSM_encCnt (d : Dev) (p o : Nat) (v : Word) : (d.setSM p o v).encCnt = d.encCnt := rfl
@[simp] theorem Dev.setSM_decs (d : Dev) (p o : Nat) (v : Word) : (d.setSM p o v).decs = d.decs := rfl
@[simp] theorem Dev.setSM_trunks (d : Dev) (p o : Nat) (v : Word) : (d.setSM p o v).trunks = d.trunks := rfl
@[simp] theorem Dev.setSM_sys (d : Dev) (p o : Nat) (v : Word) : (d.setSM p o v).sys = d.sys := rfl
@[simp] theorem Dev.setSM_tpl (d : Dev) (p o : Nat) (v : Word) : (d.setSM p o v).tpl = d.tpl := rfl
@[simp] theorem Dev.setSM_cores (d : Dev) (p o : Nat) (v : Word) : (d.setSM p o v).cores = d.cores := rfl
@[simp] theorem Dev.setSM_coreMem (d : Dev) (p o : Nat) (v : Word) : (d.setSM p o v).coreMem = d.coreMem := rfl
@[simp] theorem Dev.setSM_chn (d : Dev) (p o : Nat) (v : Word) : (d.setSM p o v).chn = d.chn := rfl
@[simp] theorem Dev.setSM_irq (d : Dev) (p o : Nat) (v : Word) : (d.setSM p o v).irq = d.irq := rfl
@[simp] theorem Dev.setSM_timers (d : Dev) (p o : Nat) (v : Word) : (d.setSM p o v).timers = d.timers := rfl
@[simp] theorem Dev.setSM_sdma (d : Dev) (p o : Nat) (v : Word) : (d.setSM p o v).sdma = d.sdma := rfl
@[simp] theorem Dev.setSM_sdmaNext (d : Dev) (p o : Nat) (v : Word) : (d.setSM p o v).sdmaNext = d.sdmaNext := rfl
@[simp] theorem Dev.setSM_sdmaCpl (d : Dev) (p o : Nat) (v : Word) : (d.setSM p o v).sdmaCpl = d.sdmaCpl := rfl
@[simp] theorem Dev.setSM_mbt (d : Dev) (p o : Nat) (v : Word) : (d.setSM p o v).mbt = d.mbt := rfl
@[simp] theorem Dev.setSM_spares (d : Dev) (p o : Nat) (v : Word) : (d.setSM p o v).spares = d.spares := rfl
@[simp] theorem Dev.setSM_tok (d : Dev) (p o : Nat) (v : Word) : (d.setSM p o v).tok = d.tok := rfl
@[simp] theorem Dev.setSM_vfab (d : Dev) (p o : Nat) (v : Word) : (d.setSM p o v).vfab = d.vfab := rfl
@[simp] theorem Dev.setSM_pwr (d : Dev) (p o : Nat) (v : Word) : (d.setSM p o v).pwr = d.pwr := rfl
@[simp] theorem Dev.setSM_boot (d : Dev) (p o : Nat) (v : Word) : (d.setSM p o v).boot = d.boot := rfl
@[simp] theorem Dev.setSM_rst (d : Dev) (p o : Nat) (v : Word) : (d.setSM p o v).rst = d.rst := rfl
@[simp] theorem Dev.setSM_locked (d : Dev) (p o : Nat) (v : Word) : (d.setSM p o v).locked = d.locked := rfl
@[simp] theorem Dev.setSM_switches (d : Dev) (p o : Nat) (v : Word) : (d.setSM p o v).switches = d.switches := rfl
@[simp] theorem Dev.setSM_xchWant (d : Dev) (p o : Nat) (v : Word) : (d.setSM p o v).xchWant = d.xchWant := rfl
@[simp] theorem Dev.setSM_fwu (d : Dev) (p o : Nat) (v : Word) : (d.setSM p o v).fwu = d.fwu := rfl
@[simp] theorem Dev.setSM_microcode (d : Dev) (p o : Nat) (v : Word) : (d.setSM p o v).microcode = d.microcode := rfl
@[simp] theorem Dev.setSM_training (d : Dev) (p o : Nat) (v : Word) : (d.setSM p o v).training = d.training := rfl
@[simp] theorem Dev.setSM_jtag (d : Dev) (p o : Nat) (v : Word) : (d.setSM p o v).jtag = d.jtag := rfl
@[simp] theorem Dev.setSM_pins (d : Dev) (p o : Nat) (v : Word) : (d.setSM p o v).pins = d.pins := rfl
@[simp] theorem Dev.setSM_araDone (d : Dev) (p o : Nat) (v : Word) : (d.setSM p o v).araDone = d.araDone := rfl
@[simp] theorem Dev.setSM_smbUse (d : Dev) (p o : Nat) (v : Word) : (d.setSM p o v).smbUse = d.smbUse := rfl
@[simp] theorem Dev.setSM_sbclk (d : Dev) (p o : Nat) (v : Word) : (d.setSM p o v).sbclk = d.sbclk := rfl
@[simp] theorem Dev.setSM_powered (d : Dev) (p o : Nat) (v : Word) : (d.setSM p o v).powered = d.powered := rfl
@[simp] theorem Dev.setSM_fwdClk (d : Dev) (p o : Nat) (v : Word) : (d.setSM p o v).fwdClk = d.fwdClk := rfl
@[simp] theorem Dev.setSM_now (d : Dev) (p o : Nat) (v : Word) : (d.setSM p o v).now = d.now := rfl
@[simp] theorem Dev.setSM_freeCtr (d : Dev) (p o : Nat) (v : Word) : (d.setSM p o v).freeCtr = d.freeCtr := rfl

@[simp] theorem Dev.setStn_regs (d : Dev) (p : Nat) (x : Station) : (d.setStn p x).regs = d.regs := rfl
@[simp] theorem Dev.setStn_mregs (d : Dev) (p : Nat) (x : Station) : (d.setStn p x).mregs = d.mregs := rfl
@[simp] theorem Dev.setStn_latches (d : Dev) (p : Nat) (x : Station) : (d.setStn p x).latches = d.latches := rfl
@[simp] theorem Dev.setStn_compl (d : Dev) (p : Nat) (x : Station) : (d.setStn p x).compl = d.compl := rfl
@[simp] theorem Dev.setStn_stnW (d : Dev) (p : Nat) (x : Station) : (d.setStn p x).stnW = d.stnW := rfl
@[simp] theorem Dev.setStn_stnM (d : Dev) (p : Nat) (x : Station) : (d.setStn p x).stnM = d.stnM := rfl
@[simp] theorem Dev.setStn_worlds (d : Dev) (p : Nat) (x : Station) : (d.setStn p x).worlds = d.worlds := rfl
@[simp] theorem Dev.setStn_wregs (d : Dev) (p : Nat) (x : Station) : (d.setStn p x).wregs = d.wregs := rfl
@[simp] theorem Dev.setStn_edgeTab (d : Dev) (p : Nat) (x : Station) : (d.setStn p x).edgeTab = d.edgeTab := rfl
@[simp] theorem Dev.setStn_edgeCnt (d : Dev) (p : Nat) (x : Station) : (d.setStn p x).edgeCnt = d.edgeCnt := rfl
@[simp] theorem Dev.setStn_edgeBuf (d : Dev) (p : Nat) (x : Station) : (d.setStn p x).edgeBuf = d.edgeBuf := rfl
@[simp] theorem Dev.setStn_injNext (d : Dev) (p : Nat) (x : Station) : (d.setStn p x).injNext = d.injNext := rfl
@[simp] theorem Dev.setStn_notices (d : Dev) (p : Nat) (x : Station) : (d.setStn p x).notices = d.notices := rfl
@[simp] theorem Dev.setStn_packets (d : Dev) (p : Nat) (x : Station) : (d.setStn p x).packets = d.packets := rfl
@[simp] theorem Dev.setStn_txns (d : Dev) (p : Nat) (x : Station) : (d.setStn p x).txns = d.txns := rfl
@[simp] theorem Dev.setStn_fwait (d : Dev) (p : Nat) (x : Station) : (d.setStn p x).fwait = d.fwait := rfl
@[simp] theorem Dev.setStn_frtTurn (d : Dev) (p : Nat) (x : Station) : (d.setStn p x).frtTurn = d.frtTurn := rfl
@[simp] theorem Dev.setStn_frtServed (d : Dev) (p : Nat) (x : Station) : (d.setStn p x).frtServed = d.frtServed := rfl
@[simp] theorem Dev.setStn_words (d : Dev) (p : Nat) (x : Station) : (d.setStn p x).words = d.words := rfl
@[simp] theorem Dev.setStn_bankHeld (d : Dev) (p : Nat) (x : Station) : (d.setStn p x).bankHeld = d.bankHeld := rfl
@[simp] theorem Dev.setStn_accNext (d : Dev) (p : Nat) (x : Station) : (d.setStn p x).accNext = d.accNext := rfl
@[simp] theorem Dev.setStn_streamers (d : Dev) (p : Nat) (x : Station) : (d.setStn p x).streamers = d.streamers := rfl
@[simp] theorem Dev.setStn_qnt (d : Dev) (p : Nat) (x : Station) : (d.setStn p x).qnt = d.qnt := rfl
@[simp] theorem Dev.setStn_prjs (d : Dev) (p : Nat) (x : Station) : (d.setStn p x).prjs = d.prjs := rfl
@[simp] theorem Dev.setStn_link (d : Dev) (p : Nat) (x : Station) : (d.setStn p x).link = d.link := rfl
@[simp] theorem Dev.setStn_rings (d : Dev) (p : Nat) (x : Station) : (d.setStn p x).rings = d.rings := rfl
@[simp] theorem Dev.setStn_encBase (d : Dev) (p : Nat) (x : Station) : (d.setStn p x).encBase = d.encBase := rfl
@[simp] theorem Dev.setStn_encSt (d : Dev) (p : Nat) (x : Station) : (d.setStn p x).encSt = d.encSt := rfl
@[simp] theorem Dev.setStn_encCnt (d : Dev) (p : Nat) (x : Station) : (d.setStn p x).encCnt = d.encCnt := rfl
@[simp] theorem Dev.setStn_decs (d : Dev) (p : Nat) (x : Station) : (d.setStn p x).decs = d.decs := rfl
@[simp] theorem Dev.setStn_trunks (d : Dev) (p : Nat) (x : Station) : (d.setStn p x).trunks = d.trunks := rfl
@[simp] theorem Dev.setStn_sys (d : Dev) (p : Nat) (x : Station) : (d.setStn p x).sys = d.sys := rfl
@[simp] theorem Dev.setStn_tpl (d : Dev) (p : Nat) (x : Station) : (d.setStn p x).tpl = d.tpl := rfl
@[simp] theorem Dev.setStn_cores (d : Dev) (p : Nat) (x : Station) : (d.setStn p x).cores = d.cores := rfl
@[simp] theorem Dev.setStn_coreMem (d : Dev) (p : Nat) (x : Station) : (d.setStn p x).coreMem = d.coreMem := rfl
@[simp] theorem Dev.setStn_chn (d : Dev) (p : Nat) (x : Station) : (d.setStn p x).chn = d.chn := rfl
@[simp] theorem Dev.setStn_irq (d : Dev) (p : Nat) (x : Station) : (d.setStn p x).irq = d.irq := rfl
@[simp] theorem Dev.setStn_timers (d : Dev) (p : Nat) (x : Station) : (d.setStn p x).timers = d.timers := rfl
@[simp] theorem Dev.setStn_sdma (d : Dev) (p : Nat) (x : Station) : (d.setStn p x).sdma = d.sdma := rfl
@[simp] theorem Dev.setStn_sdmaNext (d : Dev) (p : Nat) (x : Station) : (d.setStn p x).sdmaNext = d.sdmaNext := rfl
@[simp] theorem Dev.setStn_sdmaCpl (d : Dev) (p : Nat) (x : Station) : (d.setStn p x).sdmaCpl = d.sdmaCpl := rfl
@[simp] theorem Dev.setStn_mbt (d : Dev) (p : Nat) (x : Station) : (d.setStn p x).mbt = d.mbt := rfl
@[simp] theorem Dev.setStn_spares (d : Dev) (p : Nat) (x : Station) : (d.setStn p x).spares = d.spares := rfl
@[simp] theorem Dev.setStn_tok (d : Dev) (p : Nat) (x : Station) : (d.setStn p x).tok = d.tok := rfl
@[simp] theorem Dev.setStn_vfab (d : Dev) (p : Nat) (x : Station) : (d.setStn p x).vfab = d.vfab := rfl
@[simp] theorem Dev.setStn_pwr (d : Dev) (p : Nat) (x : Station) : (d.setStn p x).pwr = d.pwr := rfl
@[simp] theorem Dev.setStn_boot (d : Dev) (p : Nat) (x : Station) : (d.setStn p x).boot = d.boot := rfl
@[simp] theorem Dev.setStn_rst (d : Dev) (p : Nat) (x : Station) : (d.setStn p x).rst = d.rst := rfl
@[simp] theorem Dev.setStn_locked (d : Dev) (p : Nat) (x : Station) : (d.setStn p x).locked = d.locked := rfl
@[simp] theorem Dev.setStn_switches (d : Dev) (p : Nat) (x : Station) : (d.setStn p x).switches = d.switches := rfl
@[simp] theorem Dev.setStn_xchWant (d : Dev) (p : Nat) (x : Station) : (d.setStn p x).xchWant = d.xchWant := rfl
@[simp] theorem Dev.setStn_fwu (d : Dev) (p : Nat) (x : Station) : (d.setStn p x).fwu = d.fwu := rfl
@[simp] theorem Dev.setStn_microcode (d : Dev) (p : Nat) (x : Station) : (d.setStn p x).microcode = d.microcode := rfl
@[simp] theorem Dev.setStn_training (d : Dev) (p : Nat) (x : Station) : (d.setStn p x).training = d.training := rfl
@[simp] theorem Dev.setStn_jtag (d : Dev) (p : Nat) (x : Station) : (d.setStn p x).jtag = d.jtag := rfl
@[simp] theorem Dev.setStn_pins (d : Dev) (p : Nat) (x : Station) : (d.setStn p x).pins = d.pins := rfl
@[simp] theorem Dev.setStn_araDone (d : Dev) (p : Nat) (x : Station) : (d.setStn p x).araDone = d.araDone := rfl
@[simp] theorem Dev.setStn_smbUse (d : Dev) (p : Nat) (x : Station) : (d.setStn p x).smbUse = d.smbUse := rfl
@[simp] theorem Dev.setStn_sbclk (d : Dev) (p : Nat) (x : Station) : (d.setStn p x).sbclk = d.sbclk := rfl
@[simp] theorem Dev.setStn_powered (d : Dev) (p : Nat) (x : Station) : (d.setStn p x).powered = d.powered := rfl
@[simp] theorem Dev.setStn_fwdClk (d : Dev) (p : Nat) (x : Station) : (d.setStn p x).fwdClk = d.fwdClk := rfl
@[simp] theorem Dev.setStn_now (d : Dev) (p : Nat) (x : Station) : (d.setStn p x).now = d.now := rfl
@[simp] theorem Dev.setStn_freeCtr (d : Dev) (p : Nat) (x : Station) : (d.setStn p x).freeCtr = d.freeCtr := rfl

@[simp] theorem Dev.setWld_regs (d : Dev) (w : Nat) (x : World) : (d.setWld w x).regs = d.regs := rfl
@[simp] theorem Dev.setWld_mregs (d : Dev) (w : Nat) (x : World) : (d.setWld w x).mregs = d.mregs := rfl
@[simp] theorem Dev.setWld_latches (d : Dev) (w : Nat) (x : World) : (d.setWld w x).latches = d.latches := rfl
@[simp] theorem Dev.setWld_compl (d : Dev) (w : Nat) (x : World) : (d.setWld w x).compl = d.compl := rfl
@[simp] theorem Dev.setWld_stnW (d : Dev) (w : Nat) (x : World) : (d.setWld w x).stnW = d.stnW := rfl
@[simp] theorem Dev.setWld_stnM (d : Dev) (w : Nat) (x : World) : (d.setWld w x).stnM = d.stnM := rfl
@[simp] theorem Dev.setWld_stns (d : Dev) (w : Nat) (x : World) : (d.setWld w x).stns = d.stns := rfl
@[simp] theorem Dev.setWld_wregs (d : Dev) (w : Nat) (x : World) : (d.setWld w x).wregs = d.wregs := rfl
@[simp] theorem Dev.setWld_edgeTab (d : Dev) (w : Nat) (x : World) : (d.setWld w x).edgeTab = d.edgeTab := rfl
@[simp] theorem Dev.setWld_edgeCnt (d : Dev) (w : Nat) (x : World) : (d.setWld w x).edgeCnt = d.edgeCnt := rfl
@[simp] theorem Dev.setWld_edgeBuf (d : Dev) (w : Nat) (x : World) : (d.setWld w x).edgeBuf = d.edgeBuf := rfl
@[simp] theorem Dev.setWld_injNext (d : Dev) (w : Nat) (x : World) : (d.setWld w x).injNext = d.injNext := rfl
@[simp] theorem Dev.setWld_notices (d : Dev) (w : Nat) (x : World) : (d.setWld w x).notices = d.notices := rfl
@[simp] theorem Dev.setWld_packets (d : Dev) (w : Nat) (x : World) : (d.setWld w x).packets = d.packets := rfl
@[simp] theorem Dev.setWld_txns (d : Dev) (w : Nat) (x : World) : (d.setWld w x).txns = d.txns := rfl
@[simp] theorem Dev.setWld_fwait (d : Dev) (w : Nat) (x : World) : (d.setWld w x).fwait = d.fwait := rfl
@[simp] theorem Dev.setWld_frtTurn (d : Dev) (w : Nat) (x : World) : (d.setWld w x).frtTurn = d.frtTurn := rfl
@[simp] theorem Dev.setWld_frtServed (d : Dev) (w : Nat) (x : World) : (d.setWld w x).frtServed = d.frtServed := rfl
@[simp] theorem Dev.setWld_words (d : Dev) (w : Nat) (x : World) : (d.setWld w x).words = d.words := rfl
@[simp] theorem Dev.setWld_bankHeld (d : Dev) (w : Nat) (x : World) : (d.setWld w x).bankHeld = d.bankHeld := rfl
@[simp] theorem Dev.setWld_accNext (d : Dev) (w : Nat) (x : World) : (d.setWld w x).accNext = d.accNext := rfl
@[simp] theorem Dev.setWld_streamers (d : Dev) (w : Nat) (x : World) : (d.setWld w x).streamers = d.streamers := rfl
@[simp] theorem Dev.setWld_qnt (d : Dev) (w : Nat) (x : World) : (d.setWld w x).qnt = d.qnt := rfl
@[simp] theorem Dev.setWld_prjs (d : Dev) (w : Nat) (x : World) : (d.setWld w x).prjs = d.prjs := rfl
@[simp] theorem Dev.setWld_link (d : Dev) (w : Nat) (x : World) : (d.setWld w x).link = d.link := rfl
@[simp] theorem Dev.setWld_rings (d : Dev) (w : Nat) (x : World) : (d.setWld w x).rings = d.rings := rfl
@[simp] theorem Dev.setWld_encBase (d : Dev) (w : Nat) (x : World) : (d.setWld w x).encBase = d.encBase := rfl
@[simp] theorem Dev.setWld_encSt (d : Dev) (w : Nat) (x : World) : (d.setWld w x).encSt = d.encSt := rfl
@[simp] theorem Dev.setWld_encCnt (d : Dev) (w : Nat) (x : World) : (d.setWld w x).encCnt = d.encCnt := rfl
@[simp] theorem Dev.setWld_decs (d : Dev) (w : Nat) (x : World) : (d.setWld w x).decs = d.decs := rfl
@[simp] theorem Dev.setWld_trunks (d : Dev) (w : Nat) (x : World) : (d.setWld w x).trunks = d.trunks := rfl
@[simp] theorem Dev.setWld_sys (d : Dev) (w : Nat) (x : World) : (d.setWld w x).sys = d.sys := rfl
@[simp] theorem Dev.setWld_tpl (d : Dev) (w : Nat) (x : World) : (d.setWld w x).tpl = d.tpl := rfl
@[simp] theorem Dev.setWld_cores (d : Dev) (w : Nat) (x : World) : (d.setWld w x).cores = d.cores := rfl
@[simp] theorem Dev.setWld_coreMem (d : Dev) (w : Nat) (x : World) : (d.setWld w x).coreMem = d.coreMem := rfl
@[simp] theorem Dev.setWld_chn (d : Dev) (w : Nat) (x : World) : (d.setWld w x).chn = d.chn := rfl
@[simp] theorem Dev.setWld_irq (d : Dev) (w : Nat) (x : World) : (d.setWld w x).irq = d.irq := rfl
@[simp] theorem Dev.setWld_timers (d : Dev) (w : Nat) (x : World) : (d.setWld w x).timers = d.timers := rfl
@[simp] theorem Dev.setWld_sdma (d : Dev) (w : Nat) (x : World) : (d.setWld w x).sdma = d.sdma := rfl
@[simp] theorem Dev.setWld_sdmaNext (d : Dev) (w : Nat) (x : World) : (d.setWld w x).sdmaNext = d.sdmaNext := rfl
@[simp] theorem Dev.setWld_sdmaCpl (d : Dev) (w : Nat) (x : World) : (d.setWld w x).sdmaCpl = d.sdmaCpl := rfl
@[simp] theorem Dev.setWld_mbt (d : Dev) (w : Nat) (x : World) : (d.setWld w x).mbt = d.mbt := rfl
@[simp] theorem Dev.setWld_spares (d : Dev) (w : Nat) (x : World) : (d.setWld w x).spares = d.spares := rfl
@[simp] theorem Dev.setWld_tok (d : Dev) (w : Nat) (x : World) : (d.setWld w x).tok = d.tok := rfl
@[simp] theorem Dev.setWld_vfab (d : Dev) (w : Nat) (x : World) : (d.setWld w x).vfab = d.vfab := rfl
@[simp] theorem Dev.setWld_pwr (d : Dev) (w : Nat) (x : World) : (d.setWld w x).pwr = d.pwr := rfl
@[simp] theorem Dev.setWld_boot (d : Dev) (w : Nat) (x : World) : (d.setWld w x).boot = d.boot := rfl
@[simp] theorem Dev.setWld_rst (d : Dev) (w : Nat) (x : World) : (d.setWld w x).rst = d.rst := rfl
@[simp] theorem Dev.setWld_locked (d : Dev) (w : Nat) (x : World) : (d.setWld w x).locked = d.locked := rfl
@[simp] theorem Dev.setWld_switches (d : Dev) (w : Nat) (x : World) : (d.setWld w x).switches = d.switches := rfl
@[simp] theorem Dev.setWld_xchWant (d : Dev) (w : Nat) (x : World) : (d.setWld w x).xchWant = d.xchWant := rfl
@[simp] theorem Dev.setWld_fwu (d : Dev) (w : Nat) (x : World) : (d.setWld w x).fwu = d.fwu := rfl
@[simp] theorem Dev.setWld_microcode (d : Dev) (w : Nat) (x : World) : (d.setWld w x).microcode = d.microcode := rfl
@[simp] theorem Dev.setWld_training (d : Dev) (w : Nat) (x : World) : (d.setWld w x).training = d.training := rfl
@[simp] theorem Dev.setWld_jtag (d : Dev) (w : Nat) (x : World) : (d.setWld w x).jtag = d.jtag := rfl
@[simp] theorem Dev.setWld_pins (d : Dev) (w : Nat) (x : World) : (d.setWld w x).pins = d.pins := rfl
@[simp] theorem Dev.setWld_araDone (d : Dev) (w : Nat) (x : World) : (d.setWld w x).araDone = d.araDone := rfl
@[simp] theorem Dev.setWld_smbUse (d : Dev) (w : Nat) (x : World) : (d.setWld w x).smbUse = d.smbUse := rfl
@[simp] theorem Dev.setWld_sbclk (d : Dev) (w : Nat) (x : World) : (d.setWld w x).sbclk = d.sbclk := rfl
@[simp] theorem Dev.setWld_powered (d : Dev) (w : Nat) (x : World) : (d.setWld w x).powered = d.powered := rfl
@[simp] theorem Dev.setWld_fwdClk (d : Dev) (w : Nat) (x : World) : (d.setWld w x).fwdClk = d.fwdClk := rfl
@[simp] theorem Dev.setWld_now (d : Dev) (w : Nat) (x : World) : (d.setWld w x).now = d.now := rfl
@[simp] theorem Dev.setWld_freeCtr (d : Dev) (w : Nat) (x : World) : (d.setWld w x).freeCtr = d.freeCtr := rfl

@[simp] theorem Dev.setWreg_regs (d : Dev) (w i : Nat) (v : Word) : (d.setWreg w i v).regs = d.regs := rfl
@[simp] theorem Dev.setWreg_mregs (d : Dev) (w i : Nat) (v : Word) : (d.setWreg w i v).mregs = d.mregs := rfl
@[simp] theorem Dev.setWreg_latches (d : Dev) (w i : Nat) (v : Word) : (d.setWreg w i v).latches = d.latches := rfl
@[simp] theorem Dev.setWreg_compl (d : Dev) (w i : Nat) (v : Word) : (d.setWreg w i v).compl = d.compl := rfl
@[simp] theorem Dev.setWreg_stnW (d : Dev) (w i : Nat) (v : Word) : (d.setWreg w i v).stnW = d.stnW := rfl
@[simp] theorem Dev.setWreg_stnM (d : Dev) (w i : Nat) (v : Word) : (d.setWreg w i v).stnM = d.stnM := rfl
@[simp] theorem Dev.setWreg_stns (d : Dev) (w i : Nat) (v : Word) : (d.setWreg w i v).stns = d.stns := rfl
@[simp] theorem Dev.setWreg_worlds (d : Dev) (w i : Nat) (v : Word) : (d.setWreg w i v).worlds = d.worlds := rfl
@[simp] theorem Dev.setWreg_edgeTab (d : Dev) (w i : Nat) (v : Word) : (d.setWreg w i v).edgeTab = d.edgeTab := rfl
@[simp] theorem Dev.setWreg_edgeCnt (d : Dev) (w i : Nat) (v : Word) : (d.setWreg w i v).edgeCnt = d.edgeCnt := rfl
@[simp] theorem Dev.setWreg_edgeBuf (d : Dev) (w i : Nat) (v : Word) : (d.setWreg w i v).edgeBuf = d.edgeBuf := rfl
@[simp] theorem Dev.setWreg_injNext (d : Dev) (w i : Nat) (v : Word) : (d.setWreg w i v).injNext = d.injNext := rfl
@[simp] theorem Dev.setWreg_notices (d : Dev) (w i : Nat) (v : Word) : (d.setWreg w i v).notices = d.notices := rfl
@[simp] theorem Dev.setWreg_packets (d : Dev) (w i : Nat) (v : Word) : (d.setWreg w i v).packets = d.packets := rfl
@[simp] theorem Dev.setWreg_txns (d : Dev) (w i : Nat) (v : Word) : (d.setWreg w i v).txns = d.txns := rfl
@[simp] theorem Dev.setWreg_fwait (d : Dev) (w i : Nat) (v : Word) : (d.setWreg w i v).fwait = d.fwait := rfl
@[simp] theorem Dev.setWreg_frtTurn (d : Dev) (w i : Nat) (v : Word) : (d.setWreg w i v).frtTurn = d.frtTurn := rfl
@[simp] theorem Dev.setWreg_frtServed (d : Dev) (w i : Nat) (v : Word) : (d.setWreg w i v).frtServed = d.frtServed := rfl
@[simp] theorem Dev.setWreg_words (d : Dev) (w i : Nat) (v : Word) : (d.setWreg w i v).words = d.words := rfl
@[simp] theorem Dev.setWreg_bankHeld (d : Dev) (w i : Nat) (v : Word) : (d.setWreg w i v).bankHeld = d.bankHeld := rfl
@[simp] theorem Dev.setWreg_accNext (d : Dev) (w i : Nat) (v : Word) : (d.setWreg w i v).accNext = d.accNext := rfl
@[simp] theorem Dev.setWreg_streamers (d : Dev) (w i : Nat) (v : Word) : (d.setWreg w i v).streamers = d.streamers := rfl
@[simp] theorem Dev.setWreg_qnt (d : Dev) (w i : Nat) (v : Word) : (d.setWreg w i v).qnt = d.qnt := rfl
@[simp] theorem Dev.setWreg_prjs (d : Dev) (w i : Nat) (v : Word) : (d.setWreg w i v).prjs = d.prjs := rfl
@[simp] theorem Dev.setWreg_link (d : Dev) (w i : Nat) (v : Word) : (d.setWreg w i v).link = d.link := rfl
@[simp] theorem Dev.setWreg_rings (d : Dev) (w i : Nat) (v : Word) : (d.setWreg w i v).rings = d.rings := rfl
@[simp] theorem Dev.setWreg_encBase (d : Dev) (w i : Nat) (v : Word) : (d.setWreg w i v).encBase = d.encBase := rfl
@[simp] theorem Dev.setWreg_encSt (d : Dev) (w i : Nat) (v : Word) : (d.setWreg w i v).encSt = d.encSt := rfl
@[simp] theorem Dev.setWreg_encCnt (d : Dev) (w i : Nat) (v : Word) : (d.setWreg w i v).encCnt = d.encCnt := rfl
@[simp] theorem Dev.setWreg_decs (d : Dev) (w i : Nat) (v : Word) : (d.setWreg w i v).decs = d.decs := rfl
@[simp] theorem Dev.setWreg_trunks (d : Dev) (w i : Nat) (v : Word) : (d.setWreg w i v).trunks = d.trunks := rfl
@[simp] theorem Dev.setWreg_sys (d : Dev) (w i : Nat) (v : Word) : (d.setWreg w i v).sys = d.sys := rfl
@[simp] theorem Dev.setWreg_tpl (d : Dev) (w i : Nat) (v : Word) : (d.setWreg w i v).tpl = d.tpl := rfl
@[simp] theorem Dev.setWreg_cores (d : Dev) (w i : Nat) (v : Word) : (d.setWreg w i v).cores = d.cores := rfl
@[simp] theorem Dev.setWreg_coreMem (d : Dev) (w i : Nat) (v : Word) : (d.setWreg w i v).coreMem = d.coreMem := rfl
@[simp] theorem Dev.setWreg_chn (d : Dev) (w i : Nat) (v : Word) : (d.setWreg w i v).chn = d.chn := rfl
@[simp] theorem Dev.setWreg_irq (d : Dev) (w i : Nat) (v : Word) : (d.setWreg w i v).irq = d.irq := rfl
@[simp] theorem Dev.setWreg_timers (d : Dev) (w i : Nat) (v : Word) : (d.setWreg w i v).timers = d.timers := rfl
@[simp] theorem Dev.setWreg_sdma (d : Dev) (w i : Nat) (v : Word) : (d.setWreg w i v).sdma = d.sdma := rfl
@[simp] theorem Dev.setWreg_sdmaNext (d : Dev) (w i : Nat) (v : Word) : (d.setWreg w i v).sdmaNext = d.sdmaNext := rfl
@[simp] theorem Dev.setWreg_sdmaCpl (d : Dev) (w i : Nat) (v : Word) : (d.setWreg w i v).sdmaCpl = d.sdmaCpl := rfl
@[simp] theorem Dev.setWreg_mbt (d : Dev) (w i : Nat) (v : Word) : (d.setWreg w i v).mbt = d.mbt := rfl
@[simp] theorem Dev.setWreg_spares (d : Dev) (w i : Nat) (v : Word) : (d.setWreg w i v).spares = d.spares := rfl
@[simp] theorem Dev.setWreg_tok (d : Dev) (w i : Nat) (v : Word) : (d.setWreg w i v).tok = d.tok := rfl
@[simp] theorem Dev.setWreg_vfab (d : Dev) (w i : Nat) (v : Word) : (d.setWreg w i v).vfab = d.vfab := rfl
@[simp] theorem Dev.setWreg_pwr (d : Dev) (w i : Nat) (v : Word) : (d.setWreg w i v).pwr = d.pwr := rfl
@[simp] theorem Dev.setWreg_boot (d : Dev) (w i : Nat) (v : Word) : (d.setWreg w i v).boot = d.boot := rfl
@[simp] theorem Dev.setWreg_rst (d : Dev) (w i : Nat) (v : Word) : (d.setWreg w i v).rst = d.rst := rfl
@[simp] theorem Dev.setWreg_locked (d : Dev) (w i : Nat) (v : Word) : (d.setWreg w i v).locked = d.locked := rfl
@[simp] theorem Dev.setWreg_switches (d : Dev) (w i : Nat) (v : Word) : (d.setWreg w i v).switches = d.switches := rfl
@[simp] theorem Dev.setWreg_xchWant (d : Dev) (w i : Nat) (v : Word) : (d.setWreg w i v).xchWant = d.xchWant := rfl
@[simp] theorem Dev.setWreg_fwu (d : Dev) (w i : Nat) (v : Word) : (d.setWreg w i v).fwu = d.fwu := rfl
@[simp] theorem Dev.setWreg_microcode (d : Dev) (w i : Nat) (v : Word) : (d.setWreg w i v).microcode = d.microcode := rfl
@[simp] theorem Dev.setWreg_training (d : Dev) (w i : Nat) (v : Word) : (d.setWreg w i v).training = d.training := rfl
@[simp] theorem Dev.setWreg_jtag (d : Dev) (w i : Nat) (v : Word) : (d.setWreg w i v).jtag = d.jtag := rfl
@[simp] theorem Dev.setWreg_pins (d : Dev) (w i : Nat) (v : Word) : (d.setWreg w i v).pins = d.pins := rfl
@[simp] theorem Dev.setWreg_araDone (d : Dev) (w i : Nat) (v : Word) : (d.setWreg w i v).araDone = d.araDone := rfl
@[simp] theorem Dev.setWreg_smbUse (d : Dev) (w i : Nat) (v : Word) : (d.setWreg w i v).smbUse = d.smbUse := rfl
@[simp] theorem Dev.setWreg_sbclk (d : Dev) (w i : Nat) (v : Word) : (d.setWreg w i v).sbclk = d.sbclk := rfl
@[simp] theorem Dev.setWreg_powered (d : Dev) (w i : Nat) (v : Word) : (d.setWreg w i v).powered = d.powered := rfl
@[simp] theorem Dev.setWreg_fwdClk (d : Dev) (w i : Nat) (v : Word) : (d.setWreg w i v).fwdClk = d.fwdClk := rfl
@[simp] theorem Dev.setWreg_now (d : Dev) (w i : Nat) (v : Word) : (d.setWreg w i v).now = d.now := rfl
@[simp] theorem Dev.setWreg_freeCtr (d : Dev) (w i : Nat) (v : Word) : (d.setWreg w i v).freeCtr = d.freeCtr := rfl

@[simp] theorem Dev.setEbuf_regs (d : Dev) (e q c : Nat) (l : List Copy) : (d.setEbuf e q c l).regs = d.regs := rfl
@[simp] theorem Dev.setEbuf_mregs (d : Dev) (e q c : Nat) (l : List Copy) : (d.setEbuf e q c l).mregs = d.mregs := rfl
@[simp] theorem Dev.setEbuf_latches (d : Dev) (e q c : Nat) (l : List Copy) : (d.setEbuf e q c l).latches = d.latches := rfl
@[simp] theorem Dev.setEbuf_compl (d : Dev) (e q c : Nat) (l : List Copy) : (d.setEbuf e q c l).compl = d.compl := rfl
@[simp] theorem Dev.setEbuf_stnW (d : Dev) (e q c : Nat) (l : List Copy) : (d.setEbuf e q c l).stnW = d.stnW := rfl
@[simp] theorem Dev.setEbuf_stnM (d : Dev) (e q c : Nat) (l : List Copy) : (d.setEbuf e q c l).stnM = d.stnM := rfl
@[simp] theorem Dev.setEbuf_stns (d : Dev) (e q c : Nat) (l : List Copy) : (d.setEbuf e q c l).stns = d.stns := rfl
@[simp] theorem Dev.setEbuf_worlds (d : Dev) (e q c : Nat) (l : List Copy) : (d.setEbuf e q c l).worlds = d.worlds := rfl
@[simp] theorem Dev.setEbuf_wregs (d : Dev) (e q c : Nat) (l : List Copy) : (d.setEbuf e q c l).wregs = d.wregs := rfl
@[simp] theorem Dev.setEbuf_edgeTab (d : Dev) (e q c : Nat) (l : List Copy) : (d.setEbuf e q c l).edgeTab = d.edgeTab := rfl
@[simp] theorem Dev.setEbuf_edgeCnt (d : Dev) (e q c : Nat) (l : List Copy) : (d.setEbuf e q c l).edgeCnt = d.edgeCnt := rfl
@[simp] theorem Dev.setEbuf_injNext (d : Dev) (e q c : Nat) (l : List Copy) : (d.setEbuf e q c l).injNext = d.injNext := rfl
@[simp] theorem Dev.setEbuf_notices (d : Dev) (e q c : Nat) (l : List Copy) : (d.setEbuf e q c l).notices = d.notices := rfl
@[simp] theorem Dev.setEbuf_packets (d : Dev) (e q c : Nat) (l : List Copy) : (d.setEbuf e q c l).packets = d.packets := rfl
@[simp] theorem Dev.setEbuf_txns (d : Dev) (e q c : Nat) (l : List Copy) : (d.setEbuf e q c l).txns = d.txns := rfl
@[simp] theorem Dev.setEbuf_fwait (d : Dev) (e q c : Nat) (l : List Copy) : (d.setEbuf e q c l).fwait = d.fwait := rfl
@[simp] theorem Dev.setEbuf_frtTurn (d : Dev) (e q c : Nat) (l : List Copy) : (d.setEbuf e q c l).frtTurn = d.frtTurn := rfl
@[simp] theorem Dev.setEbuf_frtServed (d : Dev) (e q c : Nat) (l : List Copy) : (d.setEbuf e q c l).frtServed = d.frtServed := rfl
@[simp] theorem Dev.setEbuf_words (d : Dev) (e q c : Nat) (l : List Copy) : (d.setEbuf e q c l).words = d.words := rfl
@[simp] theorem Dev.setEbuf_bankHeld (d : Dev) (e q c : Nat) (l : List Copy) : (d.setEbuf e q c l).bankHeld = d.bankHeld := rfl
@[simp] theorem Dev.setEbuf_accNext (d : Dev) (e q c : Nat) (l : List Copy) : (d.setEbuf e q c l).accNext = d.accNext := rfl
@[simp] theorem Dev.setEbuf_streamers (d : Dev) (e q c : Nat) (l : List Copy) : (d.setEbuf e q c l).streamers = d.streamers := rfl
@[simp] theorem Dev.setEbuf_qnt (d : Dev) (e q c : Nat) (l : List Copy) : (d.setEbuf e q c l).qnt = d.qnt := rfl
@[simp] theorem Dev.setEbuf_prjs (d : Dev) (e q c : Nat) (l : List Copy) : (d.setEbuf e q c l).prjs = d.prjs := rfl
@[simp] theorem Dev.setEbuf_link (d : Dev) (e q c : Nat) (l : List Copy) : (d.setEbuf e q c l).link = d.link := rfl
@[simp] theorem Dev.setEbuf_rings (d : Dev) (e q c : Nat) (l : List Copy) : (d.setEbuf e q c l).rings = d.rings := rfl
@[simp] theorem Dev.setEbuf_encBase (d : Dev) (e q c : Nat) (l : List Copy) : (d.setEbuf e q c l).encBase = d.encBase := rfl
@[simp] theorem Dev.setEbuf_encSt (d : Dev) (e q c : Nat) (l : List Copy) : (d.setEbuf e q c l).encSt = d.encSt := rfl
@[simp] theorem Dev.setEbuf_encCnt (d : Dev) (e q c : Nat) (l : List Copy) : (d.setEbuf e q c l).encCnt = d.encCnt := rfl
@[simp] theorem Dev.setEbuf_decs (d : Dev) (e q c : Nat) (l : List Copy) : (d.setEbuf e q c l).decs = d.decs := rfl
@[simp] theorem Dev.setEbuf_trunks (d : Dev) (e q c : Nat) (l : List Copy) : (d.setEbuf e q c l).trunks = d.trunks := rfl
@[simp] theorem Dev.setEbuf_sys (d : Dev) (e q c : Nat) (l : List Copy) : (d.setEbuf e q c l).sys = d.sys := rfl
@[simp] theorem Dev.setEbuf_tpl (d : Dev) (e q c : Nat) (l : List Copy) : (d.setEbuf e q c l).tpl = d.tpl := rfl
@[simp] theorem Dev.setEbuf_cores (d : Dev) (e q c : Nat) (l : List Copy) : (d.setEbuf e q c l).cores = d.cores := rfl
@[simp] theorem Dev.setEbuf_coreMem (d : Dev) (e q c : Nat) (l : List Copy) : (d.setEbuf e q c l).coreMem = d.coreMem := rfl
@[simp] theorem Dev.setEbuf_chn (d : Dev) (e q c : Nat) (l : List Copy) : (d.setEbuf e q c l).chn = d.chn := rfl
@[simp] theorem Dev.setEbuf_irq (d : Dev) (e q c : Nat) (l : List Copy) : (d.setEbuf e q c l).irq = d.irq := rfl
@[simp] theorem Dev.setEbuf_timers (d : Dev) (e q c : Nat) (l : List Copy) : (d.setEbuf e q c l).timers = d.timers := rfl
@[simp] theorem Dev.setEbuf_sdma (d : Dev) (e q c : Nat) (l : List Copy) : (d.setEbuf e q c l).sdma = d.sdma := rfl
@[simp] theorem Dev.setEbuf_sdmaNext (d : Dev) (e q c : Nat) (l : List Copy) : (d.setEbuf e q c l).sdmaNext = d.sdmaNext := rfl
@[simp] theorem Dev.setEbuf_sdmaCpl (d : Dev) (e q c : Nat) (l : List Copy) : (d.setEbuf e q c l).sdmaCpl = d.sdmaCpl := rfl
@[simp] theorem Dev.setEbuf_mbt (d : Dev) (e q c : Nat) (l : List Copy) : (d.setEbuf e q c l).mbt = d.mbt := rfl
@[simp] theorem Dev.setEbuf_spares (d : Dev) (e q c : Nat) (l : List Copy) : (d.setEbuf e q c l).spares = d.spares := rfl
@[simp] theorem Dev.setEbuf_tok (d : Dev) (e q c : Nat) (l : List Copy) : (d.setEbuf e q c l).tok = d.tok := rfl
@[simp] theorem Dev.setEbuf_vfab (d : Dev) (e q c : Nat) (l : List Copy) : (d.setEbuf e q c l).vfab = d.vfab := rfl
@[simp] theorem Dev.setEbuf_pwr (d : Dev) (e q c : Nat) (l : List Copy) : (d.setEbuf e q c l).pwr = d.pwr := rfl
@[simp] theorem Dev.setEbuf_boot (d : Dev) (e q c : Nat) (l : List Copy) : (d.setEbuf e q c l).boot = d.boot := rfl
@[simp] theorem Dev.setEbuf_rst (d : Dev) (e q c : Nat) (l : List Copy) : (d.setEbuf e q c l).rst = d.rst := rfl
@[simp] theorem Dev.setEbuf_locked (d : Dev) (e q c : Nat) (l : List Copy) : (d.setEbuf e q c l).locked = d.locked := rfl
@[simp] theorem Dev.setEbuf_switches (d : Dev) (e q c : Nat) (l : List Copy) : (d.setEbuf e q c l).switches = d.switches := rfl
@[simp] theorem Dev.setEbuf_xchWant (d : Dev) (e q c : Nat) (l : List Copy) : (d.setEbuf e q c l).xchWant = d.xchWant := rfl
@[simp] theorem Dev.setEbuf_fwu (d : Dev) (e q c : Nat) (l : List Copy) : (d.setEbuf e q c l).fwu = d.fwu := rfl
@[simp] theorem Dev.setEbuf_microcode (d : Dev) (e q c : Nat) (l : List Copy) : (d.setEbuf e q c l).microcode = d.microcode := rfl
@[simp] theorem Dev.setEbuf_training (d : Dev) (e q c : Nat) (l : List Copy) : (d.setEbuf e q c l).training = d.training := rfl
@[simp] theorem Dev.setEbuf_jtag (d : Dev) (e q c : Nat) (l : List Copy) : (d.setEbuf e q c l).jtag = d.jtag := rfl
@[simp] theorem Dev.setEbuf_pins (d : Dev) (e q c : Nat) (l : List Copy) : (d.setEbuf e q c l).pins = d.pins := rfl
@[simp] theorem Dev.setEbuf_araDone (d : Dev) (e q c : Nat) (l : List Copy) : (d.setEbuf e q c l).araDone = d.araDone := rfl
@[simp] theorem Dev.setEbuf_smbUse (d : Dev) (e q c : Nat) (l : List Copy) : (d.setEbuf e q c l).smbUse = d.smbUse := rfl
@[simp] theorem Dev.setEbuf_sbclk (d : Dev) (e q c : Nat) (l : List Copy) : (d.setEbuf e q c l).sbclk = d.sbclk := rfl
@[simp] theorem Dev.setEbuf_powered (d : Dev) (e q c : Nat) (l : List Copy) : (d.setEbuf e q c l).powered = d.powered := rfl
@[simp] theorem Dev.setEbuf_fwdClk (d : Dev) (e q c : Nat) (l : List Copy) : (d.setEbuf e q c l).fwdClk = d.fwdClk := rfl
@[simp] theorem Dev.setEbuf_now (d : Dev) (e q c : Nat) (l : List Copy) : (d.setEbuf e q c l).now = d.now := rfl
@[simp] theorem Dev.setEbuf_freeCtr (d : Dev) (e q c : Nat) (l : List Copy) : (d.setEbuf e q c l).freeCtr = d.freeCtr := rfl

@[simp] theorem Dev.setStreamer_regs (d : Dev) (p : Nat) (x : Streamer) : (d.setStreamer p x).regs = d.regs := rfl
@[simp] theorem Dev.setStreamer_mregs (d : Dev) (p : Nat) (x : Streamer) : (d.setStreamer p x).mregs = d.mregs := rfl
@[simp] theorem Dev.setStreamer_latches (d : Dev) (p : Nat) (x : Streamer) : (d.setStreamer p x).latches = d.latches := rfl
@[simp] theorem Dev.setStreamer_compl (d : Dev) (p : Nat) (x : Streamer) : (d.setStreamer p x).compl = d.compl := rfl
@[simp] theorem Dev.setStreamer_stnW (d : Dev) (p : Nat) (x : Streamer) : (d.setStreamer p x).stnW = d.stnW := rfl
@[simp] theorem Dev.setStreamer_stnM (d : Dev) (p : Nat) (x : Streamer) : (d.setStreamer p x).stnM = d.stnM := rfl
@[simp] theorem Dev.setStreamer_stns (d : Dev) (p : Nat) (x : Streamer) : (d.setStreamer p x).stns = d.stns := rfl
@[simp] theorem Dev.setStreamer_worlds (d : Dev) (p : Nat) (x : Streamer) : (d.setStreamer p x).worlds = d.worlds := rfl
@[simp] theorem Dev.setStreamer_wregs (d : Dev) (p : Nat) (x : Streamer) : (d.setStreamer p x).wregs = d.wregs := rfl
@[simp] theorem Dev.setStreamer_edgeTab (d : Dev) (p : Nat) (x : Streamer) : (d.setStreamer p x).edgeTab = d.edgeTab := rfl
@[simp] theorem Dev.setStreamer_edgeCnt (d : Dev) (p : Nat) (x : Streamer) : (d.setStreamer p x).edgeCnt = d.edgeCnt := rfl
@[simp] theorem Dev.setStreamer_edgeBuf (d : Dev) (p : Nat) (x : Streamer) : (d.setStreamer p x).edgeBuf = d.edgeBuf := rfl
@[simp] theorem Dev.setStreamer_injNext (d : Dev) (p : Nat) (x : Streamer) : (d.setStreamer p x).injNext = d.injNext := rfl
@[simp] theorem Dev.setStreamer_notices (d : Dev) (p : Nat) (x : Streamer) : (d.setStreamer p x).notices = d.notices := rfl
@[simp] theorem Dev.setStreamer_packets (d : Dev) (p : Nat) (x : Streamer) : (d.setStreamer p x).packets = d.packets := rfl
@[simp] theorem Dev.setStreamer_txns (d : Dev) (p : Nat) (x : Streamer) : (d.setStreamer p x).txns = d.txns := rfl
@[simp] theorem Dev.setStreamer_fwait (d : Dev) (p : Nat) (x : Streamer) : (d.setStreamer p x).fwait = d.fwait := rfl
@[simp] theorem Dev.setStreamer_frtTurn (d : Dev) (p : Nat) (x : Streamer) : (d.setStreamer p x).frtTurn = d.frtTurn := rfl
@[simp] theorem Dev.setStreamer_frtServed (d : Dev) (p : Nat) (x : Streamer) : (d.setStreamer p x).frtServed = d.frtServed := rfl
@[simp] theorem Dev.setStreamer_words (d : Dev) (p : Nat) (x : Streamer) : (d.setStreamer p x).words = d.words := rfl
@[simp] theorem Dev.setStreamer_bankHeld (d : Dev) (p : Nat) (x : Streamer) : (d.setStreamer p x).bankHeld = d.bankHeld := rfl
@[simp] theorem Dev.setStreamer_accNext (d : Dev) (p : Nat) (x : Streamer) : (d.setStreamer p x).accNext = d.accNext := rfl
@[simp] theorem Dev.setStreamer_qnt (d : Dev) (p : Nat) (x : Streamer) : (d.setStreamer p x).qnt = d.qnt := rfl
@[simp] theorem Dev.setStreamer_prjs (d : Dev) (p : Nat) (x : Streamer) : (d.setStreamer p x).prjs = d.prjs := rfl
@[simp] theorem Dev.setStreamer_link (d : Dev) (p : Nat) (x : Streamer) : (d.setStreamer p x).link = d.link := rfl
@[simp] theorem Dev.setStreamer_rings (d : Dev) (p : Nat) (x : Streamer) : (d.setStreamer p x).rings = d.rings := rfl
@[simp] theorem Dev.setStreamer_encBase (d : Dev) (p : Nat) (x : Streamer) : (d.setStreamer p x).encBase = d.encBase := rfl
@[simp] theorem Dev.setStreamer_encSt (d : Dev) (p : Nat) (x : Streamer) : (d.setStreamer p x).encSt = d.encSt := rfl
@[simp] theorem Dev.setStreamer_encCnt (d : Dev) (p : Nat) (x : Streamer) : (d.setStreamer p x).encCnt = d.encCnt := rfl
@[simp] theorem Dev.setStreamer_decs (d : Dev) (p : Nat) (x : Streamer) : (d.setStreamer p x).decs = d.decs := rfl
@[simp] theorem Dev.setStreamer_trunks (d : Dev) (p : Nat) (x : Streamer) : (d.setStreamer p x).trunks = d.trunks := rfl
@[simp] theorem Dev.setStreamer_sys (d : Dev) (p : Nat) (x : Streamer) : (d.setStreamer p x).sys = d.sys := rfl
@[simp] theorem Dev.setStreamer_tpl (d : Dev) (p : Nat) (x : Streamer) : (d.setStreamer p x).tpl = d.tpl := rfl
@[simp] theorem Dev.setStreamer_cores (d : Dev) (p : Nat) (x : Streamer) : (d.setStreamer p x).cores = d.cores := rfl
@[simp] theorem Dev.setStreamer_coreMem (d : Dev) (p : Nat) (x : Streamer) : (d.setStreamer p x).coreMem = d.coreMem := rfl
@[simp] theorem Dev.setStreamer_chn (d : Dev) (p : Nat) (x : Streamer) : (d.setStreamer p x).chn = d.chn := rfl
@[simp] theorem Dev.setStreamer_irq (d : Dev) (p : Nat) (x : Streamer) : (d.setStreamer p x).irq = d.irq := rfl
@[simp] theorem Dev.setStreamer_timers (d : Dev) (p : Nat) (x : Streamer) : (d.setStreamer p x).timers = d.timers := rfl
@[simp] theorem Dev.setStreamer_sdma (d : Dev) (p : Nat) (x : Streamer) : (d.setStreamer p x).sdma = d.sdma := rfl
@[simp] theorem Dev.setStreamer_sdmaNext (d : Dev) (p : Nat) (x : Streamer) : (d.setStreamer p x).sdmaNext = d.sdmaNext := rfl
@[simp] theorem Dev.setStreamer_sdmaCpl (d : Dev) (p : Nat) (x : Streamer) : (d.setStreamer p x).sdmaCpl = d.sdmaCpl := rfl
@[simp] theorem Dev.setStreamer_mbt (d : Dev) (p : Nat) (x : Streamer) : (d.setStreamer p x).mbt = d.mbt := rfl
@[simp] theorem Dev.setStreamer_spares (d : Dev) (p : Nat) (x : Streamer) : (d.setStreamer p x).spares = d.spares := rfl
@[simp] theorem Dev.setStreamer_tok (d : Dev) (p : Nat) (x : Streamer) : (d.setStreamer p x).tok = d.tok := rfl
@[simp] theorem Dev.setStreamer_vfab (d : Dev) (p : Nat) (x : Streamer) : (d.setStreamer p x).vfab = d.vfab := rfl
@[simp] theorem Dev.setStreamer_pwr (d : Dev) (p : Nat) (x : Streamer) : (d.setStreamer p x).pwr = d.pwr := rfl
@[simp] theorem Dev.setStreamer_boot (d : Dev) (p : Nat) (x : Streamer) : (d.setStreamer p x).boot = d.boot := rfl
@[simp] theorem Dev.setStreamer_rst (d : Dev) (p : Nat) (x : Streamer) : (d.setStreamer p x).rst = d.rst := rfl
@[simp] theorem Dev.setStreamer_locked (d : Dev) (p : Nat) (x : Streamer) : (d.setStreamer p x).locked = d.locked := rfl
@[simp] theorem Dev.setStreamer_switches (d : Dev) (p : Nat) (x : Streamer) : (d.setStreamer p x).switches = d.switches := rfl
@[simp] theorem Dev.setStreamer_xchWant (d : Dev) (p : Nat) (x : Streamer) : (d.setStreamer p x).xchWant = d.xchWant := rfl
@[simp] theorem Dev.setStreamer_fwu (d : Dev) (p : Nat) (x : Streamer) : (d.setStreamer p x).fwu = d.fwu := rfl
@[simp] theorem Dev.setStreamer_microcode (d : Dev) (p : Nat) (x : Streamer) : (d.setStreamer p x).microcode = d.microcode := rfl
@[simp] theorem Dev.setStreamer_training (d : Dev) (p : Nat) (x : Streamer) : (d.setStreamer p x).training = d.training := rfl
@[simp] theorem Dev.setStreamer_jtag (d : Dev) (p : Nat) (x : Streamer) : (d.setStreamer p x).jtag = d.jtag := rfl
@[simp] theorem Dev.setStreamer_pins (d : Dev) (p : Nat) (x : Streamer) : (d.setStreamer p x).pins = d.pins := rfl
@[simp] theorem Dev.setStreamer_araDone (d : Dev) (p : Nat) (x : Streamer) : (d.setStreamer p x).araDone = d.araDone := rfl
@[simp] theorem Dev.setStreamer_smbUse (d : Dev) (p : Nat) (x : Streamer) : (d.setStreamer p x).smbUse = d.smbUse := rfl
@[simp] theorem Dev.setStreamer_sbclk (d : Dev) (p : Nat) (x : Streamer) : (d.setStreamer p x).sbclk = d.sbclk := rfl
@[simp] theorem Dev.setStreamer_powered (d : Dev) (p : Nat) (x : Streamer) : (d.setStreamer p x).powered = d.powered := rfl
@[simp] theorem Dev.setStreamer_fwdClk (d : Dev) (p : Nat) (x : Streamer) : (d.setStreamer p x).fwdClk = d.fwdClk := rfl
@[simp] theorem Dev.setStreamer_now (d : Dev) (p : Nat) (x : Streamer) : (d.setStreamer p x).now = d.now := rfl
@[simp] theorem Dev.setStreamer_freeCtr (d : Dev) (p : Nat) (x : Streamer) : (d.setStreamer p x).freeCtr = d.freeCtr := rfl

@[simp] theorem Dev.setPrj_regs (d : Dev) (u : Nat) (x : Prj) : (d.setPrj u x).regs = d.regs := rfl
@[simp] theorem Dev.setPrj_mregs (d : Dev) (u : Nat) (x : Prj) : (d.setPrj u x).mregs = d.mregs := rfl
@[simp] theorem Dev.setPrj_latches (d : Dev) (u : Nat) (x : Prj) : (d.setPrj u x).latches = d.latches := rfl
@[simp] theorem Dev.setPrj_compl (d : Dev) (u : Nat) (x : Prj) : (d.setPrj u x).compl = d.compl := rfl
@[simp] theorem Dev.setPrj_stnW (d : Dev) (u : Nat) (x : Prj) : (d.setPrj u x).stnW = d.stnW := rfl
@[simp] theorem Dev.setPrj_stnM (d : Dev) (u : Nat) (x : Prj) : (d.setPrj u x).stnM = d.stnM := rfl
@[simp] theorem Dev.setPrj_stns (d : Dev) (u : Nat) (x : Prj) : (d.setPrj u x).stns = d.stns := rfl
@[simp] theorem Dev.setPrj_worlds (d : Dev) (u : Nat) (x : Prj) : (d.setPrj u x).worlds = d.worlds := rfl
@[simp] theorem Dev.setPrj_wregs (d : Dev) (u : Nat) (x : Prj) : (d.setPrj u x).wregs = d.wregs := rfl
@[simp] theorem Dev.setPrj_edgeTab (d : Dev) (u : Nat) (x : Prj) : (d.setPrj u x).edgeTab = d.edgeTab := rfl
@[simp] theorem Dev.setPrj_edgeCnt (d : Dev) (u : Nat) (x : Prj) : (d.setPrj u x).edgeCnt = d.edgeCnt := rfl
@[simp] theorem Dev.setPrj_edgeBuf (d : Dev) (u : Nat) (x : Prj) : (d.setPrj u x).edgeBuf = d.edgeBuf := rfl
@[simp] theorem Dev.setPrj_injNext (d : Dev) (u : Nat) (x : Prj) : (d.setPrj u x).injNext = d.injNext := rfl
@[simp] theorem Dev.setPrj_notices (d : Dev) (u : Nat) (x : Prj) : (d.setPrj u x).notices = d.notices := rfl
@[simp] theorem Dev.setPrj_packets (d : Dev) (u : Nat) (x : Prj) : (d.setPrj u x).packets = d.packets := rfl
@[simp] theorem Dev.setPrj_txns (d : Dev) (u : Nat) (x : Prj) : (d.setPrj u x).txns = d.txns := rfl
@[simp] theorem Dev.setPrj_fwait (d : Dev) (u : Nat) (x : Prj) : (d.setPrj u x).fwait = d.fwait := rfl
@[simp] theorem Dev.setPrj_frtTurn (d : Dev) (u : Nat) (x : Prj) : (d.setPrj u x).frtTurn = d.frtTurn := rfl
@[simp] theorem Dev.setPrj_frtServed (d : Dev) (u : Nat) (x : Prj) : (d.setPrj u x).frtServed = d.frtServed := rfl
@[simp] theorem Dev.setPrj_words (d : Dev) (u : Nat) (x : Prj) : (d.setPrj u x).words = d.words := rfl
@[simp] theorem Dev.setPrj_bankHeld (d : Dev) (u : Nat) (x : Prj) : (d.setPrj u x).bankHeld = d.bankHeld := rfl
@[simp] theorem Dev.setPrj_accNext (d : Dev) (u : Nat) (x : Prj) : (d.setPrj u x).accNext = d.accNext := rfl
@[simp] theorem Dev.setPrj_streamers (d : Dev) (u : Nat) (x : Prj) : (d.setPrj u x).streamers = d.streamers := rfl
@[simp] theorem Dev.setPrj_qnt (d : Dev) (u : Nat) (x : Prj) : (d.setPrj u x).qnt = d.qnt := rfl
@[simp] theorem Dev.setPrj_link (d : Dev) (u : Nat) (x : Prj) : (d.setPrj u x).link = d.link := rfl
@[simp] theorem Dev.setPrj_rings (d : Dev) (u : Nat) (x : Prj) : (d.setPrj u x).rings = d.rings := rfl
@[simp] theorem Dev.setPrj_encBase (d : Dev) (u : Nat) (x : Prj) : (d.setPrj u x).encBase = d.encBase := rfl
@[simp] theorem Dev.setPrj_encSt (d : Dev) (u : Nat) (x : Prj) : (d.setPrj u x).encSt = d.encSt := rfl
@[simp] theorem Dev.setPrj_encCnt (d : Dev) (u : Nat) (x : Prj) : (d.setPrj u x).encCnt = d.encCnt := rfl
@[simp] theorem Dev.setPrj_decs (d : Dev) (u : Nat) (x : Prj) : (d.setPrj u x).decs = d.decs := rfl
@[simp] theorem Dev.setPrj_trunks (d : Dev) (u : Nat) (x : Prj) : (d.setPrj u x).trunks = d.trunks := rfl
@[simp] theorem Dev.setPrj_sys (d : Dev) (u : Nat) (x : Prj) : (d.setPrj u x).sys = d.sys := rfl
@[simp] theorem Dev.setPrj_tpl (d : Dev) (u : Nat) (x : Prj) : (d.setPrj u x).tpl = d.tpl := rfl
@[simp] theorem Dev.setPrj_cores (d : Dev) (u : Nat) (x : Prj) : (d.setPrj u x).cores = d.cores := rfl
@[simp] theorem Dev.setPrj_coreMem (d : Dev) (u : Nat) (x : Prj) : (d.setPrj u x).coreMem = d.coreMem := rfl
@[simp] theorem Dev.setPrj_chn (d : Dev) (u : Nat) (x : Prj) : (d.setPrj u x).chn = d.chn := rfl
@[simp] theorem Dev.setPrj_irq (d : Dev) (u : Nat) (x : Prj) : (d.setPrj u x).irq = d.irq := rfl
@[simp] theorem Dev.setPrj_timers (d : Dev) (u : Nat) (x : Prj) : (d.setPrj u x).timers = d.timers := rfl
@[simp] theorem Dev.setPrj_sdma (d : Dev) (u : Nat) (x : Prj) : (d.setPrj u x).sdma = d.sdma := rfl
@[simp] theorem Dev.setPrj_sdmaNext (d : Dev) (u : Nat) (x : Prj) : (d.setPrj u x).sdmaNext = d.sdmaNext := rfl
@[simp] theorem Dev.setPrj_sdmaCpl (d : Dev) (u : Nat) (x : Prj) : (d.setPrj u x).sdmaCpl = d.sdmaCpl := rfl
@[simp] theorem Dev.setPrj_mbt (d : Dev) (u : Nat) (x : Prj) : (d.setPrj u x).mbt = d.mbt := rfl
@[simp] theorem Dev.setPrj_spares (d : Dev) (u : Nat) (x : Prj) : (d.setPrj u x).spares = d.spares := rfl
@[simp] theorem Dev.setPrj_tok (d : Dev) (u : Nat) (x : Prj) : (d.setPrj u x).tok = d.tok := rfl
@[simp] theorem Dev.setPrj_vfab (d : Dev) (u : Nat) (x : Prj) : (d.setPrj u x).vfab = d.vfab := rfl
@[simp] theorem Dev.setPrj_pwr (d : Dev) (u : Nat) (x : Prj) : (d.setPrj u x).pwr = d.pwr := rfl
@[simp] theorem Dev.setPrj_boot (d : Dev) (u : Nat) (x : Prj) : (d.setPrj u x).boot = d.boot := rfl
@[simp] theorem Dev.setPrj_rst (d : Dev) (u : Nat) (x : Prj) : (d.setPrj u x).rst = d.rst := rfl
@[simp] theorem Dev.setPrj_locked (d : Dev) (u : Nat) (x : Prj) : (d.setPrj u x).locked = d.locked := rfl
@[simp] theorem Dev.setPrj_switches (d : Dev) (u : Nat) (x : Prj) : (d.setPrj u x).switches = d.switches := rfl
@[simp] theorem Dev.setPrj_xchWant (d : Dev) (u : Nat) (x : Prj) : (d.setPrj u x).xchWant = d.xchWant := rfl
@[simp] theorem Dev.setPrj_fwu (d : Dev) (u : Nat) (x : Prj) : (d.setPrj u x).fwu = d.fwu := rfl
@[simp] theorem Dev.setPrj_microcode (d : Dev) (u : Nat) (x : Prj) : (d.setPrj u x).microcode = d.microcode := rfl
@[simp] theorem Dev.setPrj_training (d : Dev) (u : Nat) (x : Prj) : (d.setPrj u x).training = d.training := rfl
@[simp] theorem Dev.setPrj_jtag (d : Dev) (u : Nat) (x : Prj) : (d.setPrj u x).jtag = d.jtag := rfl
@[simp] theorem Dev.setPrj_pins (d : Dev) (u : Nat) (x : Prj) : (d.setPrj u x).pins = d.pins := rfl
@[simp] theorem Dev.setPrj_araDone (d : Dev) (u : Nat) (x : Prj) : (d.setPrj u x).araDone = d.araDone := rfl
@[simp] theorem Dev.setPrj_smbUse (d : Dev) (u : Nat) (x : Prj) : (d.setPrj u x).smbUse = d.smbUse := rfl
@[simp] theorem Dev.setPrj_sbclk (d : Dev) (u : Nat) (x : Prj) : (d.setPrj u x).sbclk = d.sbclk := rfl
@[simp] theorem Dev.setPrj_powered (d : Dev) (u : Nat) (x : Prj) : (d.setPrj u x).powered = d.powered := rfl
@[simp] theorem Dev.setPrj_fwdClk (d : Dev) (u : Nat) (x : Prj) : (d.setPrj u x).fwdClk = d.fwdClk := rfl
@[simp] theorem Dev.setPrj_now (d : Dev) (u : Nat) (x : Prj) : (d.setPrj u x).now = d.now := rfl
@[simp] theorem Dev.setPrj_freeCtr (d : Dev) (u : Nat) (x : Prj) : (d.setPrj u x).freeCtr = d.freeCtr := rfl

@[simp] theorem Dev.setRing_regs (d : Dev) (r : Nat) (x : Ring) : (d.setRing r x).regs = d.regs := rfl
@[simp] theorem Dev.setRing_mregs (d : Dev) (r : Nat) (x : Ring) : (d.setRing r x).mregs = d.mregs := rfl
@[simp] theorem Dev.setRing_latches (d : Dev) (r : Nat) (x : Ring) : (d.setRing r x).latches = d.latches := rfl
@[simp] theorem Dev.setRing_compl (d : Dev) (r : Nat) (x : Ring) : (d.setRing r x).compl = d.compl := rfl
@[simp] theorem Dev.setRing_stnW (d : Dev) (r : Nat) (x : Ring) : (d.setRing r x).stnW = d.stnW := rfl
@[simp] theorem Dev.setRing_stnM (d : Dev) (r : Nat) (x : Ring) : (d.setRing r x).stnM = d.stnM := rfl
@[simp] theorem Dev.setRing_stns (d : Dev) (r : Nat) (x : Ring) : (d.setRing r x).stns = d.stns := rfl
@[simp] theorem Dev.setRing_worlds (d : Dev) (r : Nat) (x : Ring) : (d.setRing r x).worlds = d.worlds := rfl
@[simp] theorem Dev.setRing_wregs (d : Dev) (r : Nat) (x : Ring) : (d.setRing r x).wregs = d.wregs := rfl
@[simp] theorem Dev.setRing_edgeTab (d : Dev) (r : Nat) (x : Ring) : (d.setRing r x).edgeTab = d.edgeTab := rfl
@[simp] theorem Dev.setRing_edgeCnt (d : Dev) (r : Nat) (x : Ring) : (d.setRing r x).edgeCnt = d.edgeCnt := rfl
@[simp] theorem Dev.setRing_edgeBuf (d : Dev) (r : Nat) (x : Ring) : (d.setRing r x).edgeBuf = d.edgeBuf := rfl
@[simp] theorem Dev.setRing_injNext (d : Dev) (r : Nat) (x : Ring) : (d.setRing r x).injNext = d.injNext := rfl
@[simp] theorem Dev.setRing_notices (d : Dev) (r : Nat) (x : Ring) : (d.setRing r x).notices = d.notices := rfl
@[simp] theorem Dev.setRing_packets (d : Dev) (r : Nat) (x : Ring) : (d.setRing r x).packets = d.packets := rfl
@[simp] theorem Dev.setRing_txns (d : Dev) (r : Nat) (x : Ring) : (d.setRing r x).txns = d.txns := rfl
@[simp] theorem Dev.setRing_fwait (d : Dev) (r : Nat) (x : Ring) : (d.setRing r x).fwait = d.fwait := rfl
@[simp] theorem Dev.setRing_frtTurn (d : Dev) (r : Nat) (x : Ring) : (d.setRing r x).frtTurn = d.frtTurn := rfl
@[simp] theorem Dev.setRing_frtServed (d : Dev) (r : Nat) (x : Ring) : (d.setRing r x).frtServed = d.frtServed := rfl
@[simp] theorem Dev.setRing_words (d : Dev) (r : Nat) (x : Ring) : (d.setRing r x).words = d.words := rfl
@[simp] theorem Dev.setRing_bankHeld (d : Dev) (r : Nat) (x : Ring) : (d.setRing r x).bankHeld = d.bankHeld := rfl
@[simp] theorem Dev.setRing_accNext (d : Dev) (r : Nat) (x : Ring) : (d.setRing r x).accNext = d.accNext := rfl
@[simp] theorem Dev.setRing_streamers (d : Dev) (r : Nat) (x : Ring) : (d.setRing r x).streamers = d.streamers := rfl
@[simp] theorem Dev.setRing_qnt (d : Dev) (r : Nat) (x : Ring) : (d.setRing r x).qnt = d.qnt := rfl
@[simp] theorem Dev.setRing_prjs (d : Dev) (r : Nat) (x : Ring) : (d.setRing r x).prjs = d.prjs := rfl
@[simp] theorem Dev.setRing_link (d : Dev) (r : Nat) (x : Ring) : (d.setRing r x).link = d.link := rfl
@[simp] theorem Dev.setRing_encBase (d : Dev) (r : Nat) (x : Ring) : (d.setRing r x).encBase = d.encBase := rfl
@[simp] theorem Dev.setRing_encSt (d : Dev) (r : Nat) (x : Ring) : (d.setRing r x).encSt = d.encSt := rfl
@[simp] theorem Dev.setRing_encCnt (d : Dev) (r : Nat) (x : Ring) : (d.setRing r x).encCnt = d.encCnt := rfl
@[simp] theorem Dev.setRing_decs (d : Dev) (r : Nat) (x : Ring) : (d.setRing r x).decs = d.decs := rfl
@[simp] theorem Dev.setRing_trunks (d : Dev) (r : Nat) (x : Ring) : (d.setRing r x).trunks = d.trunks := rfl
@[simp] theorem Dev.setRing_sys (d : Dev) (r : Nat) (x : Ring) : (d.setRing r x).sys = d.sys := rfl
@[simp] theorem Dev.setRing_tpl (d : Dev) (r : Nat) (x : Ring) : (d.setRing r x).tpl = d.tpl := rfl
@[simp] theorem Dev.setRing_cores (d : Dev) (r : Nat) (x : Ring) : (d.setRing r x).cores = d.cores := rfl
@[simp] theorem Dev.setRing_coreMem (d : Dev) (r : Nat) (x : Ring) : (d.setRing r x).coreMem = d.coreMem := rfl
@[simp] theorem Dev.setRing_chn (d : Dev) (r : Nat) (x : Ring) : (d.setRing r x).chn = d.chn := rfl
@[simp] theorem Dev.setRing_irq (d : Dev) (r : Nat) (x : Ring) : (d.setRing r x).irq = d.irq := rfl
@[simp] theorem Dev.setRing_timers (d : Dev) (r : Nat) (x : Ring) : (d.setRing r x).timers = d.timers := rfl
@[simp] theorem Dev.setRing_sdma (d : Dev) (r : Nat) (x : Ring) : (d.setRing r x).sdma = d.sdma := rfl
@[simp] theorem Dev.setRing_sdmaNext (d : Dev) (r : Nat) (x : Ring) : (d.setRing r x).sdmaNext = d.sdmaNext := rfl
@[simp] theorem Dev.setRing_sdmaCpl (d : Dev) (r : Nat) (x : Ring) : (d.setRing r x).sdmaCpl = d.sdmaCpl := rfl
@[simp] theorem Dev.setRing_mbt (d : Dev) (r : Nat) (x : Ring) : (d.setRing r x).mbt = d.mbt := rfl
@[simp] theorem Dev.setRing_spares (d : Dev) (r : Nat) (x : Ring) : (d.setRing r x).spares = d.spares := rfl
@[simp] theorem Dev.setRing_tok (d : Dev) (r : Nat) (x : Ring) : (d.setRing r x).tok = d.tok := rfl
@[simp] theorem Dev.setRing_vfab (d : Dev) (r : Nat) (x : Ring) : (d.setRing r x).vfab = d.vfab := rfl
@[simp] theorem Dev.setRing_pwr (d : Dev) (r : Nat) (x : Ring) : (d.setRing r x).pwr = d.pwr := rfl
@[simp] theorem Dev.setRing_boot (d : Dev) (r : Nat) (x : Ring) : (d.setRing r x).boot = d.boot := rfl
@[simp] theorem Dev.setRing_rst (d : Dev) (r : Nat) (x : Ring) : (d.setRing r x).rst = d.rst := rfl
@[simp] theorem Dev.setRing_locked (d : Dev) (r : Nat) (x : Ring) : (d.setRing r x).locked = d.locked := rfl
@[simp] theorem Dev.setRing_switches (d : Dev) (r : Nat) (x : Ring) : (d.setRing r x).switches = d.switches := rfl
@[simp] theorem Dev.setRing_xchWant (d : Dev) (r : Nat) (x : Ring) : (d.setRing r x).xchWant = d.xchWant := rfl
@[simp] theorem Dev.setRing_fwu (d : Dev) (r : Nat) (x : Ring) : (d.setRing r x).fwu = d.fwu := rfl
@[simp] theorem Dev.setRing_microcode (d : Dev) (r : Nat) (x : Ring) : (d.setRing r x).microcode = d.microcode := rfl
@[simp] theorem Dev.setRing_training (d : Dev) (r : Nat) (x : Ring) : (d.setRing r x).training = d.training := rfl
@[simp] theorem Dev.setRing_jtag (d : Dev) (r : Nat) (x : Ring) : (d.setRing r x).jtag = d.jtag := rfl
@[simp] theorem Dev.setRing_pins (d : Dev) (r : Nat) (x : Ring) : (d.setRing r x).pins = d.pins := rfl
@[simp] theorem Dev.setRing_araDone (d : Dev) (r : Nat) (x : Ring) : (d.setRing r x).araDone = d.araDone := rfl
@[simp] theorem Dev.setRing_smbUse (d : Dev) (r : Nat) (x : Ring) : (d.setRing r x).smbUse = d.smbUse := rfl
@[simp] theorem Dev.setRing_sbclk (d : Dev) (r : Nat) (x : Ring) : (d.setRing r x).sbclk = d.sbclk := rfl
@[simp] theorem Dev.setRing_powered (d : Dev) (r : Nat) (x : Ring) : (d.setRing r x).powered = d.powered := rfl
@[simp] theorem Dev.setRing_fwdClk (d : Dev) (r : Nat) (x : Ring) : (d.setRing r x).fwdClk = d.fwdClk := rfl
@[simp] theorem Dev.setRing_now (d : Dev) (r : Nat) (x : Ring) : (d.setRing r x).now = d.now := rfl
@[simp] theorem Dev.setRing_freeCtr (d : Dev) (r : Nat) (x : Ring) : (d.setRing r x).freeCtr = d.freeCtr := rfl

@[simp] theorem Dev.setDec_regs (d : Dev) (c : Nat) (x : Dec) : (d.setDec c x).regs = d.regs := rfl
@[simp] theorem Dev.setDec_mregs (d : Dev) (c : Nat) (x : Dec) : (d.setDec c x).mregs = d.mregs := rfl
@[simp] theorem Dev.setDec_latches (d : Dev) (c : Nat) (x : Dec) : (d.setDec c x).latches = d.latches := rfl
@[simp] theorem Dev.setDec_compl (d : Dev) (c : Nat) (x : Dec) : (d.setDec c x).compl = d.compl := rfl
@[simp] theorem Dev.setDec_stnW (d : Dev) (c : Nat) (x : Dec) : (d.setDec c x).stnW = d.stnW := rfl
@[simp] theorem Dev.setDec_stnM (d : Dev) (c : Nat) (x : Dec) : (d.setDec c x).stnM = d.stnM := rfl
@[simp] theorem Dev.setDec_stns (d : Dev) (c : Nat) (x : Dec) : (d.setDec c x).stns = d.stns := rfl
@[simp] theorem Dev.setDec_worlds (d : Dev) (c : Nat) (x : Dec) : (d.setDec c x).worlds = d.worlds := rfl
@[simp] theorem Dev.setDec_wregs (d : Dev) (c : Nat) (x : Dec) : (d.setDec c x).wregs = d.wregs := rfl
@[simp] theorem Dev.setDec_edgeTab (d : Dev) (c : Nat) (x : Dec) : (d.setDec c x).edgeTab = d.edgeTab := rfl
@[simp] theorem Dev.setDec_edgeCnt (d : Dev) (c : Nat) (x : Dec) : (d.setDec c x).edgeCnt = d.edgeCnt := rfl
@[simp] theorem Dev.setDec_edgeBuf (d : Dev) (c : Nat) (x : Dec) : (d.setDec c x).edgeBuf = d.edgeBuf := rfl
@[simp] theorem Dev.setDec_injNext (d : Dev) (c : Nat) (x : Dec) : (d.setDec c x).injNext = d.injNext := rfl
@[simp] theorem Dev.setDec_notices (d : Dev) (c : Nat) (x : Dec) : (d.setDec c x).notices = d.notices := rfl
@[simp] theorem Dev.setDec_packets (d : Dev) (c : Nat) (x : Dec) : (d.setDec c x).packets = d.packets := rfl
@[simp] theorem Dev.setDec_txns (d : Dev) (c : Nat) (x : Dec) : (d.setDec c x).txns = d.txns := rfl
@[simp] theorem Dev.setDec_fwait (d : Dev) (c : Nat) (x : Dec) : (d.setDec c x).fwait = d.fwait := rfl
@[simp] theorem Dev.setDec_frtTurn (d : Dev) (c : Nat) (x : Dec) : (d.setDec c x).frtTurn = d.frtTurn := rfl
@[simp] theorem Dev.setDec_frtServed (d : Dev) (c : Nat) (x : Dec) : (d.setDec c x).frtServed = d.frtServed := rfl
@[simp] theorem Dev.setDec_words (d : Dev) (c : Nat) (x : Dec) : (d.setDec c x).words = d.words := rfl
@[simp] theorem Dev.setDec_bankHeld (d : Dev) (c : Nat) (x : Dec) : (d.setDec c x).bankHeld = d.bankHeld := rfl
@[simp] theorem Dev.setDec_accNext (d : Dev) (c : Nat) (x : Dec) : (d.setDec c x).accNext = d.accNext := rfl
@[simp] theorem Dev.setDec_streamers (d : Dev) (c : Nat) (x : Dec) : (d.setDec c x).streamers = d.streamers := rfl
@[simp] theorem Dev.setDec_qnt (d : Dev) (c : Nat) (x : Dec) : (d.setDec c x).qnt = d.qnt := rfl
@[simp] theorem Dev.setDec_prjs (d : Dev) (c : Nat) (x : Dec) : (d.setDec c x).prjs = d.prjs := rfl
@[simp] theorem Dev.setDec_link (d : Dev) (c : Nat) (x : Dec) : (d.setDec c x).link = d.link := rfl
@[simp] theorem Dev.setDec_rings (d : Dev) (c : Nat) (x : Dec) : (d.setDec c x).rings = d.rings := rfl
@[simp] theorem Dev.setDec_encBase (d : Dev) (c : Nat) (x : Dec) : (d.setDec c x).encBase = d.encBase := rfl
@[simp] theorem Dev.setDec_encSt (d : Dev) (c : Nat) (x : Dec) : (d.setDec c x).encSt = d.encSt := rfl
@[simp] theorem Dev.setDec_encCnt (d : Dev) (c : Nat) (x : Dec) : (d.setDec c x).encCnt = d.encCnt := rfl
@[simp] theorem Dev.setDec_trunks (d : Dev) (c : Nat) (x : Dec) : (d.setDec c x).trunks = d.trunks := rfl
@[simp] theorem Dev.setDec_sys (d : Dev) (c : Nat) (x : Dec) : (d.setDec c x).sys = d.sys := rfl
@[simp] theorem Dev.setDec_tpl (d : Dev) (c : Nat) (x : Dec) : (d.setDec c x).tpl = d.tpl := rfl
@[simp] theorem Dev.setDec_cores (d : Dev) (c : Nat) (x : Dec) : (d.setDec c x).cores = d.cores := rfl
@[simp] theorem Dev.setDec_coreMem (d : Dev) (c : Nat) (x : Dec) : (d.setDec c x).coreMem = d.coreMem := rfl
@[simp] theorem Dev.setDec_chn (d : Dev) (c : Nat) (x : Dec) : (d.setDec c x).chn = d.chn := rfl
@[simp] theorem Dev.setDec_irq (d : Dev) (c : Nat) (x : Dec) : (d.setDec c x).irq = d.irq := rfl
@[simp] theorem Dev.setDec_timers (d : Dev) (c : Nat) (x : Dec) : (d.setDec c x).timers = d.timers := rfl
@[simp] theorem Dev.setDec_sdma (d : Dev) (c : Nat) (x : Dec) : (d.setDec c x).sdma = d.sdma := rfl
@[simp] theorem Dev.setDec_sdmaNext (d : Dev) (c : Nat) (x : Dec) : (d.setDec c x).sdmaNext = d.sdmaNext := rfl
@[simp] theorem Dev.setDec_sdmaCpl (d : Dev) (c : Nat) (x : Dec) : (d.setDec c x).sdmaCpl = d.sdmaCpl := rfl
@[simp] theorem Dev.setDec_mbt (d : Dev) (c : Nat) (x : Dec) : (d.setDec c x).mbt = d.mbt := rfl
@[simp] theorem Dev.setDec_spares (d : Dev) (c : Nat) (x : Dec) : (d.setDec c x).spares = d.spares := rfl
@[simp] theorem Dev.setDec_tok (d : Dev) (c : Nat) (x : Dec) : (d.setDec c x).tok = d.tok := rfl
@[simp] theorem Dev.setDec_vfab (d : Dev) (c : Nat) (x : Dec) : (d.setDec c x).vfab = d.vfab := rfl
@[simp] theorem Dev.setDec_pwr (d : Dev) (c : Nat) (x : Dec) : (d.setDec c x).pwr = d.pwr := rfl
@[simp] theorem Dev.setDec_boot (d : Dev) (c : Nat) (x : Dec) : (d.setDec c x).boot = d.boot := rfl
@[simp] theorem Dev.setDec_rst (d : Dev) (c : Nat) (x : Dec) : (d.setDec c x).rst = d.rst := rfl
@[simp] theorem Dev.setDec_locked (d : Dev) (c : Nat) (x : Dec) : (d.setDec c x).locked = d.locked := rfl
@[simp] theorem Dev.setDec_switches (d : Dev) (c : Nat) (x : Dec) : (d.setDec c x).switches = d.switches := rfl
@[simp] theorem Dev.setDec_xchWant (d : Dev) (c : Nat) (x : Dec) : (d.setDec c x).xchWant = d.xchWant := rfl
@[simp] theorem Dev.setDec_fwu (d : Dev) (c : Nat) (x : Dec) : (d.setDec c x).fwu = d.fwu := rfl
@[simp] theorem Dev.setDec_microcode (d : Dev) (c : Nat) (x : Dec) : (d.setDec c x).microcode = d.microcode := rfl
@[simp] theorem Dev.setDec_training (d : Dev) (c : Nat) (x : Dec) : (d.setDec c x).training = d.training := rfl
@[simp] theorem Dev.setDec_jtag (d : Dev) (c : Nat) (x : Dec) : (d.setDec c x).jtag = d.jtag := rfl
@[simp] theorem Dev.setDec_pins (d : Dev) (c : Nat) (x : Dec) : (d.setDec c x).pins = d.pins := rfl
@[simp] theorem Dev.setDec_araDone (d : Dev) (c : Nat) (x : Dec) : (d.setDec c x).araDone = d.araDone := rfl
@[simp] theorem Dev.setDec_smbUse (d : Dev) (c : Nat) (x : Dec) : (d.setDec c x).smbUse = d.smbUse := rfl
@[simp] theorem Dev.setDec_sbclk (d : Dev) (c : Nat) (x : Dec) : (d.setDec c x).sbclk = d.sbclk := rfl
@[simp] theorem Dev.setDec_powered (d : Dev) (c : Nat) (x : Dec) : (d.setDec c x).powered = d.powered := rfl
@[simp] theorem Dev.setDec_fwdClk (d : Dev) (c : Nat) (x : Dec) : (d.setDec c x).fwdClk = d.fwdClk := rfl
@[simp] theorem Dev.setDec_now (d : Dev) (c : Nat) (x : Dec) : (d.setDec c x).now = d.now := rfl
@[simp] theorem Dev.setDec_freeCtr (d : Dev) (c : Nat) (x : Dec) : (d.setDec c x).freeCtr = d.freeCtr := rfl

@[simp] theorem Dev.setTrunk_regs (d : Dev) (k : Nat) (x : Trunk) : (d.setTrunk k x).regs = d.regs := rfl
@[simp] theorem Dev.setTrunk_mregs (d : Dev) (k : Nat) (x : Trunk) : (d.setTrunk k x).mregs = d.mregs := rfl
@[simp] theorem Dev.setTrunk_latches (d : Dev) (k : Nat) (x : Trunk) : (d.setTrunk k x).latches = d.latches := rfl
@[simp] theorem Dev.setTrunk_compl (d : Dev) (k : Nat) (x : Trunk) : (d.setTrunk k x).compl = d.compl := rfl
@[simp] theorem Dev.setTrunk_stnW (d : Dev) (k : Nat) (x : Trunk) : (d.setTrunk k x).stnW = d.stnW := rfl
@[simp] theorem Dev.setTrunk_stnM (d : Dev) (k : Nat) (x : Trunk) : (d.setTrunk k x).stnM = d.stnM := rfl
@[simp] theorem Dev.setTrunk_stns (d : Dev) (k : Nat) (x : Trunk) : (d.setTrunk k x).stns = d.stns := rfl
@[simp] theorem Dev.setTrunk_worlds (d : Dev) (k : Nat) (x : Trunk) : (d.setTrunk k x).worlds = d.worlds := rfl
@[simp] theorem Dev.setTrunk_wregs (d : Dev) (k : Nat) (x : Trunk) : (d.setTrunk k x).wregs = d.wregs := rfl
@[simp] theorem Dev.setTrunk_edgeTab (d : Dev) (k : Nat) (x : Trunk) : (d.setTrunk k x).edgeTab = d.edgeTab := rfl
@[simp] theorem Dev.setTrunk_edgeCnt (d : Dev) (k : Nat) (x : Trunk) : (d.setTrunk k x).edgeCnt = d.edgeCnt := rfl
@[simp] theorem Dev.setTrunk_edgeBuf (d : Dev) (k : Nat) (x : Trunk) : (d.setTrunk k x).edgeBuf = d.edgeBuf := rfl
@[simp] theorem Dev.setTrunk_injNext (d : Dev) (k : Nat) (x : Trunk) : (d.setTrunk k x).injNext = d.injNext := rfl
@[simp] theorem Dev.setTrunk_notices (d : Dev) (k : Nat) (x : Trunk) : (d.setTrunk k x).notices = d.notices := rfl
@[simp] theorem Dev.setTrunk_packets (d : Dev) (k : Nat) (x : Trunk) : (d.setTrunk k x).packets = d.packets := rfl
@[simp] theorem Dev.setTrunk_txns (d : Dev) (k : Nat) (x : Trunk) : (d.setTrunk k x).txns = d.txns := rfl
@[simp] theorem Dev.setTrunk_fwait (d : Dev) (k : Nat) (x : Trunk) : (d.setTrunk k x).fwait = d.fwait := rfl
@[simp] theorem Dev.setTrunk_frtTurn (d : Dev) (k : Nat) (x : Trunk) : (d.setTrunk k x).frtTurn = d.frtTurn := rfl
@[simp] theorem Dev.setTrunk_frtServed (d : Dev) (k : Nat) (x : Trunk) : (d.setTrunk k x).frtServed = d.frtServed := rfl
@[simp] theorem Dev.setTrunk_words (d : Dev) (k : Nat) (x : Trunk) : (d.setTrunk k x).words = d.words := rfl
@[simp] theorem Dev.setTrunk_bankHeld (d : Dev) (k : Nat) (x : Trunk) : (d.setTrunk k x).bankHeld = d.bankHeld := rfl
@[simp] theorem Dev.setTrunk_accNext (d : Dev) (k : Nat) (x : Trunk) : (d.setTrunk k x).accNext = d.accNext := rfl
@[simp] theorem Dev.setTrunk_streamers (d : Dev) (k : Nat) (x : Trunk) : (d.setTrunk k x).streamers = d.streamers := rfl
@[simp] theorem Dev.setTrunk_qnt (d : Dev) (k : Nat) (x : Trunk) : (d.setTrunk k x).qnt = d.qnt := rfl
@[simp] theorem Dev.setTrunk_prjs (d : Dev) (k : Nat) (x : Trunk) : (d.setTrunk k x).prjs = d.prjs := rfl
@[simp] theorem Dev.setTrunk_link (d : Dev) (k : Nat) (x : Trunk) : (d.setTrunk k x).link = d.link := rfl
@[simp] theorem Dev.setTrunk_rings (d : Dev) (k : Nat) (x : Trunk) : (d.setTrunk k x).rings = d.rings := rfl
@[simp] theorem Dev.setTrunk_encBase (d : Dev) (k : Nat) (x : Trunk) : (d.setTrunk k x).encBase = d.encBase := rfl
@[simp] theorem Dev.setTrunk_encSt (d : Dev) (k : Nat) (x : Trunk) : (d.setTrunk k x).encSt = d.encSt := rfl
@[simp] theorem Dev.setTrunk_encCnt (d : Dev) (k : Nat) (x : Trunk) : (d.setTrunk k x).encCnt = d.encCnt := rfl
@[simp] theorem Dev.setTrunk_decs (d : Dev) (k : Nat) (x : Trunk) : (d.setTrunk k x).decs = d.decs := rfl
@[simp] theorem Dev.setTrunk_sys (d : Dev) (k : Nat) (x : Trunk) : (d.setTrunk k x).sys = d.sys := rfl
@[simp] theorem Dev.setTrunk_tpl (d : Dev) (k : Nat) (x : Trunk) : (d.setTrunk k x).tpl = d.tpl := rfl
@[simp] theorem Dev.setTrunk_cores (d : Dev) (k : Nat) (x : Trunk) : (d.setTrunk k x).cores = d.cores := rfl
@[simp] theorem Dev.setTrunk_coreMem (d : Dev) (k : Nat) (x : Trunk) : (d.setTrunk k x).coreMem = d.coreMem := rfl
@[simp] theorem Dev.setTrunk_chn (d : Dev) (k : Nat) (x : Trunk) : (d.setTrunk k x).chn = d.chn := rfl
@[simp] theorem Dev.setTrunk_irq (d : Dev) (k : Nat) (x : Trunk) : (d.setTrunk k x).irq = d.irq := rfl
@[simp] theorem Dev.setTrunk_timers (d : Dev) (k : Nat) (x : Trunk) : (d.setTrunk k x).timers = d.timers := rfl
@[simp] theorem Dev.setTrunk_sdma (d : Dev) (k : Nat) (x : Trunk) : (d.setTrunk k x).sdma = d.sdma := rfl
@[simp] theorem Dev.setTrunk_sdmaNext (d : Dev) (k : Nat) (x : Trunk) : (d.setTrunk k x).sdmaNext = d.sdmaNext := rfl
@[simp] theorem Dev.setTrunk_sdmaCpl (d : Dev) (k : Nat) (x : Trunk) : (d.setTrunk k x).sdmaCpl = d.sdmaCpl := rfl
@[simp] theorem Dev.setTrunk_mbt (d : Dev) (k : Nat) (x : Trunk) : (d.setTrunk k x).mbt = d.mbt := rfl
@[simp] theorem Dev.setTrunk_spares (d : Dev) (k : Nat) (x : Trunk) : (d.setTrunk k x).spares = d.spares := rfl
@[simp] theorem Dev.setTrunk_tok (d : Dev) (k : Nat) (x : Trunk) : (d.setTrunk k x).tok = d.tok := rfl
@[simp] theorem Dev.setTrunk_vfab (d : Dev) (k : Nat) (x : Trunk) : (d.setTrunk k x).vfab = d.vfab := rfl
@[simp] theorem Dev.setTrunk_pwr (d : Dev) (k : Nat) (x : Trunk) : (d.setTrunk k x).pwr = d.pwr := rfl
@[simp] theorem Dev.setTrunk_boot (d : Dev) (k : Nat) (x : Trunk) : (d.setTrunk k x).boot = d.boot := rfl
@[simp] theorem Dev.setTrunk_rst (d : Dev) (k : Nat) (x : Trunk) : (d.setTrunk k x).rst = d.rst := rfl
@[simp] theorem Dev.setTrunk_locked (d : Dev) (k : Nat) (x : Trunk) : (d.setTrunk k x).locked = d.locked := rfl
@[simp] theorem Dev.setTrunk_switches (d : Dev) (k : Nat) (x : Trunk) : (d.setTrunk k x).switches = d.switches := rfl
@[simp] theorem Dev.setTrunk_xchWant (d : Dev) (k : Nat) (x : Trunk) : (d.setTrunk k x).xchWant = d.xchWant := rfl
@[simp] theorem Dev.setTrunk_fwu (d : Dev) (k : Nat) (x : Trunk) : (d.setTrunk k x).fwu = d.fwu := rfl
@[simp] theorem Dev.setTrunk_microcode (d : Dev) (k : Nat) (x : Trunk) : (d.setTrunk k x).microcode = d.microcode := rfl
@[simp] theorem Dev.setTrunk_training (d : Dev) (k : Nat) (x : Trunk) : (d.setTrunk k x).training = d.training := rfl
@[simp] theorem Dev.setTrunk_jtag (d : Dev) (k : Nat) (x : Trunk) : (d.setTrunk k x).jtag = d.jtag := rfl
@[simp] theorem Dev.setTrunk_pins (d : Dev) (k : Nat) (x : Trunk) : (d.setTrunk k x).pins = d.pins := rfl
@[simp] theorem Dev.setTrunk_araDone (d : Dev) (k : Nat) (x : Trunk) : (d.setTrunk k x).araDone = d.araDone := rfl
@[simp] theorem Dev.setTrunk_smbUse (d : Dev) (k : Nat) (x : Trunk) : (d.setTrunk k x).smbUse = d.smbUse := rfl
@[simp] theorem Dev.setTrunk_sbclk (d : Dev) (k : Nat) (x : Trunk) : (d.setTrunk k x).sbclk = d.sbclk := rfl
@[simp] theorem Dev.setTrunk_powered (d : Dev) (k : Nat) (x : Trunk) : (d.setTrunk k x).powered = d.powered := rfl
@[simp] theorem Dev.setTrunk_fwdClk (d : Dev) (k : Nat) (x : Trunk) : (d.setTrunk k x).fwdClk = d.fwdClk := rfl
@[simp] theorem Dev.setTrunk_now (d : Dev) (k : Nat) (x : Trunk) : (d.setTrunk k x).now = d.now := rfl
@[simp] theorem Dev.setTrunk_freeCtr (d : Dev) (k : Nat) (x : Trunk) : (d.setTrunk k x).freeCtr = d.freeCtr := rfl

@[simp] theorem Dev.setCore_regs (d : Dev) (n : Nat) (c : Core) : (d.setCore n c).regs = d.regs := rfl
@[simp] theorem Dev.setCore_mregs (d : Dev) (n : Nat) (c : Core) : (d.setCore n c).mregs = d.mregs := rfl
@[simp] theorem Dev.setCore_latches (d : Dev) (n : Nat) (c : Core) : (d.setCore n c).latches = d.latches := rfl
@[simp] theorem Dev.setCore_compl (d : Dev) (n : Nat) (c : Core) : (d.setCore n c).compl = d.compl := rfl
@[simp] theorem Dev.setCore_stnW (d : Dev) (n : Nat) (c : Core) : (d.setCore n c).stnW = d.stnW := rfl
@[simp] theorem Dev.setCore_stnM (d : Dev) (n : Nat) (c : Core) : (d.setCore n c).stnM = d.stnM := rfl
@[simp] theorem Dev.setCore_stns (d : Dev) (n : Nat) (c : Core) : (d.setCore n c).stns = d.stns := rfl
@[simp] theorem Dev.setCore_worlds (d : Dev) (n : Nat) (c : Core) : (d.setCore n c).worlds = d.worlds := rfl
@[simp] theorem Dev.setCore_wregs (d : Dev) (n : Nat) (c : Core) : (d.setCore n c).wregs = d.wregs := rfl
@[simp] theorem Dev.setCore_edgeTab (d : Dev) (n : Nat) (c : Core) : (d.setCore n c).edgeTab = d.edgeTab := rfl
@[simp] theorem Dev.setCore_edgeCnt (d : Dev) (n : Nat) (c : Core) : (d.setCore n c).edgeCnt = d.edgeCnt := rfl
@[simp] theorem Dev.setCore_edgeBuf (d : Dev) (n : Nat) (c : Core) : (d.setCore n c).edgeBuf = d.edgeBuf := rfl
@[simp] theorem Dev.setCore_injNext (d : Dev) (n : Nat) (c : Core) : (d.setCore n c).injNext = d.injNext := rfl
@[simp] theorem Dev.setCore_notices (d : Dev) (n : Nat) (c : Core) : (d.setCore n c).notices = d.notices := rfl
@[simp] theorem Dev.setCore_packets (d : Dev) (n : Nat) (c : Core) : (d.setCore n c).packets = d.packets := rfl
@[simp] theorem Dev.setCore_txns (d : Dev) (n : Nat) (c : Core) : (d.setCore n c).txns = d.txns := rfl
@[simp] theorem Dev.setCore_fwait (d : Dev) (n : Nat) (c : Core) : (d.setCore n c).fwait = d.fwait := rfl
@[simp] theorem Dev.setCore_frtTurn (d : Dev) (n : Nat) (c : Core) : (d.setCore n c).frtTurn = d.frtTurn := rfl
@[simp] theorem Dev.setCore_frtServed (d : Dev) (n : Nat) (c : Core) : (d.setCore n c).frtServed = d.frtServed := rfl
@[simp] theorem Dev.setCore_words (d : Dev) (n : Nat) (c : Core) : (d.setCore n c).words = d.words := rfl
@[simp] theorem Dev.setCore_bankHeld (d : Dev) (n : Nat) (c : Core) : (d.setCore n c).bankHeld = d.bankHeld := rfl
@[simp] theorem Dev.setCore_accNext (d : Dev) (n : Nat) (c : Core) : (d.setCore n c).accNext = d.accNext := rfl
@[simp] theorem Dev.setCore_streamers (d : Dev) (n : Nat) (c : Core) : (d.setCore n c).streamers = d.streamers := rfl
@[simp] theorem Dev.setCore_qnt (d : Dev) (n : Nat) (c : Core) : (d.setCore n c).qnt = d.qnt := rfl
@[simp] theorem Dev.setCore_prjs (d : Dev) (n : Nat) (c : Core) : (d.setCore n c).prjs = d.prjs := rfl
@[simp] theorem Dev.setCore_link (d : Dev) (n : Nat) (c : Core) : (d.setCore n c).link = d.link := rfl
@[simp] theorem Dev.setCore_rings (d : Dev) (n : Nat) (c : Core) : (d.setCore n c).rings = d.rings := rfl
@[simp] theorem Dev.setCore_encBase (d : Dev) (n : Nat) (c : Core) : (d.setCore n c).encBase = d.encBase := rfl
@[simp] theorem Dev.setCore_encSt (d : Dev) (n : Nat) (c : Core) : (d.setCore n c).encSt = d.encSt := rfl
@[simp] theorem Dev.setCore_encCnt (d : Dev) (n : Nat) (c : Core) : (d.setCore n c).encCnt = d.encCnt := rfl
@[simp] theorem Dev.setCore_decs (d : Dev) (n : Nat) (c : Core) : (d.setCore n c).decs = d.decs := rfl
@[simp] theorem Dev.setCore_trunks (d : Dev) (n : Nat) (c : Core) : (d.setCore n c).trunks = d.trunks := rfl
@[simp] theorem Dev.setCore_sys (d : Dev) (n : Nat) (c : Core) : (d.setCore n c).sys = d.sys := rfl
@[simp] theorem Dev.setCore_tpl (d : Dev) (n : Nat) (c : Core) : (d.setCore n c).tpl = d.tpl := rfl
@[simp] theorem Dev.setCore_coreMem (d : Dev) (n : Nat) (c : Core) : (d.setCore n c).coreMem = d.coreMem := rfl
@[simp] theorem Dev.setCore_chn (d : Dev) (n : Nat) (c : Core) : (d.setCore n c).chn = d.chn := rfl
@[simp] theorem Dev.setCore_irq (d : Dev) (n : Nat) (c : Core) : (d.setCore n c).irq = d.irq := rfl
@[simp] theorem Dev.setCore_timers (d : Dev) (n : Nat) (c : Core) : (d.setCore n c).timers = d.timers := rfl
@[simp] theorem Dev.setCore_sdma (d : Dev) (n : Nat) (c : Core) : (d.setCore n c).sdma = d.sdma := rfl
@[simp] theorem Dev.setCore_sdmaNext (d : Dev) (n : Nat) (c : Core) : (d.setCore n c).sdmaNext = d.sdmaNext := rfl
@[simp] theorem Dev.setCore_sdmaCpl (d : Dev) (n : Nat) (c : Core) : (d.setCore n c).sdmaCpl = d.sdmaCpl := rfl
@[simp] theorem Dev.setCore_mbt (d : Dev) (n : Nat) (c : Core) : (d.setCore n c).mbt = d.mbt := rfl
@[simp] theorem Dev.setCore_spares (d : Dev) (n : Nat) (c : Core) : (d.setCore n c).spares = d.spares := rfl
@[simp] theorem Dev.setCore_tok (d : Dev) (n : Nat) (c : Core) : (d.setCore n c).tok = d.tok := rfl
@[simp] theorem Dev.setCore_vfab (d : Dev) (n : Nat) (c : Core) : (d.setCore n c).vfab = d.vfab := rfl
@[simp] theorem Dev.setCore_pwr (d : Dev) (n : Nat) (c : Core) : (d.setCore n c).pwr = d.pwr := rfl
@[simp] theorem Dev.setCore_boot (d : Dev) (n : Nat) (c : Core) : (d.setCore n c).boot = d.boot := rfl
@[simp] theorem Dev.setCore_rst (d : Dev) (n : Nat) (c : Core) : (d.setCore n c).rst = d.rst := rfl
@[simp] theorem Dev.setCore_locked (d : Dev) (n : Nat) (c : Core) : (d.setCore n c).locked = d.locked := rfl
@[simp] theorem Dev.setCore_switches (d : Dev) (n : Nat) (c : Core) : (d.setCore n c).switches = d.switches := rfl
@[simp] theorem Dev.setCore_xchWant (d : Dev) (n : Nat) (c : Core) : (d.setCore n c).xchWant = d.xchWant := rfl
@[simp] theorem Dev.setCore_fwu (d : Dev) (n : Nat) (c : Core) : (d.setCore n c).fwu = d.fwu := rfl
@[simp] theorem Dev.setCore_microcode (d : Dev) (n : Nat) (c : Core) : (d.setCore n c).microcode = d.microcode := rfl
@[simp] theorem Dev.setCore_training (d : Dev) (n : Nat) (c : Core) : (d.setCore n c).training = d.training := rfl
@[simp] theorem Dev.setCore_jtag (d : Dev) (n : Nat) (c : Core) : (d.setCore n c).jtag = d.jtag := rfl
@[simp] theorem Dev.setCore_pins (d : Dev) (n : Nat) (c : Core) : (d.setCore n c).pins = d.pins := rfl
@[simp] theorem Dev.setCore_araDone (d : Dev) (n : Nat) (c : Core) : (d.setCore n c).araDone = d.araDone := rfl
@[simp] theorem Dev.setCore_smbUse (d : Dev) (n : Nat) (c : Core) : (d.setCore n c).smbUse = d.smbUse := rfl
@[simp] theorem Dev.setCore_sbclk (d : Dev) (n : Nat) (c : Core) : (d.setCore n c).sbclk = d.sbclk := rfl
@[simp] theorem Dev.setCore_powered (d : Dev) (n : Nat) (c : Core) : (d.setCore n c).powered = d.powered := rfl
@[simp] theorem Dev.setCore_fwdClk (d : Dev) (n : Nat) (c : Core) : (d.setCore n c).fwdClk = d.fwdClk := rfl
@[simp] theorem Dev.setCore_now (d : Dev) (n : Nat) (c : Core) : (d.setCore n c).now = d.now := rfl
@[simp] theorem Dev.setCore_freeCtr (d : Dev) (n : Nat) (c : Core) : (d.setCore n c).freeCtr = d.freeCtr := rfl

@[simp] theorem Dev.setTimer_regs (d : Dev) (c : Nat) (t : Timer) : (d.setTimer c t).regs = d.regs := rfl
@[simp] theorem Dev.setTimer_mregs (d : Dev) (c : Nat) (t : Timer) : (d.setTimer c t).mregs = d.mregs := rfl
@[simp] theorem Dev.setTimer_latches (d : Dev) (c : Nat) (t : Timer) : (d.setTimer c t).latches = d.latches := rfl
@[simp] theorem Dev.setTimer_compl (d : Dev) (c : Nat) (t : Timer) : (d.setTimer c t).compl = d.compl := rfl
@[simp] theorem Dev.setTimer_stnW (d : Dev) (c : Nat) (t : Timer) : (d.setTimer c t).stnW = d.stnW := rfl
@[simp] theorem Dev.setTimer_stnM (d : Dev) (c : Nat) (t : Timer) : (d.setTimer c t).stnM = d.stnM := rfl
@[simp] theorem Dev.setTimer_stns (d : Dev) (c : Nat) (t : Timer) : (d.setTimer c t).stns = d.stns := rfl
@[simp] theorem Dev.setTimer_worlds (d : Dev) (c : Nat) (t : Timer) : (d.setTimer c t).worlds = d.worlds := rfl
@[simp] theorem Dev.setTimer_wregs (d : Dev) (c : Nat) (t : Timer) : (d.setTimer c t).wregs = d.wregs := rfl
@[simp] theorem Dev.setTimer_edgeTab (d : Dev) (c : Nat) (t : Timer) : (d.setTimer c t).edgeTab = d.edgeTab := rfl
@[simp] theorem Dev.setTimer_edgeCnt (d : Dev) (c : Nat) (t : Timer) : (d.setTimer c t).edgeCnt = d.edgeCnt := rfl
@[simp] theorem Dev.setTimer_edgeBuf (d : Dev) (c : Nat) (t : Timer) : (d.setTimer c t).edgeBuf = d.edgeBuf := rfl
@[simp] theorem Dev.setTimer_injNext (d : Dev) (c : Nat) (t : Timer) : (d.setTimer c t).injNext = d.injNext := rfl
@[simp] theorem Dev.setTimer_notices (d : Dev) (c : Nat) (t : Timer) : (d.setTimer c t).notices = d.notices := rfl
@[simp] theorem Dev.setTimer_packets (d : Dev) (c : Nat) (t : Timer) : (d.setTimer c t).packets = d.packets := rfl
@[simp] theorem Dev.setTimer_txns (d : Dev) (c : Nat) (t : Timer) : (d.setTimer c t).txns = d.txns := rfl
@[simp] theorem Dev.setTimer_fwait (d : Dev) (c : Nat) (t : Timer) : (d.setTimer c t).fwait = d.fwait := rfl
@[simp] theorem Dev.setTimer_frtTurn (d : Dev) (c : Nat) (t : Timer) : (d.setTimer c t).frtTurn = d.frtTurn := rfl
@[simp] theorem Dev.setTimer_frtServed (d : Dev) (c : Nat) (t : Timer) : (d.setTimer c t).frtServed = d.frtServed := rfl
@[simp] theorem Dev.setTimer_words (d : Dev) (c : Nat) (t : Timer) : (d.setTimer c t).words = d.words := rfl
@[simp] theorem Dev.setTimer_bankHeld (d : Dev) (c : Nat) (t : Timer) : (d.setTimer c t).bankHeld = d.bankHeld := rfl
@[simp] theorem Dev.setTimer_accNext (d : Dev) (c : Nat) (t : Timer) : (d.setTimer c t).accNext = d.accNext := rfl
@[simp] theorem Dev.setTimer_streamers (d : Dev) (c : Nat) (t : Timer) : (d.setTimer c t).streamers = d.streamers := rfl
@[simp] theorem Dev.setTimer_qnt (d : Dev) (c : Nat) (t : Timer) : (d.setTimer c t).qnt = d.qnt := rfl
@[simp] theorem Dev.setTimer_prjs (d : Dev) (c : Nat) (t : Timer) : (d.setTimer c t).prjs = d.prjs := rfl
@[simp] theorem Dev.setTimer_link (d : Dev) (c : Nat) (t : Timer) : (d.setTimer c t).link = d.link := rfl
@[simp] theorem Dev.setTimer_rings (d : Dev) (c : Nat) (t : Timer) : (d.setTimer c t).rings = d.rings := rfl
@[simp] theorem Dev.setTimer_encBase (d : Dev) (c : Nat) (t : Timer) : (d.setTimer c t).encBase = d.encBase := rfl
@[simp] theorem Dev.setTimer_encSt (d : Dev) (c : Nat) (t : Timer) : (d.setTimer c t).encSt = d.encSt := rfl
@[simp] theorem Dev.setTimer_encCnt (d : Dev) (c : Nat) (t : Timer) : (d.setTimer c t).encCnt = d.encCnt := rfl
@[simp] theorem Dev.setTimer_decs (d : Dev) (c : Nat) (t : Timer) : (d.setTimer c t).decs = d.decs := rfl
@[simp] theorem Dev.setTimer_trunks (d : Dev) (c : Nat) (t : Timer) : (d.setTimer c t).trunks = d.trunks := rfl
@[simp] theorem Dev.setTimer_sys (d : Dev) (c : Nat) (t : Timer) : (d.setTimer c t).sys = d.sys := rfl
@[simp] theorem Dev.setTimer_tpl (d : Dev) (c : Nat) (t : Timer) : (d.setTimer c t).tpl = d.tpl := rfl
@[simp] theorem Dev.setTimer_cores (d : Dev) (c : Nat) (t : Timer) : (d.setTimer c t).cores = d.cores := rfl
@[simp] theorem Dev.setTimer_coreMem (d : Dev) (c : Nat) (t : Timer) : (d.setTimer c t).coreMem = d.coreMem := rfl
@[simp] theorem Dev.setTimer_chn (d : Dev) (c : Nat) (t : Timer) : (d.setTimer c t).chn = d.chn := rfl
@[simp] theorem Dev.setTimer_irq (d : Dev) (c : Nat) (t : Timer) : (d.setTimer c t).irq = d.irq := rfl
@[simp] theorem Dev.setTimer_sdma (d : Dev) (c : Nat) (t : Timer) : (d.setTimer c t).sdma = d.sdma := rfl
@[simp] theorem Dev.setTimer_sdmaNext (d : Dev) (c : Nat) (t : Timer) : (d.setTimer c t).sdmaNext = d.sdmaNext := rfl
@[simp] theorem Dev.setTimer_sdmaCpl (d : Dev) (c : Nat) (t : Timer) : (d.setTimer c t).sdmaCpl = d.sdmaCpl := rfl
@[simp] theorem Dev.setTimer_mbt (d : Dev) (c : Nat) (t : Timer) : (d.setTimer c t).mbt = d.mbt := rfl
@[simp] theorem Dev.setTimer_spares (d : Dev) (c : Nat) (t : Timer) : (d.setTimer c t).spares = d.spares := rfl
@[simp] theorem Dev.setTimer_tok (d : Dev) (c : Nat) (t : Timer) : (d.setTimer c t).tok = d.tok := rfl
@[simp] theorem Dev.setTimer_vfab (d : Dev) (c : Nat) (t : Timer) : (d.setTimer c t).vfab = d.vfab := rfl
@[simp] theorem Dev.setTimer_pwr (d : Dev) (c : Nat) (t : Timer) : (d.setTimer c t).pwr = d.pwr := rfl
@[simp] theorem Dev.setTimer_boot (d : Dev) (c : Nat) (t : Timer) : (d.setTimer c t).boot = d.boot := rfl
@[simp] theorem Dev.setTimer_rst (d : Dev) (c : Nat) (t : Timer) : (d.setTimer c t).rst = d.rst := rfl
@[simp] theorem Dev.setTimer_locked (d : Dev) (c : Nat) (t : Timer) : (d.setTimer c t).locked = d.locked := rfl
@[simp] theorem Dev.setTimer_switches (d : Dev) (c : Nat) (t : Timer) : (d.setTimer c t).switches = d.switches := rfl
@[simp] theorem Dev.setTimer_xchWant (d : Dev) (c : Nat) (t : Timer) : (d.setTimer c t).xchWant = d.xchWant := rfl
@[simp] theorem Dev.setTimer_fwu (d : Dev) (c : Nat) (t : Timer) : (d.setTimer c t).fwu = d.fwu := rfl
@[simp] theorem Dev.setTimer_microcode (d : Dev) (c : Nat) (t : Timer) : (d.setTimer c t).microcode = d.microcode := rfl
@[simp] theorem Dev.setTimer_training (d : Dev) (c : Nat) (t : Timer) : (d.setTimer c t).training = d.training := rfl
@[simp] theorem Dev.setTimer_jtag (d : Dev) (c : Nat) (t : Timer) : (d.setTimer c t).jtag = d.jtag := rfl
@[simp] theorem Dev.setTimer_pins (d : Dev) (c : Nat) (t : Timer) : (d.setTimer c t).pins = d.pins := rfl
@[simp] theorem Dev.setTimer_araDone (d : Dev) (c : Nat) (t : Timer) : (d.setTimer c t).araDone = d.araDone := rfl
@[simp] theorem Dev.setTimer_smbUse (d : Dev) (c : Nat) (t : Timer) : (d.setTimer c t).smbUse = d.smbUse := rfl
@[simp] theorem Dev.setTimer_sbclk (d : Dev) (c : Nat) (t : Timer) : (d.setTimer c t).sbclk = d.sbclk := rfl
@[simp] theorem Dev.setTimer_powered (d : Dev) (c : Nat) (t : Timer) : (d.setTimer c t).powered = d.powered := rfl
@[simp] theorem Dev.setTimer_fwdClk (d : Dev) (c : Nat) (t : Timer) : (d.setTimer c t).fwdClk = d.fwdClk := rfl
@[simp] theorem Dev.setTimer_now (d : Dev) (c : Nat) (t : Timer) : (d.setTimer c t).now = d.now := rfl
@[simp] theorem Dev.setTimer_freeCtr (d : Dev) (c : Nat) (t : Timer) : (d.setTimer c t).freeCtr = d.freeCtr := rfl

@[simp] theorem Dev.irq1_regs (d : Dev) (k : Nat) : (d.irq1 k).regs = d.regs := rfl
@[simp] theorem Dev.irq1_mregs (d : Dev) (k : Nat) : (d.irq1 k).mregs = d.mregs := rfl
@[simp] theorem Dev.irq1_latches (d : Dev) (k : Nat) : (d.irq1 k).latches = d.latches := rfl
@[simp] theorem Dev.irq1_compl (d : Dev) (k : Nat) : (d.irq1 k).compl = d.compl := rfl
@[simp] theorem Dev.irq1_stnW (d : Dev) (k : Nat) : (d.irq1 k).stnW = d.stnW := rfl
@[simp] theorem Dev.irq1_stnM (d : Dev) (k : Nat) : (d.irq1 k).stnM = d.stnM := rfl
@[simp] theorem Dev.irq1_stns (d : Dev) (k : Nat) : (d.irq1 k).stns = d.stns := rfl
@[simp] theorem Dev.irq1_worlds (d : Dev) (k : Nat) : (d.irq1 k).worlds = d.worlds := rfl
@[simp] theorem Dev.irq1_wregs (d : Dev) (k : Nat) : (d.irq1 k).wregs = d.wregs := rfl
@[simp] theorem Dev.irq1_edgeTab (d : Dev) (k : Nat) : (d.irq1 k).edgeTab = d.edgeTab := rfl
@[simp] theorem Dev.irq1_edgeCnt (d : Dev) (k : Nat) : (d.irq1 k).edgeCnt = d.edgeCnt := rfl
@[simp] theorem Dev.irq1_edgeBuf (d : Dev) (k : Nat) : (d.irq1 k).edgeBuf = d.edgeBuf := rfl
@[simp] theorem Dev.irq1_injNext (d : Dev) (k : Nat) : (d.irq1 k).injNext = d.injNext := rfl
@[simp] theorem Dev.irq1_notices (d : Dev) (k : Nat) : (d.irq1 k).notices = d.notices := rfl
@[simp] theorem Dev.irq1_packets (d : Dev) (k : Nat) : (d.irq1 k).packets = d.packets := rfl
@[simp] theorem Dev.irq1_txns (d : Dev) (k : Nat) : (d.irq1 k).txns = d.txns := rfl
@[simp] theorem Dev.irq1_fwait (d : Dev) (k : Nat) : (d.irq1 k).fwait = d.fwait := rfl
@[simp] theorem Dev.irq1_frtTurn (d : Dev) (k : Nat) : (d.irq1 k).frtTurn = d.frtTurn := rfl
@[simp] theorem Dev.irq1_frtServed (d : Dev) (k : Nat) : (d.irq1 k).frtServed = d.frtServed := rfl
@[simp] theorem Dev.irq1_words (d : Dev) (k : Nat) : (d.irq1 k).words = d.words := rfl
@[simp] theorem Dev.irq1_bankHeld (d : Dev) (k : Nat) : (d.irq1 k).bankHeld = d.bankHeld := rfl
@[simp] theorem Dev.irq1_accNext (d : Dev) (k : Nat) : (d.irq1 k).accNext = d.accNext := rfl
@[simp] theorem Dev.irq1_streamers (d : Dev) (k : Nat) : (d.irq1 k).streamers = d.streamers := rfl
@[simp] theorem Dev.irq1_qnt (d : Dev) (k : Nat) : (d.irq1 k).qnt = d.qnt := rfl
@[simp] theorem Dev.irq1_prjs (d : Dev) (k : Nat) : (d.irq1 k).prjs = d.prjs := rfl
@[simp] theorem Dev.irq1_link (d : Dev) (k : Nat) : (d.irq1 k).link = d.link := rfl
@[simp] theorem Dev.irq1_rings (d : Dev) (k : Nat) : (d.irq1 k).rings = d.rings := rfl
@[simp] theorem Dev.irq1_encBase (d : Dev) (k : Nat) : (d.irq1 k).encBase = d.encBase := rfl
@[simp] theorem Dev.irq1_encSt (d : Dev) (k : Nat) : (d.irq1 k).encSt = d.encSt := rfl
@[simp] theorem Dev.irq1_encCnt (d : Dev) (k : Nat) : (d.irq1 k).encCnt = d.encCnt := rfl
@[simp] theorem Dev.irq1_decs (d : Dev) (k : Nat) : (d.irq1 k).decs = d.decs := rfl
@[simp] theorem Dev.irq1_trunks (d : Dev) (k : Nat) : (d.irq1 k).trunks = d.trunks := rfl
@[simp] theorem Dev.irq1_sys (d : Dev) (k : Nat) : (d.irq1 k).sys = d.sys := rfl
@[simp] theorem Dev.irq1_tpl (d : Dev) (k : Nat) : (d.irq1 k).tpl = d.tpl := rfl
@[simp] theorem Dev.irq1_cores (d : Dev) (k : Nat) : (d.irq1 k).cores = d.cores := rfl
@[simp] theorem Dev.irq1_coreMem (d : Dev) (k : Nat) : (d.irq1 k).coreMem = d.coreMem := rfl
@[simp] theorem Dev.irq1_chn (d : Dev) (k : Nat) : (d.irq1 k).chn = d.chn := rfl
@[simp] theorem Dev.irq1_timers (d : Dev) (k : Nat) : (d.irq1 k).timers = d.timers := rfl
@[simp] theorem Dev.irq1_sdma (d : Dev) (k : Nat) : (d.irq1 k).sdma = d.sdma := rfl
@[simp] theorem Dev.irq1_sdmaNext (d : Dev) (k : Nat) : (d.irq1 k).sdmaNext = d.sdmaNext := rfl
@[simp] theorem Dev.irq1_sdmaCpl (d : Dev) (k : Nat) : (d.irq1 k).sdmaCpl = d.sdmaCpl := rfl
@[simp] theorem Dev.irq1_mbt (d : Dev) (k : Nat) : (d.irq1 k).mbt = d.mbt := rfl
@[simp] theorem Dev.irq1_spares (d : Dev) (k : Nat) : (d.irq1 k).spares = d.spares := rfl
@[simp] theorem Dev.irq1_tok (d : Dev) (k : Nat) : (d.irq1 k).tok = d.tok := rfl
@[simp] theorem Dev.irq1_vfab (d : Dev) (k : Nat) : (d.irq1 k).vfab = d.vfab := rfl
@[simp] theorem Dev.irq1_pwr (d : Dev) (k : Nat) : (d.irq1 k).pwr = d.pwr := rfl
@[simp] theorem Dev.irq1_boot (d : Dev) (k : Nat) : (d.irq1 k).boot = d.boot := rfl
@[simp] theorem Dev.irq1_rst (d : Dev) (k : Nat) : (d.irq1 k).rst = d.rst := rfl
@[simp] theorem Dev.irq1_locked (d : Dev) (k : Nat) : (d.irq1 k).locked = d.locked := rfl
@[simp] theorem Dev.irq1_switches (d : Dev) (k : Nat) : (d.irq1 k).switches = d.switches := rfl
@[simp] theorem Dev.irq1_xchWant (d : Dev) (k : Nat) : (d.irq1 k).xchWant = d.xchWant := rfl
@[simp] theorem Dev.irq1_fwu (d : Dev) (k : Nat) : (d.irq1 k).fwu = d.fwu := rfl
@[simp] theorem Dev.irq1_microcode (d : Dev) (k : Nat) : (d.irq1 k).microcode = d.microcode := rfl
@[simp] theorem Dev.irq1_training (d : Dev) (k : Nat) : (d.irq1 k).training = d.training := rfl
@[simp] theorem Dev.irq1_jtag (d : Dev) (k : Nat) : (d.irq1 k).jtag = d.jtag := rfl
@[simp] theorem Dev.irq1_pins (d : Dev) (k : Nat) : (d.irq1 k).pins = d.pins := rfl
@[simp] theorem Dev.irq1_araDone (d : Dev) (k : Nat) : (d.irq1 k).araDone = d.araDone := rfl
@[simp] theorem Dev.irq1_smbUse (d : Dev) (k : Nat) : (d.irq1 k).smbUse = d.smbUse := rfl
@[simp] theorem Dev.irq1_sbclk (d : Dev) (k : Nat) : (d.irq1 k).sbclk = d.sbclk := rfl
@[simp] theorem Dev.irq1_powered (d : Dev) (k : Nat) : (d.irq1 k).powered = d.powered := rfl
@[simp] theorem Dev.irq1_fwdClk (d : Dev) (k : Nat) : (d.irq1 k).fwdClk = d.fwdClk := rfl
@[simp] theorem Dev.irq1_now (d : Dev) (k : Nat) : (d.irq1 k).now = d.now := rfl
@[simp] theorem Dev.irq1_freeCtr (d : Dev) (k : Nat) : (d.irq1 k).freeCtr = d.freeCtr := rfl

@[simp] theorem Dev.settle_regs (d : Dev) : (d.settle).regs = d.regs := rfl
@[simp] theorem Dev.settle_mregs (d : Dev) : (d.settle).mregs = d.mregs := rfl
@[simp] theorem Dev.settle_latches (d : Dev) : (d.settle).latches = d.latches := rfl
@[simp] theorem Dev.settle_compl (d : Dev) : (d.settle).compl = d.compl := rfl
@[simp] theorem Dev.settle_stnW (d : Dev) : (d.settle).stnW = d.stnW := rfl
@[simp] theorem Dev.settle_stnM (d : Dev) : (d.settle).stnM = d.stnM := rfl
@[simp] theorem Dev.settle_stns (d : Dev) : (d.settle).stns = d.stns := rfl
@[simp] theorem Dev.settle_worlds (d : Dev) : (d.settle).worlds = d.worlds := rfl
@[simp] theorem Dev.settle_wregs (d : Dev) : (d.settle).wregs = d.wregs := rfl
@[simp] theorem Dev.settle_edgeTab (d : Dev) : (d.settle).edgeTab = d.edgeTab := rfl
@[simp] theorem Dev.settle_edgeCnt (d : Dev) : (d.settle).edgeCnt = d.edgeCnt := rfl
@[simp] theorem Dev.settle_edgeBuf (d : Dev) : (d.settle).edgeBuf = d.edgeBuf := rfl
@[simp] theorem Dev.settle_injNext (d : Dev) : (d.settle).injNext = d.injNext := rfl
@[simp] theorem Dev.settle_notices (d : Dev) : (d.settle).notices = d.notices := rfl
@[simp] theorem Dev.settle_packets (d : Dev) : (d.settle).packets = d.packets := rfl
@[simp] theorem Dev.settle_txns (d : Dev) : (d.settle).txns = d.txns := rfl
@[simp] theorem Dev.settle_fwait (d : Dev) : (d.settle).fwait = d.fwait := rfl
@[simp] theorem Dev.settle_frtTurn (d : Dev) : (d.settle).frtTurn = d.frtTurn := rfl
@[simp] theorem Dev.settle_frtServed (d : Dev) : (d.settle).frtServed = d.frtServed := rfl
@[simp] theorem Dev.settle_words (d : Dev) : (d.settle).words = d.words := rfl
@[simp] theorem Dev.settle_bankHeld (d : Dev) : (d.settle).bankHeld = d.bankHeld := rfl
@[simp] theorem Dev.settle_accNext (d : Dev) : (d.settle).accNext = d.accNext := rfl
@[simp] theorem Dev.settle_streamers (d : Dev) : (d.settle).streamers = d.streamers := rfl
@[simp] theorem Dev.settle_qnt (d : Dev) : (d.settle).qnt = d.qnt := rfl
@[simp] theorem Dev.settle_prjs (d : Dev) : (d.settle).prjs = d.prjs := rfl
@[simp] theorem Dev.settle_link (d : Dev) : (d.settle).link = d.link := rfl
@[simp] theorem Dev.settle_rings (d : Dev) : (d.settle).rings = d.rings := rfl
@[simp] theorem Dev.settle_encBase (d : Dev) : (d.settle).encBase = d.encBase := rfl
@[simp] theorem Dev.settle_encSt (d : Dev) : (d.settle).encSt = d.encSt := rfl
@[simp] theorem Dev.settle_encCnt (d : Dev) : (d.settle).encCnt = d.encCnt := rfl
@[simp] theorem Dev.settle_decs (d : Dev) : (d.settle).decs = d.decs := rfl
@[simp] theorem Dev.settle_trunks (d : Dev) : (d.settle).trunks = d.trunks := rfl
@[simp] theorem Dev.settle_sys (d : Dev) : (d.settle).sys = d.sys := rfl
@[simp] theorem Dev.settle_tpl (d : Dev) : (d.settle).tpl = d.tpl := rfl
@[simp] theorem Dev.settle_cores (d : Dev) : (d.settle).cores = d.cores := rfl
@[simp] theorem Dev.settle_coreMem (d : Dev) : (d.settle).coreMem = d.coreMem := rfl
@[simp] theorem Dev.settle_chn (d : Dev) : (d.settle).chn = d.chn := rfl
@[simp] theorem Dev.settle_timers (d : Dev) : (d.settle).timers = d.timers := rfl
@[simp] theorem Dev.settle_sdma (d : Dev) : (d.settle).sdma = d.sdma := rfl
@[simp] theorem Dev.settle_sdmaNext (d : Dev) : (d.settle).sdmaNext = d.sdmaNext := rfl
@[simp] theorem Dev.settle_sdmaCpl (d : Dev) : (d.settle).sdmaCpl = d.sdmaCpl := rfl
@[simp] theorem Dev.settle_mbt (d : Dev) : (d.settle).mbt = d.mbt := rfl
@[simp] theorem Dev.settle_spares (d : Dev) : (d.settle).spares = d.spares := rfl
@[simp] theorem Dev.settle_tok (d : Dev) : (d.settle).tok = d.tok := rfl
@[simp] theorem Dev.settle_vfab (d : Dev) : (d.settle).vfab = d.vfab := rfl
@[simp] theorem Dev.settle_pwr (d : Dev) : (d.settle).pwr = d.pwr := rfl
@[simp] theorem Dev.settle_boot (d : Dev) : (d.settle).boot = d.boot := rfl
@[simp] theorem Dev.settle_rst (d : Dev) : (d.settle).rst = d.rst := rfl
@[simp] theorem Dev.settle_locked (d : Dev) : (d.settle).locked = d.locked := rfl
@[simp] theorem Dev.settle_switches (d : Dev) : (d.settle).switches = d.switches := rfl
@[simp] theorem Dev.settle_xchWant (d : Dev) : (d.settle).xchWant = d.xchWant := rfl
@[simp] theorem Dev.settle_fwu (d : Dev) : (d.settle).fwu = d.fwu := rfl
@[simp] theorem Dev.settle_microcode (d : Dev) : (d.settle).microcode = d.microcode := rfl
@[simp] theorem Dev.settle_training (d : Dev) : (d.settle).training = d.training := rfl
@[simp] theorem Dev.settle_jtag (d : Dev) : (d.settle).jtag = d.jtag := rfl
@[simp] theorem Dev.settle_pins (d : Dev) : (d.settle).pins = d.pins := rfl
@[simp] theorem Dev.settle_araDone (d : Dev) : (d.settle).araDone = d.araDone := rfl
@[simp] theorem Dev.settle_smbUse (d : Dev) : (d.settle).smbUse = d.smbUse := rfl
@[simp] theorem Dev.settle_sbclk (d : Dev) : (d.settle).sbclk = d.sbclk := rfl
@[simp] theorem Dev.settle_powered (d : Dev) : (d.settle).powered = d.powered := rfl
@[simp] theorem Dev.settle_fwdClk (d : Dev) : (d.settle).fwdClk = d.fwdClk := rfl
@[simp] theorem Dev.settle_now (d : Dev) : (d.settle).now = d.now := rfl
@[simp] theorem Dev.settle_freeCtr (d : Dev) : (d.settle).freeCtr = d.freeCtr := rfl

/-! ### A read after a write -/

theorem Dev.rd_wr (d : Dev) (a : Nat) (v : Word) (b : Nat) : (d.wr a v).rd b = if b = a then v else d.rd b :=
  PMap.get_set _ _ _ _ _
@[simp] theorem Dev.rd_wr_self (d : Dev) (a : Nat) (v : Word) : (d.wr a v).rd a = v := PMap.get_set_self _ _ _ _
theorem Dev.rd_wr_ne (d : Dev) {a b : Nat} (v : Word) (h : b ≠ a) : (d.wr a v).rd b = d.rd b := PMap.get_set_ne _ _ _ h
@[simp] theorem Dev.rd_settle (d : Dev) (a : Nat) : d.settle.rd a = d.rd a := rfl
@[simp] theorem Dev.rd_irq1 (d : Dev) (k a : Nat) : (d.irq1 k).rd a = d.rd a := rfl
@[simp] theorem Dev.rd_complete (d : Dev) (m : Master) (st : Status) (l : List Word) (a : Nat) :
    (d.complete m st l).rd a = d.rd a := rfl
@[simp] theorem Dev.rd_resetRegs (d : Dev) (lo hi a : Nat) :
    (d.resetRegs lo hi).rd a = if lo ≤ a ∧ a < hi then regDflt a else d.rd a := PMap.get_clear _ _ _ _ _

theorem Dev.sW_setSW (d : Dev) (p o : Nat) (v : Word) (q r : Nat) :
    (d.setSW p o v).sW q r = if skey q r = skey p o then v else d.sW q r := PMap.get_set _ _ _ _ _
@[simp] theorem Dev.sW_setSW_self (d : Dev) (p o : Nat) (v : Word) : (d.setSW p o v).sW p o = v := PMap.get_set_self _ _ _ _

@[simp] theorem Dev.completion_complete (d : Dev) (m : Master) (st : Status) (l : List Word) :
    (d.complete m st l).completion m = { status := st, data := l } := PMap.get_set_self _ _ _ _
@[simp] theorem Dev.completion_settle (d : Dev) (m : Master) : d.settle.completion m = d.completion m := rfl

@[simp] theorem Dev.stn_setStn (d : Dev) (p : Nat) (x : Station) : (d.setStn p x).stn p = x := PMap.get_set_self _ _ _ _
@[simp] theorem Dev.wld_setWld (d : Dev) (w : Nat) (x : World) : (d.setWld w x).wld w = x := PMap.get_set_self _ _ _ _
@[simp] theorem Dev.timer_setTimer (d : Dev) (c : Nat) (t : Timer) : (d.setTimer c t).timer c = t := PMap.get_set_self _ _ _ _
@[simp] theorem Dev.ring_setRing (d : Dev) (r : Nat) (x : Ring) : (d.setRing r x).ring r = x := PMap.get_set_self _ _ _ _
@[simp] theorem Dev.dec_setDec (d : Dev) (c : Nat) (x : Dec) : (d.setDec c x).dec c = x := PMap.get_set_self _ _ _ _
@[simp] theorem Dev.core_setCore (d : Dev) (n : Nat) (c : Core) : (d.setCore n c).core n = c := PMap.get_set_self _ _ _ _
@[simp] theorem Dev.prj_setPrj (d : Dev) (u : Nat) (x : Prj) : (d.setPrj u x).prj u = x := PMap.get_set_self _ _ _ _
@[simp] theorem Dev.trunk_setTrunk (d : Dev) (k : Nat) (x : Trunk) : (d.setTrunk k x).trunk k = x := PMap.get_set_self _ _ _ _
@[simp] theorem Dev.streamer_setStreamer (d : Dev) (s : Nat) (x : Streamer) : (d.setStreamer s x).streamer s = x :=
  PMap.get_set_self _ _ _ _

@[simp] theorem Dev.wld_settle (d : Dev) (w : Nat) : d.settle.wld w = d.wld w := rfl
@[simp] theorem Dev.stn_settle (d : Dev) (p : Nat) : d.settle.stn p = d.stn p := rfl
@[simp] theorem Dev.sW_settle (d : Dev) (p o : Nat) : d.settle.sW p o = d.sW p o := rfl
@[simp] theorem Dev.sM_settle (d : Dev) (p o : Nat) : d.settle.sM p o = d.sM p o := rfl
@[simp] theorem Dev.timer_settle (d : Dev) (c : Nat) : d.settle.timer c = d.timer c := rfl
@[simp] theorem Dev.ring_settle (d : Dev) (c : Nat) : d.settle.ring c = d.ring c := rfl
@[simp] theorem Dev.dec_settle (d : Dev) (c : Nat) : d.settle.dec c = d.dec c := rfl
@[simp] theorem Dev.core_settle (d : Dev) (c : Nat) : d.settle.core c = d.core c := rfl
@[simp] theorem Dev.prj_settle (d : Dev) (c : Nat) : d.settle.prj c = d.prj c := rfl
@[simp] theorem Dev.trunk_settle (d : Dev) (c : Nat) : d.settle.trunk c = d.trunk c := rfl
@[simp] theorem Dev.streamer_settle (d : Dev) (c : Nat) : d.settle.streamer c = d.streamer c := rfl

end Sys2Proof.Machine
end

