-- ==== Sys2Proof/Laws/Irq.lean ====
section
/-! SUPPORT. What settling the interrupt aggregator does: it changes no enable and only adds pending bits, one for every
level source asserted, and it lowers the line of every target that has no source. -/

namespace Sys2Proof.Machine

theorem Irq.settle1_pend (now : Nat) (q : Irq) (t : Nat) : (Irq.settle1 now q t).pend = q.pend := by
  unfold Irq.settle1; dsimp only; split <;> rfl

theorem Irq.settle1_en (now : Nat) (q : Irq) (t : Nat) : (Irq.settle1 now q t).en = q.en := by
  unfold Irq.settle1; dsimp only; split <;> rfl

theorem Irq.settle1_pinOut (now : Nat) (q : Irq) (t : Nat) : (Irq.settle1 now q t).pinOut = q.pinOut := by
  unfold Irq.settle1; dsimp only; split <;> rfl

theorem Irq.settle1_stnMap (now : Nat) (q : Irq) (t : Nat) : (Irq.settle1 now q t).stnMap = q.stnMap := by
  unfold Irq.settle1; dsimp only; split <;> rfl

theorem Irq.settle1_dset (now : Nat) (q : Irq) (t u : Nat) : (Irq.settle1 now q t).dset u = q.dset u := by
  unfold Irq.dset; rw [Irq.settle1_pend, Irq.settle1_en]

/-- What holds of the aggregator before, after settling any list of targets. -/
theorem Irq.settle_fold (now : Nat) (l : List Nat) (q : Irq) :
    let r := l.foldl (Irq.settle1 now) q
    r.pend = q.pend ∧ r.en = q.en ∧ r.pinOut = q.pinOut ∧ r.stnMap = q.stnMap := by
  induction l generalizing q with
  | nil => exact ⟨rfl, rfl, rfl, rfl⟩
  | cons t l ih =>
    obtain ⟨h1, h2, h3, h4⟩ := ih (Irq.settle1 now q t)
    exact ⟨h1.trans (settle1_pend ..), h2.trans (settle1_en ..), h3.trans (settle1_pinOut ..), h4.trans (settle1_stnMap ..)⟩

/-- A line that is low stays low. -/
theorem Irq.settle1_line_low (now : Nat) (q : Irq) (t u : Nat) (h : q.line.getLsbD u = false) :
    (Irq.settle1 now q t).line.getLsbD u = false := by
  unfold Irq.settle1; dsimp only; split
  · simp [h]
  · exact h

theorem Irq.settle1_line_self (now : Nat) (q : Irq) (t : Nat) (ht : t < 9) (h : q.dset t = 0) :
    (Irq.settle1 now q t).line.getLsbD t = false := by
  unfold Irq.settle1; dsimp only; rw [if_pos h]
  simp [ht]

theorem Irq.settle_fold_line (now : Nat) (l : List Nat) (q : Irq) (t : Nat) (ht : t < 9) (h : q.dset t = 0)
    (hl : t ∈ l ∨ q.line.getLsbD t = false) : (l.foldl (Irq.settle1 now) q).line.getLsbD t = false := by
  induction l generalizing q with
  | nil => exact hl.resolve_left (by simp)
  | cons u l ih =>
    apply ih
    · rw [settle1_dset]; exact h
    · by_cases e : t = u
      · subst e; exact .inr (settle1_line_self now q t ht h)
      · rcases hl with hl | hl
        · exact .inl ((List.mem_cons.mp hl).resolve_left e)
        · exact .inr (settle1_line_low now q u t hl)

@[simp] theorem Dev.settle_pend (d : Dev) : d.settle.irq.pend = d.pendNow := (Irq.settle_fold _ _ _).1
@[simp] theorem Dev.settle_en (d : Dev) : d.settle.irq.en = d.irq.en := (Irq.settle_fold _ _ _).2.1
@[simp] theorem Dev.settle_pinOut (d : Dev) : d.settle.irq.pinOut = d.irq.pinOut := (Irq.settle_fold _ _ _).2.2.1
@[simp] theorem Dev.settle_stnMap (d : Dev) : d.settle.irq.stnMap = d.irq.stnMap := (Irq.settle_fold _ _ _).2.2.2

/-- After settling, a target without sources has its line low. -/
theorem Dev.settle_line (d : Dev) (t : Nat) (ht : t < 9) (h : d.settle.irq.dset t = 0) :
    d.settle.irq.line.getLsbD t = false := by
  refine Irq.settle_fold_line _ _ _ t ht ?_ (.inl (List.mem_range.mpr ht))
  have : d.settle.irq.dset t = Irq.dset { d.irq with pend := d.pendNow } t := by
    simp only [Irq.dset, Dev.settle_pend, Dev.settle_en]
  exact this ▸ h

/-- Whether a level source is asserted does not depend on what settling changes. -/
@[simp] theorem Dev.settle_asserted (d : Dev) (k : Nat) : d.settle.asserted k = d.asserted k := by
  unfold Dev.asserted
  simp only [Dev.rd_settle, Dev.settle_pinOut, Dev.settle_stnMap]
  rfl

theorem pend_fold (d : Dev) (l : List Nat) (p : BitVec 256) (k : Nat) (hk : k < 256) :
    (l.foldl (fun p j => if d.asserted j then p ||| (1#256 <<< j) else p) p).getLsbD k
      = (p.getLsbD k || (l.contains k && d.asserted k)) := by
  induction l generalizing p with
  | nil => simp
  | cons j l ih =>
    rw [List.foldl_cons, ih]
    by_cases e : k = j
    · subst e
      cases h : d.asserted k <;> simp [hk]
    · have hb : (1#256 <<< j).getLsbD k = false := by
        simp only [BitVec.getLsbD_shiftLeft, hk, decide_true, Bool.true_and, BitVec.getLsbD_one]
        by_cases h : k < j
        · simp [h]
        · simp [h]; omega
      have hc : (j :: l).contains k = l.contains k := by simp [e]
      rw [hc]
      split <;> simp [hb]

/-- A pending bit after settling: it was set, or it belongs to a level source that is asserted. -/
theorem Dev.pendNow_bit (d : Dev) (k : Nat) (hk : k < 256) :
    d.pendNow.getLsbD k = (d.irq.pend.getLsbD k || (levelSources.contains k && d.asserted k)) := pend_fold d _ _ k hk

/-- A pending bit stays. -/
theorem Dev.pendNow_of (d : Dev) (k : Nat) (h : d.irq.pend.getLsbD k = true) : d.pendNow.getLsbD k = true := by
  rw [Dev.pendNow_bit d k (BitVec.lt_of_getLsbD h), h, Bool.true_or]

/-- An event's source is pending. -/
theorem Dev.irq1_pend (d : Dev) (k : Nat) (hk : k < 256) : (d.irq1 k).irq.pend.getLsbD k = true := by
  simp [Dev.irq1, hk]

end Sys2Proof.Machine
end

