-- ==== Sys2Proof/Laws/Step.lean ====
section
/-! SUPPORT. What a command, and a step, can do at all: the queue is never touched, no command stops, and every command ends
with the aggregator settled. -/

namespace Sys2Proof.Machine

/-- What every command answers: the state itself, or one whose device is settled, with the queue as it was. -/
def Settles (s : State) (o : Host.Outcome State Fault Refusal) : Prop :=
  o = .next s ∨ ∃ n m d, o = .next { s with nv := n, mem := m, dev := Dev.settle d }

theorem onDev_settles (f : Nv → Mem → Dev → Dev) (s : State) : Settles s (onDev f s) := by
  unfold onDev; split
  · exact .inr ⟨s.nv, s.mem, _, rfl⟩
  · exact .inl rfl

theorem onMem_settles (f : Nv → Mem × Dev → Mem × Dev) (s : State) : Settles s (onMem f s) := by
  unfold onMem; split
  · exact .inr ⟨s.nv, _, _, rfl⟩
  · exact .inl rfl

theorem onAll_settles (f : Nv × Mem × Dev → Nv × Mem × Dev) (s : State) : Settles s (onAll f s) := by
  unfold onAll; split
  · exact .inr ⟨_, _, _, rfl⟩
  · exact .inl rfl

theorem onFabric_settles (f : Nv → Mem → Dev → Dev) (s : State) : Settles s (onFabric f s) := by
  unfold onFabric; split
  · exact .inr ⟨s.nv, s.mem, _, rfl⟩
  · exact .inl rfl

theorem onIsl_settles (i b : Nat) (f : Nv → Mem → Dev → Dev) (s : State) : Settles s (onIsl i b f s) := by
  unfold onIsl; split
  · exact onDev_settles f s
  · exact .inl rfl

theorem onIslM_settles (i b : Nat) (f : Nv → Mem × Dev → Mem × Dev) (s : State) : Settles s (onIslM i b f s) := by
  unfold onIslM; split
  · exact onMem_settles f s
  · exact .inl rfl

theorem onPower_settles (f : Nv → Mem × Dev → Mem × Dev) (s : State) : Settles s (onPower f s) := by
  unfold onPower; split
  · exact .inr ⟨s.nv, _, _, rfl⟩
  · exact .inl rfl

theorem onTrunk_settles (k : Nat) (f : Whole → Whole) (s : State) : Settles s (onTrunk k f s) := by
  unfold onTrunk; split
  · exact onAll_settles f s
  · exact .inl rfl

/-- Every command settles. -/
theorem exec_settles (i : Instr) (s : State) : Settles s (exec i s) := by
  cases i
  case sbclkReturn =>
    show Settles s (execSbclkReturn s)
    unfold execSbclkReturn; split
    · exact .inr ⟨s.nv, s.mem, _, rfl⟩
    · exact .inl rfl
  case sbclkStart =>
    show Settles s (execSbclkStart s)
    unfold execSbclkStart; split
    · exact .inr ⟨s.nv, s.mem, _, rfl⟩
    · exact .inl rfl
  case vddAonRise => exact .inr ⟨s.nv, _, _, rfl⟩
  case powerRemoved => exact .inr ⟨s.nv, _, _, rfl⟩
  case regWrite => delta exec; dsimp only; delta execRegWrite; exact onAll_settles _ s
  case broadcastWindowWrite => delta exec; dsimp only; delta execBroadcastWindowWrite; exact onAll_settles _ s
  case sectionWindowAccess => delta exec; dsimp only; delta execSectionWindowAccess; exact onAll_settles _ s
  case sidebandMemRead => delta exec; dsimp only; delta execSidebandMemRead; exact onAll_settles _ s
  case sidebandMemWrite => delta exec; dsimp only; delta execSidebandMemWrite; exact onAll_settles _ s
  case sbwDataAccess => delta exec; dsimp only; delta execSbwDataAccess; exact onAll_settles _ s
  case regRd => delta exec; dsimp only; delta execRegRd; exact onAll_settles _ s
  case regWr => delta exec; dsimp only; delta execRegWr; exact onAll_settles _ s
  case blkWr => delta exec; dsimp only; delta execBlkWr; exact onAll_settles _ s
  case blkRd => delta exec; dsimp only; delta execBlkRd; exact onAll_settles _ s
  case ringSet => delta exec; dsimp only; delta execRingSet; exact onAll_settles _ s
  case ringFree => delta exec; dsimp only; delta execRingFree; exact onAll_settles _ s
  case coreWindowAccess => delta exec; dsimp only; delta execCoreWindowAccess; exact onAll_settles _ s
  case depotSetAliasWrite => delta exec; dsimp only; delta execDepotSetAliasWrite; exact onAll_settles _ s
  case depotClearAliasWrite => delta exec; dsimp only; delta execDepotClearAliasWrite; exact onAll_settles _ s
  case stageEnd => delta exec; dsimp only; delta execStageEnd; exact onAll_settles _ s
  case fwuBegin => delta exec; dsimp only; delta execFwuBegin; exact onAll_settles _ s
  case fwuStartSd => delta exec; dsimp only; delta execFwuStartSd; exact onAll_settles _ s
  case fwuSelect => delta exec; dsimp only; delta execFwuSelect; exact onAll_settles _ s
  case fwuSetWrite => delta exec; dsimp only; delta execFwuSetWrite; exact onAll_settles _ s
  case fwuCustkey => delta exec; dsimp only; delta execFwuCustkey; exact onAll_settles _ s
  case fwuSessionEnd => delta exec; dsimp only; delta execFwuSessionEnd; exact onAll_settles _ s
  case fwuHealthOk => delta exec; dsimp only; delta execFwuHealthOk; exact onAll_settles _ s
  case healthTimerExpiry => delta exec; dsimp only; delta execHealthTimerExpiry; exact onAll_settles _ s
  case raTimeout => delta exec; dsimp only; delta execRaTimeout; exact onAll_settles _ s
  case smbRead32 => delta exec; dsimp only; delta execSmbRead32; exact onAll_settles _ s
  case smbWrite32 => delta exec; dsimp only; delta execSmbWrite32; exact onAll_settles _ s
  case smbNotify => delta exec; dsimp only; delta execSmbNotify; exact onAll_settles _ s
  case smbReset => delta exec; dsimp only; delta execSmbReset; exact onAll_settles _ s
  case jtagRegAccess => delta exec; dsimp only; delta execJtagRegAccess; exact onAll_settles _ s
  case tplLoad => delta exec; dsimp only; delta execTplLoad; exact onMem_settles _ s
  case tplPatch => delta exec; dsimp only; delta execTplPatch; exact onMem_settles _ s
  case loadRoundEnd => delta exec; dsimp only; delta execLoadRoundEnd; exact onMem_settles _ s
  case freightPacketArrival => delta exec; dsimp only; delta execFreightPacketArrival; exact onAll_settles _ s
  case freightResponse => delta exec; dsimp only; delta execFreightResponse; exact onAll_settles _ s
  case freightTimeout => delta exec; dsimp only; delta execFreightTimeout; exact onAll_settles _ s
  case tokenGrant => delta exec; dsimp only; delta execTokenGrant; exact onMem_settles _ s
  case tokenWaitExpiry => delta exec; dsimp only; delta execTokenWaitExpiry; exact onMem_settles _ s
  case mbtCancel => delta exec; dsimp only; delta execMbtCancel; exact onAll_settles _ s
  case mbtRunEnd => delta exec; dsimp only; delta execMbtRunEnd; exact onAll_settles _ s
  case islandReset => delta exec; dsimp only; delta execIslandReset; exact onMem_settles _ s
  case bringNext => delta exec; dsimp only; delta execBringNext; exact onMem_settles _ s
  case bringAll => delta exec; dsimp only; delta execBringAll; exact onMem_settles _ s
  case bringRetry => delta exec; dsimp only; delta execBringRetry; exact onMem_settles _ s
  case bringRerun => delta exec; dsimp only; delta execBringRerun; exact onMem_settles _ s
  case autoWrite => delta exec; dsimp only; delta execAutoWrite; exact onMem_settles _ s
  case resetCompute => delta exec; dsimp only; delta execResetCompute; exact onAll_settles _ s
  case distPlan => delta exec; dsimp only; delta execDistPlan; exact onMem_settles _ s
  case distFirmware => delta exec; dsimp only; delta execDistFirmware; exact onMem_settles _ s
  case distGo => delta exec; dsimp only; delta execDistGo; exact onMem_settles _ s
  case distWorkerAck => delta exec; dsimp only; delta execDistWorkerAck; exact onMem_settles _ s
  case tplGo => delta exec; dsimp only; delta execTplGo; exact onDev_settles _ s
  case tplHold => delta exec; dsimp only; delta execTplHold; exact onDev_settles _ s
  case tplRelease => delta exec; dsimp only; delta execTplRelease; exact onDev_settles _ s
  case tplStop => delta exec; dsimp only; delta execTplStop; exact onDev_settles _ s
  case tplCancel => delta exec; dsimp only; delta execTplCancel; exact onDev_settles _ s
  case holdDrained => delta exec; dsimp only; delta execHoldDrained; exact onDev_settles _ s
  case stopComplete => delta exec; dsimp only; delta execStopComplete; exact onDev_settles _ s
  case drainLimitExpiry => delta exec; dsimp only; delta execDrainLimitExpiry; exact onDev_settles _ s
  case rankTableSwitch => delta exec; dsimp only; delta execRankTableSwitch; exact onDev_settles _ s
  case junctionEntryStage => delta exec; dsimp only; delta execJunctionEntryStage; exact onDev_settles _ s
  case junctionEntryCommit => delta exec; dsimp only; delta execJunctionEntryCommit; exact onDev_settles _ s
  case descriptorWrite => delta exec; dsimp only; delta execDescriptorWrite; exact onDev_settles _ s
  case modCfgWrite => delta exec; dsimp only; delta execModCfgWrite; exact onDev_settles _ s
  case modValueWrite => delta exec; dsimp only; delta execModValueWrite; exact onDev_settles _ s
  case stepBoundary => delta exec; dsimp only; delta execStepBoundary; exact onDev_settles _ s
  case stretchLimitExpiry => delta exec; dsimp only; delta execStretchLimitExpiry; exact onDev_settles _ s
  case stepRelease => delta exec; dsimp only; delta execStepRelease; exact onDev_settles _ s
  case offGridArrival => delta exec; dsimp only; delta execOffGridArrival; exact onDev_settles _ s
  case eastEdgeThru => delta exec; dsimp only; delta execEastEdgeThru; exact onDev_settles _ s
  case edgeIdxWrite => delta exec; dsimp only; delta execEdgeIdxWrite; exact onDev_settles _ s
  case edgeEntryCommit => delta exec; dsimp only; delta execEdgeEntryCommit; exact onDev_settles _ s
  case link => delta exec; dsimp only; delta execLink; exact onDev_settles _ s
  case evtIn => delta exec; dsimp only; delta execEvtIn; exact onDev_settles _ s
  case valIn => delta exec; dsimp only; delta execValIn; exact onDev_settles _ s
  case modIn => delta exec; dsimp only; delta execModIn; exact onDev_settles _ s
  case msgToDevice => delta exec; dsimp only; delta execMsgToDevice; exact onDev_settles _ s
  case messageSend => delta exec; dsimp only; delta execMessageSend; exact onDev_settles _ s
  case replayTimeout => delta exec; dsimp only; delta execReplayTimeout; exact onDev_settles _ s
  case linkRetrain => delta exec; dsimp only; delta execLinkRetrain; exact onDev_settles _ s
  case creditReport => delta exec; dsimp only; delta execCreditReport; exact onDev_settles _ s
  case ackLinkSend => delta exec; dsimp only; delta execAckLinkSend; exact onDev_settles _ s
  case recordPlace => delta exec; dsimp only; delta execRecordPlace; exact onDev_settles _ s
  case encCfgWrite => delta exec; dsimp only; delta execEncCfgWrite; exact onDev_settles _ s
  case decCfgWrite => delta exec; dsimp only; delta execDecCfgWrite; exact onDev_settles _ s
  case sbRun => delta exec; dsimp only; delta execSbRun; exact onDev_settles _ s
  case sdmaSubmit => delta exec; dsimp only; delta execSdmaSubmit; exact onDev_settles _ s
  case sdmaCplRead => delta exec; dsimp only; delta execSdmaCplRead; exact onDev_settles _ s
  case mbtStart => delta exec; dsimp only; delta execMbtStart; exact onDev_settles _ s
  case chnStageWrite => delta exec; dsimp only; delta execChnStageWrite; exact onDev_settles _ s
  case chnPush => delta exec; dsimp only; delta execChnPush; exact onDev_settles _ s
  case chnPop => delta exec; dsimp only; delta execChnPop; exact onDev_settles _ s
  case chnStallExpiry => delta exec; dsimp only; delta execChnStallExpiry; exact onDev_settles _ s
  case chnParkRetry => delta exec; dsimp only; delta execChnParkRetry; exact onDev_settles _ s
  case chnParkDiscard => delta exec; dsimp only; delta execChnParkDiscard; exact onDev_settles _ s
  case rpyHostDrain => delta exec; dsimp only; delta execRpyHostDrain; exact onDev_settles _ s
  case blkOpWrite => delta exec; dsimp only; delta execBlkOpWrite; exact onDev_settles _ s
  case blkOpRead => delta exec; dsimp only; delta execBlkOpRead; exact onDev_settles _ s
  case blkCfgWrite => delta exec; dsimp only; delta execBlkCfgWrite; exact onDev_settles _ s
  case irqPendSetWrite => delta exec; dsimp only; delta execIrqPendSetWrite; exact onDev_settles _ s
  case irqPendClrWrite => delta exec; dsimp only; delta execIrqPendClrWrite; exact onDev_settles _ s
  case irqEnSetWrite => delta exec; dsimp only; delta execIrqEnSetWrite; exact onDev_settles _ s
  case irqEnClrWrite => delta exec; dsimp only; delta execIrqEnClrWrite; exact onDev_settles _ s
  case irqLineRise => delta exec; dsimp only; delta execIrqLineRise; exact onDev_settles _ s
  case irqModTimeExpiry => delta exec; dsimp only; delta execIrqModTimeExpiry; exact onDev_settles _ s
  case stnIrqReport => delta exec; dsimp only; delta execStnIrqReport; exact onDev_settles _ s
  case pinEdge => delta exec; dsimp only; delta execPinEdge; exact onDev_settles _ s
  case irqPinCfgWrite => delta exec; dsimp only; delta execIrqPinCfgWrite; exact onDev_settles _ s
  case tmrCapture => delta exec; dsimp only; delta execTmrCapture; exact onDev_settles _ s
  case tmrStart => delta exec; dsimp only; delta execTmrStart; exact onDev_settles _ s
  case tmrStop => delta exec; dsimp only; delta execTmrStop; exact onDev_settles _ s
  case tmrReload => delta exec; dsimp only; delta execTmrReload; exact onDev_settles _ s
  case tmrGstart => delta exec; dsimp only; delta execTmrGstart; exact onDev_settles _ s
  case tmrGstop => delta exec; dsimp only; delta execTmrGstop; exact onDev_settles _ s
  case tmrGstagger => delta exec; dsimp only; delta execTmrGstagger; exact onDev_settles _ s
  case tmrHiStage => delta exec; dsimp only; delta execTmrHiStage; exact onDev_settles _ s
  case tmrCountCommit => delta exec; dsimp only; delta execTmrCountCommit; exact onDev_settles _ s
  case tmrPeriodCommit => delta exec; dsimp only; delta execTmrPeriodCommit; exact onDev_settles _ s
  case tmrPhaseCommit => delta exec; dsimp only; delta execTmrPhaseCommit; exact onDev_settles _ s
  case tmrCmpCommit => delta exec; dsimp only; delta execTmrCmpCommit; exact onDev_settles _ s
  case tmrCapRead => delta exec; dsimp only; delta execTmrCapRead; exact onDev_settles _ s
  case clkSwitch => delta exec; dsimp only; delta execClkSwitch; exact onDev_settles _ s
  case clkSwitchComplete => delta exec; dsimp only; delta execClkSwitchComplete; exact onDev_settles _ s
  case clkSwitchHang => delta exec; dsimp only; delta execClkSwitchHang; exact onDev_settles _ s
  case xchFloorWrite => delta exec; dsimp only; delta execXchFloorWrite; exact onDev_settles _ s
  case xchRatioStep => delta exec; dsimp only; delta execXchRatioStep; exact onDev_settles _ s
  case sbclkStop => delta exec; dsimp only; delta execSbclkStop; exact onDev_settles _ s
  case clkMonUpdate => delta exec; dsimp only; delta execClkMonUpdate; exact onDev_settles _ s
  case clkFreqUpdate => delta exec; dsimp only; delta execClkFreqUpdate; exact onDev_settles _ s
  case hsmUpdate => delta exec; dsimp only; delta execHsmUpdate; exact onDev_settles _ s
  case vfabTargetWrite => delta exec; dsimp only; delta execVfabTargetWrite; exact onDev_settles _ s
  case vfabStepReady => delta exec; dsimp only; delta execVfabStepReady; exact onDev_settles _ s
  case vfabReadyTimeout => delta exec; dsimp only; delta execVfabReadyTimeout; exact onDev_settles _ s
  case avsAlert => delta exec; dsimp only; delta execAvsAlert; exact onDev_settles _ s
  case vfabTelemetry => delta exec; dsimp only; delta execVfabTelemetry; exact onDev_settles _ s
  case pwrSleepReq => delta exec; dsimp only; delta execPwrSleepReq; exact onDev_settles _ s
  case pwrDeepReq => delta exec; dsimp only; delta execPwrDeepReq; exact onDev_settles _ s
  case pwrWakeReq => delta exec; dsimp only; delta execPwrWakeReq; exact onDev_settles _ s
  case pwrStateEntry => delta exec; dsimp only; delta execPwrStateEntry; exact onDev_settles _ s
  case pwrEntryTimeout => delta exec; dsimp only; delta execPwrEntryTimeout; exact onDev_settles _ s
  case wakeCauseEvent => delta exec; dsimp only; delta execWakeCauseEvent; exact onDev_settles _ s
  case pwrWakeTimeExpiry => delta exec; dsimp only; delta execPwrWakeTimeExpiry; exact onDev_settles _ s
  case tempSample => delta exec; dsimp only; delta execTempSample; exact onDev_settles _ s
  case resetSection => delta exec; dsimp only; delta execResetSection; exact onAll_settles _ s
  case resetDone => delta exec; dsimp only; delta execResetDone; exact onDev_settles _ s
  case fwuCancel => delta exec; dsimp only; delta execFwuCancel; exact onDev_settles _ s
  case secAttest => delta exec; dsimp only; delta execSecAttest; exact onDev_settles _ s
  case attestDone => delta exec; dsimp only; delta execAttestDone; exact onDev_settles _ s
  case trkRaDataAccess => delta exec; dsimp only; delta execTrkRaDataAccess; exact onDev_settles _ s
  case formTimeout => delta exec; dsimp only; delta execFormTimeout; exact onDev_settles _ s
  case trkReform => delta exec; dsimp only; delta execTrkReform; exact onDev_settles _ s
  case distCancel => delta exec; dsimp only; delta execDistCancel; exact onDev_settles _ s
  case smbWstat => delta exec; dsimp only; delta execSmbWstat; exact onDev_settles _ s
  case smbWake => delta exec; dsimp only; delta execSmbWake; exact onAll_settles _ s
  case smbTelemetry => delta exec; dsimp only; delta execSmbTelemetry; exact onDev_settles _ s
  case smbAra => delta exec; dsimp only; delta execSmbAra; exact onDev_settles _ s
  case messageDiscarded => delta exec; dsimp only; delta execMessageDiscarded; exact onDev_settles _ s
  case replayReqRepeat => delta exec; dsimp only; delta execReplayReqRepeat; exact onDev_settles _ s
  case disallowedMessageType => delta exec; dsimp only; delta execDisallowedMessageType; exact onDev_settles _ s
  case forwardedClockLoss => delta exec; dsimp only; delta execForwardedClockLoss; exact onDev_settles _ s
  case openingPass => delta exec; dsimp only; delta execOpeningPass; exact onFabric_settles _ s
  case sweepVisit => delta exec; dsimp only; delta execSweepVisit; exact onFabric_settles _ s
  case plasticRowSweep => delta exec; dsimp only; delta execPlasticRowSweep; exact onFabric_settles _ s
  case emissionSend => delta exec; dsimp only; delta execEmissionSend; exact onFabric_settles _ s
  case junctionArrival => delta exec; dsimp only; delta execJunctionArrival; exact onFabric_settles _ s
  case eventDeliver => delta exec; dsimp only; delta execEventDeliver; exact onFabric_settles _ s
  case modulatorArrival => delta exec; dsimp only; delta execModulatorArrival; exact onFabric_settles _ s
  case stepQuietArrival => delta exec; dsimp only; delta execStepQuietArrival; exact onFabric_settles _ s
  case pageLand => delta exec; dsimp only; delta execPageLand; exact onFabric_settles _ s
  case freightHop => delta exec; dsimp only; delta execFreightHop; exact onFabric_settles _ s
  case stationFreightWrite => delta exec; dsimp only; delta execStationFreightWrite; exact onFabric_settles _ s
  case consumptionNotice => delta exec; dsimp only; delta execConsumptionNotice; exact onIsl_settles _ _ _ s
  case lossNotice => delta exec; dsimp only; delta execLossNotice; exact onIsl_settles _ _ _ s
  case injectTurn => delta exec; dsimp only; delta execInjectTurn; exact onIsl_settles _ _ _ s
  case inputClose => delta exec; dsimp only; delta execInputClose; exact onIsl_settles _ _ _ s
  case creditReduction => delta exec; dsimp only; delta execCreditReduction; exact onIsl_settles _ _ _ s
  case westEdgeArrival => delta exec; dsimp only; delta execWestEdgeArrival; exact onIsl_settles _ _ _ s
  case summaryArrival => delta exec; dsimp only; delta execSummaryArrival; exact onIsl_settles _ _ _ s
  case walkBegin => delta exec; dsimp only; delta execWalkBegin; exact onIsl_settles _ _ _ s
  case sumWaitExpiry => delta exec; dsimp only; delta execSumWaitExpiry; exact onIsl_settles _ _ _ s
  case walkEntry => delta exec; dsimp only; delta execWalkEntry; exact onIsl_settles _ _ _ s
  case readClose => delta exec; dsimp only; delta execReadClose; exact onIsl_settles _ _ _ s
  case pageReadComplete => delta exec; dsimp only; delta execPageReadComplete; exact onIsl_settles _ _ _ s
  case deliverySend => delta exec; dsimp only; delta execDeliverySend; exact onIsl_settles _ _ _ s
  case streamTokenIdle => delta exec; dsimp only; delta execStreamTokenIdle; exact onIsl_settles _ _ _ s
  case walkEnd => delta exec; dsimp only; delta execWalkEnd; exact onIsl_settles _ _ _ s
  case stepAbandonArrival => delta exec; dsimp only; delta execStepAbandonArrival; exact onIsl_settles _ _ _ s
  case consistEndArrival => delta exec; dsimp only; delta execConsistEndArrival; exact onIsl_settles _ _ _ s
  case qntStart => delta exec; dsimp only; delta execQntStart; exact onIsl_settles _ _ _ s
  case qntCancel => delta exec; dsimp only; delta execQntCancel; exact onIsl_settles _ _ _ s
  case prjLoad => delta exec; dsimp only; delta execPrjLoad; exact onIsl_settles _ _ _ s
  case prjUnload => delta exec; dsimp only; delta execPrjUnload; exact onIsl_settles _ _ _ s
  case prjBatchRun => delta exec; dsimp only; delta execPrjBatchRun; exact onIsl_settles _ _ _ s
  case prjBatchEnd => delta exec; dsimp only; delta execPrjBatchEnd; exact onIsl_settles _ _ _ s
  case prjTokenIdle => delta exec; dsimp only; delta execPrjTokenIdle; exact onIsl_settles _ _ _ s
  case membraneWaitExpiry => delta exec; dsimp only; delta execMembraneWaitExpiry; exact onIsl_settles _ _ _ s
  case sdmaComplete => delta exec; dsimp only; delta execSdmaComplete; exact onIsl_settles _ _ _ s
  case timerPeriodEvent => delta exec; dsimp only; delta execTimerPeriodEvent; exact onIsl_settles _ _ _ s
  case timerCompare => delta exec; dsimp only; delta execTimerCompare; exact onIsl_settles _ _ _ s
  case timerWrap => delta exec; dsimp only; delta execTimerWrap; exact onIsl_settles _ _ _ s
  case timerCaptureEdge => delta exec; dsimp only; delta execTimerCaptureEdge; exact onIsl_settles _ _ _ s
  case luRx => delta exec; dsimp only; delta execLuRx; exact onIsl_settles _ _ _ s
  case trunkRtoExpiry => delta exec; dsimp only; delta execTrunkRtoExpiry; exact onIsl_settles _ _ _ s
  case trkRetrain => delta exec; dsimp only; delta execTrkRetrain; exact onIsl_settles _ _ _ s
  case trkWake => delta exec; dsimp only; delta execTrkWake; exact onIsl_settles _ _ _ s
  case remotePacketRx => delta exec; dsimp only; delta execRemotePacketRx; exact onIsl_settles _ _ _ s
  case sMsgRecord => delta exec; dsimp only; delta execSMsgRecord; exact onIsl_settles _ _ _ s
  case timerTick => delta exec; dsimp only; delta execTimerTick; exact onIsl_settles _ _ _ s
  case nakRepeat => delta exec; dsimp only; delta execNakRepeat; exact onIsl_settles _ _ _ s
  case qntJobEnd => delta exec; dsimp only; delta execQntJobEnd; exact onIslM_settles _ _ _ s
  case prjLoadEnd => delta exec; dsimp only; delta execPrjLoadEnd; exact onIslM_settles _ _ _ s
  case sdmaStart => delta exec; dsimp only; delta execSdmaStart; exact onIslM_settles _ _ _ s
  case gddr6AccessComplete => delta exec; dsimp only; delta execGddr6AccessComplete; exact onIslM_settles _ _ _ s
  case resetCold => delta exec; dsimp only; delta execResetCold; exact onPower_settles _ s
  case resetWarm => delta exec; dsimp only; delta execResetWarm; exact onPower_settles _ s
  case sMsgRd => delta exec; dsimp only; delta execSMsgRd; exact onTrunk_settles _ _ s
  case sMsgWr => delta exec; dsimp only; delta execSMsgWr; exact onTrunk_settles _ _ s
  case sMsgRsp => delta exec; dsimp only; delta execSMsgRsp; exact onTrunk_settles _ _ s
  case tokenIdent => delta exec; dsimp only; delta execTokenIdent onToken; exact onIsl_settles _ _ _ s
  case tokenTopo => delta exec; dsimp only; delta execTokenTopo onToken; exact onIsl_settles _ _ _ s
  case tokenSysok => delta exec; dsimp only; delta execTokenSysok onToken; exact onIsl_settles _ _ _ s
  case tokenSysfail => delta exec; dsimp only; delta execTokenSysfail onToken; exact onIsl_settles _ _ _ s
  case tokenLinkdown => delta exec; dsimp only; delta execTokenLinkdown onToken; exact onIsl_settles _ _ _ s
  case tokenRelease => delta exec; dsimp only; delta execTokenRelease onToken; exact onIsl_settles _ _ _ s
  case tokenProbe => delta exec; dsimp only; delta execTokenProbe onToken; exact onIsl_settles _ _ _ s
  case tokenReport => delta exec; dsimp only; delta execTokenReport onToken; exact onIsl_settles _ _ _ s
  case tokenQuiet => delta exec; dsimp only; delta execTokenQuiet onToken; exact onIsl_settles _ _ _ s
  case tokenDone => delta exec; dsimp only; delta execTokenDone onToken; exact onIsl_settles _ _ _ s
  case tokenAbandon => delta exec; dsimp only; delta execTokenAbandon onToken; exact onIsl_settles _ _ _ s
  case tokenFault => delta exec; dsimp only; delta execTokenFault onToken; exact onIsl_settles _ _ _ s
  case tokenMod => delta exec; dsimp only; delta execTokenMod onToken; exact onIsl_settles _ _ _ s
  case tokenWake => delta exec; dsimp only; delta execTokenWake onToken; split <;> first | exact onIsl_settles _ _ _ s | exact onDev_settles _ s
  case jtagCaptureDr => delta exec; dsimp only; delta execJtagCaptureDr onTap; exact onPower_settles _ s
  case jtagIdcode => delta exec; dsimp only; delta execJtagIdcode onTap; exact onPower_settles _ s
  case jtagExtest => delta exec; dsimp only; delta execJtagExtest onTap; exact onPower_settles _ s
  case jtagSamplePreload => delta exec; dsimp only; delta execJtagSamplePreload onTap; exact onPower_settles _ s
  case jtagBypass => delta exec; dsimp only; delta execJtagBypass onTap; exact onPower_settles _ s

end Sys2Proof.Machine
end

