-- ==== Sys2Proof/Laws/Ops.lean ====
section
/-! SUPPORT. What the wrappers of the meanings and the register gate answer when nothing turns a command away. -/

namespace Sys2Proof.Machine

theorem onDev_next {s : State} (h : s.dev.clocked = true) (f : Nv → Mem → Dev → Dev) :
    onDev f s = .next { s with dev := (f s.nv s.mem s.dev).settle } := by
  rw [onDev, if_pos h]

theorem onMem_next {s : State} (h : s.dev.clocked = true) (f : Nv → Mem × Dev → Mem × Dev) :
    onMem f s = .next { s with mem := (f s.nv (s.mem, s.dev)).1, dev := (f s.nv (s.mem, s.dev)).2.settle } := by
  rw [onMem, if_pos h]

theorem onAll_next {s : State} (h : s.dev.clocked = true) (f : Nv × Mem × Dev → Nv × Mem × Dev) :
    onAll f s = .next { s with
      nv := (f (s.nv, s.mem, s.dev)).1, mem := (f (s.nv, s.mem, s.dev)).2.1, dev := (f (s.nv, s.mem, s.dev)).2.2.settle } := by
  rw [onAll, if_pos h]

theorem onIsl_next {s : State} {i b : Nat} (h : s.runs i b) (f : Nv → Mem → Dev → Dev) :
    onIsl i b f s = .next { s with dev := (f s.nv s.mem s.dev).settle } := by
  rw [onIsl, if_pos h.2, onDev_next h.1]

theorem onIslM_next {s : State} {i b : Nat} (h : s.runs i b) (f : Nv → Mem × Dev → Mem × Dev) :
    onIslM i b f s = .next { s with mem := (f s.nv (s.mem, s.dev)).1, dev := (f s.nv (s.mem, s.dev)).2.settle } := by
  rw [onIslM, if_pos h.2, onMem_next h.1]

theorem onFabric_next {s : State} (h : s.fabricOn) (f : Nv → Mem → Dev → Dev) :
    onFabric f s = .next { s with dev := (f s.nv s.mem s.dev).settle } := by
  rw [onFabric, if_pos]
  obtain ⟨h1, h2⟩ := h
  rw [Bool.and_eq_true]
  exact ⟨h1, by simpa using h2⟩

theorem onPower_next {s : State} (h : s.dev.powered = true) (f : Nv → Mem × Dev → Mem × Dev) :
    onPower f s = .next { s with mem := (f s.nv (s.mem, s.dev)).1, dev := (f s.nv (s.mem, s.dev)).2.settle } := by
  rw [onPower, if_pos h]

theorem onTap_next {s : State} (h : s.dev.powered = true) (f : Dev → Dev) :
    onTap f s = .next { s with dev := (f s.dev).settle } := by
  rw [onTap, onPower_next h]

/-- A command without clocks leaves everything as it is. -/
theorem onDev_dead {s : State} (h : s.dev.clocked = false) (f : Nv → Mem → Dev → Dev) : onDev f s = .next s := by
  rw [onDev, if_neg (by simp [h])]
theorem onMem_dead {s : State} (h : s.dev.clocked = false) (f : Nv → Mem × Dev → Mem × Dev) : onMem f s = .next s := by
  rw [onMem, if_neg (by simp [h])]
theorem onAll_dead {s : State} (h : s.dev.clocked = false) (f : Nv × Mem × Dev → Nv × Mem × Dev) : onAll f s = .next s := by
  rw [onAll, if_neg (by simp [h])]
theorem onIsl_dead {s : State} (h : s.dev.clocked = false) (i b : Nat) (f : Nv → Mem → Dev → Dev) : onIsl i b f s = .next s := by
  rw [onIsl, onDev_dead h]; split <;> rfl
theorem onIslM_dead {s : State} (h : s.dev.clocked = false) (i b : Nat) (f : Nv → Mem × Dev → Mem × Dev) :
    onIslM i b f s = .next s := by
  rw [onIslM, onMem_dead h]; split <;> rfl

/-! ### The register gate -/

theorem Dev.writeGate_open {d : Dev} {n : Nv} {m : Master} {a : Nat} (h : d.gate n m true a = .open_) (f : Dev → Dev) :
    d.writeGate n m a f = (f d).complete m .ok [] := by
  unfold Dev.writeGate; rw [h]

theorem Dev.readGate_open {d : Dev} {n : Nv} {m : Master} {a : Nat} (h : d.gate n m false a = .open_) (f : Dev → Word × Dev) :
    d.readGate n m a f = (f d).2.complete m .ok [(f d).1] := by
  unfold Dev.readGate; rw [h]

theorem Dev.cmdAt_open {d : Dev} {a : Nat} (h : d.gatedOff a = false) (f : Dev → Dev) : d.cmdAt a f = f d := by
  rw [Dev.cmdAt, if_neg (by simp [h])]

/-! ### Bits of registers -/

theorem bit_or (a b : Word) (i : Nat) : bit (a ||| b) i = (bit a i || bit b i) := by simp [bit]
theorem bit_and (a b : Word) (i : Nat) : bit (a &&& b) i = (bit a i && bit b i) := by simp [bit]

/-- The bit of a single-bit mask. -/
theorem bit_pow (k i : Nat) (hk : k < 32) : bit (w32 (2 ^ k)) i = decide (i = k) := by
  simp only [bit, w32, BitVec.getLsbD_ofNat, Nat.testBit_two_pow]
  by_cases h : i = k
  · subst h; simp [hk]
  · simp [h, Ne.symm h]

theorem bit_compl (a : Word) (i : Nat) (hi : i < 32) : bit (~~~a) i = !bit a i := by simp [bit, hi]

/-- Setting one bit. -/
theorem bit_setBit (w : Word) (k : Nat) (b : Bool) (i : Nat) (hk : k < 32) :
    bit (setBit w k b) i = if i = k then b else bit w i := by
  have h1 : w32 ((2 ^ 1 - 1) <<< k) = w32 (2 ^ k) := by simp [Nat.shiftLeft_eq]
  have h2 : w32 (((if b then 1 else 0) % 2 ^ 1) <<< k) = if b then w32 (2 ^ k) else 0 := by
    cases b <;> simp [Nat.shiftLeft_eq]
  unfold setBit setFld
  rw [bit_or, bit_and, show BitVec.ofNat 32 ((2 ^ 1 - 1) <<< k) = w32 (2 ^ k) from h1,
    show BitVec.ofNat 32 (((if b then 1 else 0) % 2 ^ 1) <<< k) = if b then w32 (2 ^ k) else 0 from h2]
  by_cases hi : i < 32
  · rw [bit_compl _ _ hi, bit_pow _ _ hk]
    by_cases e : i = k
    · subst e; cases b
      · simp [bit]
      · rw [if_pos rfl, bit_pow _ _ hk]; simp
    · cases b
      · simp [e, bit]
      · rw [if_pos rfl, bit_pow _ _ hk]; simp [e]
  · have hz : ∀ x : Word, bit x i = false := fun x => BitVec.getLsbD_of_ge x i (by omega)
    simp only [hz]
    have : i ≠ k := by omega
    simp [this]

end Sys2Proof.Machine
end

