-- ==== Sys2Proof/Tests/Slice0.lean ====
section
/-! SUPPORT. Tests.  Three kinds: the smoke test of WellFormed, worked examples and tables of the spec, and the witnesses: for each
part of a statement with hypotheses, one theorem `wit_…`, whose comment names the statement of
Certificates/Slice0/Obligations.lean, with a concrete state and operands for each clause, which meet all of that clause's
hypotheses together.  The states are small changes
of the state after reset; no test writes a machine state out, and no witness rests on a free value of Config. -/

section
set_option Elab.async false
set_option maxRecDepth 100000
set_option synthInstance.maxSize 5000
set_option synthInstance.maxHeartbeats 400000
set_option linter.unusedVariables false

open Sys2Proof Sys2Proof.Machine

/-- A state with registers written. -/
def Sys2Proof.Machine.State.wrs (s : State) (l : List (Nat × Nat)) : State :=
  { s with dev := l.foldl (fun d p => d.wr p.1 (w32 p.2)) s.dev }
/-- A state with its device changed. -/
def Sys2Proof.Machine.State.mapDev (s : State) (f : Dev → Dev) : State := { s with dev := f s.dev }
/-- The next state of an outcome. -/
def Sys2Proof.nx (o : Host.Outcome State Fault Refusal) : State := match o with | .next t => t | _ => State.reset
/-- An outcome is a next state. -/
def Sys2Proof.isNext (o : Host.Outcome State Fault Refusal) : Bool := match o with | .next _ => true | _ => false
theorem Sys2Proof.next_of_isNext {o : Host.Outcome State Fault Refusal} (h : isNext o = true) : ∃ u, o = .next u := by
  cases o with
  | next u => exact ⟨u, rfl⟩
  | _ => cases h

namespace Sys2Proof.TestsWf

/-! ### Well-formed commands: each check refuses an ill-formed one -/

def hm (typ : Nat) (len : Nat) (pl : List Byte) : HostMsg := ⟨BitVec.ofNat 4 typ, 0, BitVec.ofNat 13 len, 0, 0, 0, 0, pl⟩
def tr : TrainOutcome := ⟨15, 0, 0, 0⟩
def rp : StageReport :=
  { code := 0, locks := 15, hung := 0, denied := false, fails := [], migrated := true, unrepaired := [(1, 2)], train := tr, chFitted := 3, chTrained := 1, density := 0, mode := 0, trkPartner := 3,
    trkTrained := 2, time := 9 }

theorem test_wf_good :
    (Instr.regRd (hm 1 0 [])).wellFormed = true ∧ (Instr.blkWr (hm 3 4 [1, 2, 3, 4])).wellFormed = true
      ∧ (Instr.stageEnd rp).wellFormed = true ∧ (Instr.loadRoundEnd [0, 2303]).wellFormed = true := by decide

theorem test_wf_ranks : (Instr.loadRoundEnd [2304]).wellFormed = false := by decide
theorem test_wf_type :
    ([.regRd (hm 2 0 []), .regWr (hm 1 0 []), .blkWr (hm 1 0 []), .blkRd (hm 1 0 []), .evtIn (hm 1 0 []), .valIn (hm 1 0 []),
      .modIn (hm 1 0 []), .ringSet (hm 1 0 []), .ringFree (hm 1 0 []), .msgToDevice (hm 1 0 []),
      .disallowedMessageType (hm 1 0 [])] : List Instr).all (fun i => !i.wellFormed) = true := by decide
theorem test_wf_length :
    (Instr.regRd (hm 1 4 [])).wellFormed = false ∧ (Instr.messageDiscarded (hm 0 4 []) false).wellFormed = false
      ∧ (Instr.disallowedMessageType (hm 11 4 [])).wellFormed = false := by decide
theorem test_wf_train :
    (Instr.replayTimeout ⟨1, 1, 0, 0⟩).wellFormed = false ∧ (Instr.linkRetrain .sideband ⟨1, 0, 2, 0⟩).wellFormed = false := by decide
theorem test_wf_width : (Instr.coreWindowAccess 0 false 0 3 none).wellFormed = false := by decide
theorem test_wf_march : (Instr.mbtRunEnd [⟨0, 0, 0, 0, false⟩]).wellFormed = false := by decide
theorem test_wf_sensors :
    (Instr.clkFreqUpdate []).wellFormed = false ∧ (Instr.hsmUpdate []).wellFormed = false ∧ (Instr.tempSample []).wellFormed = false := by
  decide
theorem test_wf_stage :
    (Instr.stageEnd { rp with chTrained := 4 }).wellFormed = false ∧ (Instr.stageEnd { rp with trkTrained := 4 }).wellFormed = false
      ∧ (Instr.stageEnd { rp with unrepaired := [(48, 0)] }).wellFormed = false
      ∧ (Instr.stageEnd { rp with train := ⟨1, 1, 0, 0⟩ }).wellFormed = false := by decide
theorem test_wf_card : (Instr.fwuStartSd ⟨false, true, some [1], false⟩).wellFormed = false := by decide
theorem test_wf_unit : (Instr.luRx 0 ⟨[0], true⟩).wellFormed = false := by decide

end Sys2Proof.TestsWf

namespace Sys2Proof.TestsSpec

/-! ### Worked examples and tables of the spec -/

def rdy : State := State.reset.wrs [(R.CLK_STATUS, 0xF)]
/-- A device past bring-up, as far as an access needs it. -/
def up : State := rdy.wrs [(bootReport 3, 0x80000000), (R.SYS_BOOT_STAGE, 0x80000009), (R.XCH_LINK_STATUS, 0x80000000)]

/-- The opcode table gives no row any bits. -/
theorem test_no_word_spells_a_command : decodeTableWord 32 0 = none ∧ decodeTableWord 16 0xFFFF = none := by decide

/-- The queue is first in, first out: the front command runs, the rest stays. -/
theorem test_step_takes_front :
    (nx (step { State.reset with pending := [.tmrStart 3, .tmrStop 3] })).pending = [.tmrStop 3] := by decide +kernel

/-- An empty queue: 10 ns pass. -/
theorem test_step_idles : (nx (step State.reset)).dev.now = State.reset.dev.now + 1 := by decide +kernel

/-- R278's example: the word 0xF0, SB2's 0x3C at the set alias, then SB5's 0x30 at the clear alias. -/
def dp : State := { up with mem := { up.mem with depot := writeBytes zeroByte [] 0x100 (wordBytes 0xF0) } }
theorem test_depot_set_alias :
    (nx (exec (.depotSetAliasWrite .xdma 0x100 0xF 0x3C) dp)).mem.depotWord 0x100 = 0xFC#32 := by decide +kernel
theorem test_depot_clear_alias :
    (nx (exec (.depotClearAliasWrite .xdma 0x100 0xF 0x30) (nx (exec (.depotSetAliasWrite .xdma 0x100 0xF 0x3C) dp)))).mem.depotWord
      0x100 = 0xCC#32 := by decide +kernel

/-- The example of R8: TMR_STATUS[3] reads 5, software writes 1, and it reads 4. -/
theorem test_write_one_to_clear :
    (nx (exec (.regWrite .xdma (BitVec.ofNat 40 (tmr R.TMR_STATUS 3)) 1 0) (rdy.wrs [(tmr R.TMR_STATUS 3, 5)]))).dev.rd
      (tmr R.TMR_STATUS 3) = 4#32 := by decide +kernel

/-- The timer example: channel 5, TMR_CFG 0x612E0030.  PERIOD_LO written as 0x200 with COUNT at 0x2F0: COUNT is 0, and
TMR_STATUS reads 0x102. -/
def ch5 (t : Timer) : State := (rdy.wrs [(tmr R.TMR_CFG 5, 0x612E0030), (tmr R.TMR_PRESC 5, 0x10000)]).mapDev fun d => d.setTimer 5 t
def run5 : Timer := { Timer.init with running := true, count := 0x2F0, period := 0x3E8 }
theorem test_timer_period_write :
    (let u := nx (exec (.tmrPeriodCommit .xdma 5 0x200) (ch5 run5))
     (u.dev.timer 5).count = 0 ∧ u.dev.tstatus 5 = 0x102#32 ∧ u.dev.irq.pend.getLsbD 5 = true) := by decide +kernel

/-- Step 2 of that example: pin 9 rises at COUNT 0x100. -/
theorem test_timer_capture :
    (let u := nx (exec (.timerCaptureEdge 5 true) ((ch5 { run5 with count := 0x100, period := 0x200 }).wrs [(tmr R.TMR_STATUS 5, 2)]))
     (u.dev.timer 5).cap = 0x100 ∧ u.dev.tstatus 5 = 0x103#32) := by decide +kernel

/-- Step 3: the pin rises as TMR_CAP_LO is read; the read takes the old capture, and CAP_NEW stays. -/
theorem test_timer_read_meets_capture :
    (let u := nx (exec (.tmrCapRead .xdma 5 true) ((ch5 { run5 with count := 0x180, period := 0x200, cap := 0x100 }).wrs [(tmr R.TMR_STATUS 5, 3)]))
     u.dev.completion .xdma = ⟨.ok, [0x100#32]⟩ ∧ (u.dev.timer 5).capShadow = some 0x180 ∧ u.dev.tstatus 5 = 0x103#32) := by
  decide +kernel

/-- The example of R242: 200 events with 120 places free are refused with RETRY, ARG 0x0478_0041. -/
def ev1 : List Byte := [7, 0, 0x50, 0, 1, 0, 2, 0]
def evts : HostMsg := ⟨5, 1, 1600, 0, 0x41, 0, 5, (List.replicate 200 ev1).flatten⟩
def full (k : Nat) : World :=
  { World.init with live := true, started := true, step := 6, period := 100, stations := [0], inputOpen := true,
                    queue := List.replicate k .mark }
def evS : State := up.mapDev fun d => { d with link := { d.link with rxNext := 0x41 }, worlds := [(5, full 392)] }
theorem test_input_refused_with_retry :
    (nx (exec (.evtIn evts) evS)).dev.link.waitR.map (fun m => (m.typ, m.arg)) = [(mNack, 0x04780041#32)] := by decide +kernel
/-- Its second step: the input is blocked, and the next message is refused with ORDER, ARG 0x0800_0042. -/
theorem test_input_refused_with_order :
    (nx (exec (.evtIn { evts with len := 80, seq := 0x42, payload := (List.replicate 10 ev1).flatten }) (nx (exec (.evtIn evts) evS)))).dev.link.waitR.map
      (fun m => m.arg) = [0x04780041#32, 0x08000042#32] := by decide +kernel

/-- The ring example of R246: SIZE 0x1000, a record of 0x100 bytes. -/
theorem test_ring_places :
    placeAt 0x1000 0xF40 0x80 0x100 = .pad ∧ placeAt 0x1000 0 0x80 0x100 = .wait ∧ placeAt 0x1000 0 0xF40 0x100 = .put 0x100 := by decide

/-- The conversions of the table after R99: FP32 0.3, 500, -1.25 and -2.5 (codes of FP8 E4M3, FP8 E5M2 and INT4). -/
theorem test_conversions :
    ((Fmt.fp ⟨4, 3, 7, false, true, true⟩).conv (f32 0x3E99999A) none).code = 0x2A
      ∧ ((Fmt.fp ⟨4, 3, 7, false, true, true⟩).conv (f32 0x43FA0000) none).code = 0x7E := by decide +kernel

/-- Table 3-4: the factors 0x3F7C, 0x3EE6 and 0x3E8E, and V 0.75 times their product. -/
theorem test_leak_products :
    toF32 (fmul (fb16 0x3F7C) (fb16 0x3EE6)) = 0x3EE26800#32 ∧ toF32 (fmul (f32 0x3EE26800) (fb16 0x3E8E)) = 0x3DFB2B60#32
      ∧ toF32 (fmul (f32 0x3F400000) (f32 0x3DFB2B60)) = 0x3DBC6088#32 := by decide +kernel

/-- R436: IDCODE captures SYS_ID, 0x5658_0001. -/
theorem test_idcode : (nx (exec .jtagIdcode State.reset)).dev.jtag.dr.toNat = 0x56580001 := by decide +kernel

/-- SHA3-256 of the empty message begins A7 FF C6 F8 (FIPS 202, which R46 and R373 use). -/
theorem test_sha3 : (sha3 []).take 4 = [0xA7, 0xFF, 0xC6, 0xF8] := by decide +kernel

/-- R369: the fuses of the reset state pass the CRC that stage 0 checks. -/
theorem test_fuse_crc : State.reset.nv.fuseCrcOk = true := by decide +kernel

end Sys2Proof.TestsSpec

namespace Sys2Proof.Tests01

/-! ### Witnesses: the step, invariants and frames -/

def rdy : State := State.reset.wrs [(R.CLK_STATUS, 0xF), (R.DRM_STATUS, 0x100)]
def live : State := rdy.wrs [(bootReport 0, 0x80000000), (bootReport 3, 0x80000000), (R.SYS_BOOT_STAGE, 0x80000009)]
def queued : State := { live with pending := [.regWrite .xdma 0x40 0x1234 0, .tmrStart 3] }
def due : State := { rdy with dev := { rdy.dev with rst := { rdy.dev.rst with due := some (0, 2, .smbus) } } }

/-- `Obligations.EveryCommandAnswers`, part 2. -/
theorem wit_IdleStepIsTime :
    (rdy.pending = [] ∧ ({ rdy.dev with now := rdy.dev.now + 1 } : Dev).anyDue = false)
    ∧ (due.pending = [] ∧ due.dev.rst.due = some (0, 2, .smbus) ∧ 0 ≤ due.dev.now + 1 ∧ due.dev.words = [] ∧ due.dev.bankHeld = []
      ∧ ({ due.dev with now := due.dev.now + 1, rst := { due.dev.rst with due := none } } : Dev).anyDue = false) := by decide +kernel

/-- `Obligations.StepKeepsIrqSettled`, `StepKeepsMemoryCanonical`, `StepKeepsFuses`.  A state with work in front that meets each invariant, and its step answers a next state. -/
theorem wit_StepKeeps :
    queued.irqSettled ∧ queued.mem.wf = true ∧ queued.queueWf = true ∧ ∃ t, step queued = .next t :=
  ⟨by decide +kernel, by decide +kernel, by decide +kernel, next_of_isNext (by decide +kernel)⟩

/-- `Obligations.NothingWithoutClocks`.  The rails up but no SBCLK: a command that then does nothing. -/
theorem wit_NothingWithoutClocks :
    let s : State := { rdy with dev := { rdy.dev with sbclk := false } }
    s.dev.clocked = false ∧ ∃ t, exec (.tmrStart 3) s = .next t :=
  ⟨by decide +kernel, next_of_isNext (by decide +kernel)⟩

/-- A list of commands that all answer a next state. -/
def Ran (s : State) (l : List Instr) : Prop := ∀ i ∈ l, ∃ u, exec i s = .next u
theorem ran {s : State} {l : List Instr} (h : l.all (fun i => isNext (exec i s)) = true) : Ran s l :=
  fun i hi => next_of_isNext (List.all_eq_true.mp h i hi)

/-- `Obligations.UnitCommandsFrame`, part 2. -/
theorem wit_TimerCommandsFrame :
    Ran live [.timerTick 3, .timerPeriodEvent 3, .timerCompare 3, .timerCaptureEdge 3 true, .tmrStart 3, .tmrStop 3]
      ∧ ∀ c : Fin 32, R.PIN_OUT ≠ tmr R.TMR_STATUS c :=
  ⟨ran (by decide +kernel), by decide +kernel⟩

/-- `Obligations.UnitCommandsFrame`, part 4. -/
theorem wit_BlockCommandsFrame :
    (∀ n, Master.transport ≠ .sb n)
      ∧ Ran live [.blkOpWrite .transport 7 5, .blkOpRead .transport 7, .blkCfgWrite .transport 7 5]
      ∧ R.PIN_OUT ∉ [blkReg R.BLK_VALUE 7, blkReg R.BLK_CFG 7, R.CHN_BLK_REFUSED, R.CHN_ERR, R.CHN_BLK_LAST] ∧ Master.xdma ≠ .transport :=
  ⟨nofun, ran (by decide +kernel), by decide +kernel, nofun⟩

/-- `Obligations.UnitCommandsFrame`, part 5. -/
theorem wit_ChannelCommandsFrame :
    Ran live [.chnPush 1 false 9 5, .rpyHostDrain 9] ∧ R.PIN_OUT ≠ R.CHN_ERR
      ∧ ∀ n : Fin 8, R.PIN_OUT ∉ [park R.CHN_PARK_LO n, park R.CHN_PARK_HI n, park R.CHN_PARK_STATE n, R.SYS_SB_STATE + 4 * n] :=
  ⟨ran (by decide +kernel), by decide +kernel, by decide +kernel⟩

/-- `Obligations.UnitCommandsFrame`, part 1.  The frames by family: commands of each, and a register outside what they may change. -/
theorem wit_TimerBlockFrame : Ran live [.tmrPeriodCommit .xdma 3 5, .timerCompare 3] ∧ R.STM_PG_FOREIGN / 0x10000 ∉ [0x10000, 0x10004] :=
  ⟨ran (by decide +kernel), by decide⟩
/-- `Obligations.UnitCommandsFrame`, part 3. -/
theorem wit_SignalBlockFrame :
    Ran live [.chnPush 1 false 9 5, .irqPendSetWrite .transport 1 5, .sdmaCplRead (.sb 1)]
      ∧ R.STM_PG_FOREIGN / 0x10000 ∉ [0x10000, 0x10003, 0x10005, 0x10009, 0x1000D, 0x10100] := ⟨ran (by decide +kernel), by decide⟩
/-- `Obligations.ManagementCommandsFrame`, part 1. -/
theorem wit_ClockPowerFrame :
    Ran live [.pinEdge 3 true, .clkSwitch 1 5, .pwrSleepReq, .pwrWakeReq, .sbclkReturn]
      ∧ R.STM_PG_FOREIGN / 0x10000 ∉ [0x10000, 0x10001, 0x10002, 0x10003, 0x10004, 0x10007, 0x10009, 0x1000F] :=
  ⟨ran (by decide +kernel), by decide⟩
/-- `Obligations.ManagementCommandsFrame`, part 2. -/
theorem wit_BoardFrame :
    Ran live [.smbWstat, .smbAra, .jtagIdcode, .jtagBypass] ∧ R.STM_PG_FOREIGN / 0x10000 ∉ [0x10000, 0x10002, 0x1000F] :=
  ⟨ran (by decide +kernel), by decide⟩
/-- `Obligations.ManagementCommandsFrame`, part 3. -/
theorem wit_FirmwareFrame :
    Ran live [.fwuCancel, .fwuSelect 1, .secAttest, .healthTimerExpiry] ∧ R.STM_PG_FOREIGN / 0x10000 ∉ [0x10000, 0x10007, 0x10008] :=
  ⟨ran (by decide +kernel), by decide⟩
/-- `Obligations.ManagementCommandsFrame`, part 4. -/
theorem wit_PlanStateFrame :
    Ran live [.tplHold, .tplRelease, .tplStop, .holdDrained] ∧ R.STM_PG_FOREIGN / 0x10000 ∉ [0x10008, 0x10009, 0x1000E, 0x10100] :=
  ⟨ran (by decide +kernel), by decide⟩
/-- `Obligations.StationCommandsFrame`, part 1. -/
theorem wit_StationFrame :
    Ran live [.sweepVisit 0 0, .emissionSend 0 1, .eventDeliver 0] := ran (by decide +kernel)
/-- `Obligations.StationCommandsFrame`, part 2. -/
theorem wit_StationTableFrame :
    Ran live [.edgeIdxWrite .transport 5, .descriptorWrite .transport 0 3 1 5] ∧ R.STM_PG_FOREIGN / 0x10000 ∉ [0x10000, 0x10009, 0x1000E] :=
  ⟨ran (by decide +kernel), by decide⟩
/-- `Obligations.WorldAndTrunkCommandsFrame`, part 1. -/
theorem wit_WorldFrame :
    Ran live [.stepBoundary 5, .stepRelease 5, .tokenQuiet 1] ∧ R.STM_PG_FOREIGN / 0x10000 ∉ [0x10009, 0x1000D, 0x10100] :=
  ⟨ran (by decide +kernel), by decide⟩
/-- `Obligations.WorldAndTrunkCommandsFrame`, part 2. -/
theorem wit_TrunkFrame :
    Ran live [.luRx 1 ⟨luBytes 0 [], true⟩, .trkRetrain 1 true, .trkReform] ∧ R.STM_PG_FOREIGN / 0x10000 ∉ [0x10000, 0x10009, 0x1000D] :=
  ⟨ran (by decide +kernel), by decide⟩
/-- `Obligations.EngineAndHostCommandsFrame`, part 1. -/
theorem wit_EngineFrame :
    Ran live [.walkBegin 3 5, .qntStart, .qntCancel, .freightHop 0]
      ∧ R.TMR_CFG / 0x10000 ∉ [0x10002, 0x10009, 0x1000A, 0x1000B, 0x1000C] := ⟨ran (by decide +kernel), by decide⟩
/-- `Obligations.EngineAndHostCommandsFrame`, part 2. -/
theorem wit_HostLinkFrame :
    Ran live [.link true 5 false 0 0, .evtIn ⟨5, 0, 0, 0, 0, 0, 5, []⟩, .creditReport, .recordPlace 3]
      ∧ R.STM_PG_FOREIGN / 0x10000 ∉ [0x10000, 0x10001, 0x10002, 0x10005, 0x10009, 0x1000A] := ⟨ran (by decide +kernel), by decide⟩
/-- `Obligations.OnlyTheseStoreInMemory`. -/
theorem wit_OnlyTheseStoreInMemory :
    Ran live [.tmrStart 3, .chnPush 1 false 9 5, .tplHold, .creditReport, .loadRoundEnd [], .fwuCancel] := ran (by decide +kernel)

end Sys2Proof.Tests01

namespace Sys2Proof.TestsLoader

def st (n : Nat) : State := State.reset.wrs [(R.CLK_STATUS, 0xF), (R.TPL_STATUS, n)]

/-- `Obligations.LoaderTakesPlans`, part 1.  A state in which each command of the loader is out of place. -/
theorem wit_LoaderRejectsOutOfState :
    ((st 4).dev.clocked = true ∧ (st 4).dev.tplState ≠ 0 ∧ (st 4).dev.tplState ≠ 6 ∧ (st 4).dev.tplState ≠ 3
      ∧ ((st 4).dev.tplState ≠ 5 ∧ (st 4).dev.tplState ≠ 6)
      ∧ ((st 4).dev.tplState ≠ 1 ∧ (st 4).dev.tplState ≠ 2 ∧ (st 4).dev.tplState ≠ 5 ∧ (st 4).dev.tplState ≠ 8))
    ∧ ((st 1).dev.clocked = true ∧ ((st 1).dev.tplState ≠ 4 ∧ (st 1).dev.tplState ≠ 6)
      ∧ ((st 1).dev.tplState ≠ 3 ∧ (st 1).dev.tplState ≠ 4 ∧ (st 1).dev.tplState ≠ 5 ∧ (st 1).dev.tplState ≠ 6
        ∧ (st 1).dev.tplState ≠ 8)) := by decide +kernel

end Sys2Proof.TestsLoader

namespace Sys2Proof.Tests02

/-! ### Witnesses: timers -/

abbrev B := State.reset
def rdy : State := B.wrs [(R.CLK_STATUS, 0xF), (R.CLK_STATUS, 0xF)]
def ts (t : Timer) (cfg : Nat) (l : List (Nat × Nat) := []) : State := (rdy.wrs ([(tmr R.TMR_CFG 3, cfg), (tmr R.TMR_PRESC 3, 0x10000)] ++ l)).mapDev fun d => d.setTimer 3 t
def t0 : Timer := { Timer.init with running := true, count := 4, period := 10, cmp := 5, phase := 2, cap := 0x500000009 }
def at9 : Timer := { t0 with count := 9, perShadow := some 7, cmp := 0 }

/-- `Obligations.TimersCountAndReport`, part 1. -/
theorem wit_TimerInputCounts :
    (let s : State := (ts t0 0xC0); let c : Fin 32 := 3; let t : Timer := s.dev.timer ↑c;
    (s.runs 3 11)
    ∧ (s.dev.tcounts ↑c = true)
    ∧ (s.dev.tdiv ↑c ≤ t.acc + 65536)
    ∧ (s.dev.tmode ↑c = 0 ∨ t.count.toNat + 1 < perOf t.period))
    ∧ (let s : State := (ts at9 0x400000F0); let c : Fin 32 := 3; let t : Timer := s.dev.timer ↑c;
    (s.runs 3 11)
    ∧ (s.dev.tcounts ↑c = true)
    ∧ (s.dev.tdiv ↑c ≤ t.acc + 65536)
    ∧ (s.dev.tmode ↑c ≠ 0)
    ∧ (perOf t.period ≤ t.count.toNat + 1))
    ∧ (let s : State := (ts at9 0x800000F0 [(tmr R.TMR_PRESC 3, 0x20000)]); let c : Fin 32 := 3; let t : Timer := s.dev.timer ↑c;
    (s.runs 3 11)
    ∧ (s.dev.tcounts ↑c = true)
    ∧ (t.acc + 65536 < s.dev.tdiv ↑c)) := by decide +kernel

/-- `Obligations.TimersCountAndReport`, part 2. -/
theorem wit_TimerEventsSetFlags :
    (let s : State := (ts {t0 with count := 0xFFFFFFFFFFFFFFFF, cmp := 0} 0xC0); let c : Fin 32 := 3; let t : Timer := s.dev.timer ↑c;
    (s.runs 3 11)
    ∧ (s.dev.tcounts ↑c = true)
    ∧ (s.dev.tdiv ↑c ≤ (s.dev.timer ↑c).acc + 65536)
    ∧ (s.dev.tmode ↑c = 0)
    ∧ (t.count + 1 = t.cmp)
    ∧ (t.count + 1 = 0))
    ∧ (let s : State := (ts t0 0x400000F0); let c : Fin 32 := 3; let t : Timer := s.dev.timer ↑c;
    (s.runs 3 11)
    ∧ (s.dev.tcounts ↑c = true)
    ∧ (s.dev.tdiv ↑c ≤ (s.dev.timer ↑c).acc + 65536)
    ∧ (s.dev.tmode ↑c ≠ 0)
    ∧ (t.count.toNat + 1 < perOf t.period)
    ∧ (t.count + 1 = t.cmp))
    ∧ (let s : State := (ts at9 0x400000F0); let c : Fin 32 := 3; let t : Timer := s.dev.timer ↑c;
    (s.runs 3 11)
    ∧ (s.dev.tcounts ↑c = true)
    ∧ (s.dev.tdiv ↑c ≤ (s.dev.timer ↑c).acc + 65536)
    ∧ (s.dev.tmode ↑c ≠ 0)
    ∧ (perOf t.period ≤ t.count.toNat + 1)) := by decide +kernel

/-- `Obligations.TimerCommandsAct`. -/
theorem wit_TimerCommandsAct :
    (let s : State := (ts t0 0x80030); let c : Fin 32 := 3; let t : Timer := s.dev.timer ↑c;
    (s.takes (tmr R.TMR_CTRL ↑c))
    ∧ (t.step = false)
    ∧ (s.takes R.TMR_GSTART)
    ∧ (s.takes R.TMR_GSTOP)
    ∧ (s.takes R.TMR_GSTAGGER))
    ∧ (let s : State := (ts {t0 with step := true, capShadow := some 8} 0x80030); let c : Fin 32 := 3; let t : Timer := s.dev.timer ↑c;
    (s.takes (tmr R.TMR_CTRL ↑c))
    ∧ (t.step = true)) := by decide +kernel

/-- `Obligations.TimerCommitsTakeStage`. -/
theorem wit_TimerCommitsTakeStage :
    (let s : State := (ts t0 0x80030); let m : Master := .xdma; let c : Fin 32 := 3; let r : TmrReg := .count; let t : Timer := s.dev.timer ↑c;
    (s.opens m true (tmr (hiReg r) ↑c))
    ∧ (s.opens m true (tmr R.TMR_COUNT_LO ↑c))
    ∧ (t.step = false)
    ∧ (s.opens m true (tmr R.TMR_PHASE_LO ↑c))
    ∧ (s.opens m true (tmr R.TMR_CMP_LO ↑c))
    ∧ (s.opens m true (tmr R.TMR_PERIOD_LO ↑c))
    ∧ (t.running = false ∨ s.dev.tmode ↑c = 0))
    ∧ (let s : State := (ts {t0 with step := true} 0x400C0030); let m : Master := .xdma; let c : Fin 32 := 3; let v : Word := 4; let t : Timer := s.dev.timer ↑c; let pair : BitVec 64 := word64 (s.dev.mrd m (stageReg ↑c)) v;
    (s.opens m true (tmr R.TMR_COUNT_LO ↑c))
    ∧ (t.step = true)
    ∧ (s.opens m true (tmr R.TMR_PERIOD_LO ↑c))
    ∧ (t.running = true)
    ∧ (s.dev.tmode ↑c ≠ 0)
    ∧ (bit (s.dev.rd (tmr R.TMR_CFG ↑c)) 18 = true)
    ∧ (perOf pair ≤ t.count.toNat))
    ∧ (let s : State := (ts t0 0x40080030); let m : Master := .xdma; let c : Fin 32 := 3; let t : Timer := s.dev.timer ↑c;
    (s.opens m true (tmr R.TMR_PERIOD_LO ↑c))
    ∧ (t.running = true)
    ∧ (s.dev.tmode ↑c ≠ 0)
    ∧ (bit (s.dev.rd (tmr R.TMR_CFG ↑c)) 18 = false)) := by decide +kernel

/-- `Obligations.CapturesAndReads`. -/
theorem wit_CapturesAndReads :
    (let s : State := (ts t0 0x80030 [(tmr R.TMR_STATUS 3, 1)]); let m : Master := .xdma; let c : Fin 32 := 3; let rising : Bool := true;
    (s.takes (tmr R.TMR_CTRL ↑c))
    ∧ (s.runs 3 11)
    ∧ (capEdge (s.dev.f (tmr R.TMR_CFG ↑c) 19 2) rising = true)
    ∧ (s.opens m false (tmr R.TMR_CAP_LO ↑c))
    ∧ (s.opens m true (tmr R.TMR_STATUS ↑c))) := by decide +kernel

end Sys2Proof.Tests02

namespace Sys2Proof.Tests03

/-! ### Witnesses: Blocks, interrupts, channels, Signal DMA -/

abbrev B := State.reset
def rdy : State := B.wrs [(R.CLK_STATUS, 0xF)]
def blk (t : Nat) (v l : Nat) (c : Nat := 0) : State := rdy.wrs [(blkReg R.BLK_CFG 7, t*2^30+c), (blkReg R.BLK_VALUE 7, v), (blkReg R.BLK_LIMIT 7, l)]
def nt := 2^24 + 9 * 2^16
def nx (o : Host.Outcome State Fault Refusal) : State := match o with | .next t => t | _ => rdy
def linS (t : Nat) : State := (rdy.wrs [(R.IRQ_MOD + 4 * t, 3)]).mapDev fun d => { d with irq := { d.irq with pend := BitVec.ofNat 256 (2^200), en := [(t, BitVec.ofNat 256 (2^256-1))] }, cores := [(5, {Core.init 5 with running := true, wfi := true, mstatus := 8, mie := 0x800})] }
def chS (es : List (BitVec 64)) (f : Dev → Dev := id) : State := rdy.mapDev fun d => f { d with cores := [(1, {Core.init 1 with running := true})], chn := { d.chn with entries := [(9, es)], stage := [(1, 0x77#32)] }}
def pk : State := (chS [8,9] (fun d => d.setCore 3 {Core.init 3 with running := true, blocked := some (.push 41 0x1234567890#64)}))
def hd : State := rdy.wrs [(R.CHN_RPY_CFG + 4*9, 2^31), (R.XCH_LINK_STATUS, 2^31)] |>.mapDev fun d => { d with chn := {d.chn with entries := [(41, [1,2])]}, link := { d.link with hostMsgs := [4,4], hostData := [9,9] } }
def sd (w1 w2 : Nat) : State := rdy.mapDev fun d => (d.mwr (.sb 1) R.XCH_SDMA_D 0x20000040#32).mwr (.sb 1) (R.XCH_SDMA_D + 4) (w32 w1) |>.mwr (.sb 1) (R.XCH_SDMA_D + 8) (w32 w2)
def sq (st : Bool) : State := rdy.mapDev fun d => { d with sdma := [{ id := 3, core := 2, words := [0xA0000040#32, 0x02000100#32, 0, 0x77], started := st, left := 0, result := 0, remote := none}], sdmaCpl := [(2, [5,6])] }
def nt3 (t l : Nat) : State := (blk t 0 l nt).wrs [(bootReport 3, 0x80000000)]

/-- `Obligations.BlockOperationsAct`, part 1. -/
theorem wit_BlockWriteOperates :
    (let s : State := (blk 2 6 9); let m : Master := .transport; let i : Fin 65536 := 7;
    (s.opens m true (blkReg R.BLK_OP ↑i))
    ∧ (s.dev.blkDev ↑i = false)
    ∧ (s.dev.blkType ↑i = 2))
    ∧ (let s : State := (blk 0 5 9); let m : Master := .transport; let i : Fin 65536 := 7;
    (s.opens m true (blkReg R.BLK_OP ↑i))
    ∧ (s.dev.blkDev ↑i = false)
    ∧ (s.dev.blkType ↑i = 0))
    ∧ (let s : State := (blk 3 16 0); let m : Master := .transport; let i : Fin 65536 := 7;
    (s.opens m true (blkReg R.BLK_OP ↑i))
    ∧ (s.dev.blkDev ↑i = false)
    ∧ (s.dev.blkType ↑i = 3))
    ∧ (let s : State := (blk 1 0x50003 4); let m : Master := .transport; let i : Fin 65536 := 7;
    (s.opens m true (blkReg R.BLK_OP ↑i))
    ∧ (s.dev.blkDev ↑i = false)
    ∧ (s.dev.blkType ↑i = 1)) := by decide +kernel

/-- `Obligations.BlockOperationsAct`, part 2. -/
theorem wit_BlockReadTakes :
    (let s : State := (blk 1 3 9); let m : Master := .transport; let i : Fin 65536 := 7;
    (s.opens m false (blkReg R.BLK_OP ↑i))
    ∧ (s.dev.blkDev ↑i = false)
    ∧ (s.dev.blkType ↑i = 1))
    ∧ (let s : State := (blk 2 0 9); let m : Master := .transport; let i : Fin 65536 := 7;
    (s.opens m false (blkReg R.BLK_OP ↑i))
    ∧ (s.dev.blkDev ↑i = false)
    ∧ (s.dev.blkType ↑i = 2))
    ∧ (let s : State := (blk 0 16 0); let m : Master := .transport; let i : Fin 65536 := 7;
    (s.opens m false (blkReg R.BLK_OP ↑i))
    ∧ (s.dev.blkDev ↑i = false)
    ∧ (s.dev.blkType ↑i = 0))
    ∧ (let s : State := (blk 3 16 0); let m : Master := .transport; let i : Fin 65536 := 7;
    (s.opens m false (blkReg R.BLK_OP ↑i))
    ∧ (s.dev.blkDev ↑i = false)
    ∧ (s.dev.blkType ↑i = 3))
    ∧ (let s : State := (blk 2 1 9 (2^29)); let m : Master := .transport; let i : Fin 65536 := 7;
    (s.opens m false (blkReg R.BLK_OP ↑i))
    ∧ (s.dev.blkDev ↑i = true)) := by decide +kernel

/-- `Obligations.BlockOperationsAct`, part 3. -/
theorem wit_BlockNoticeRaisesLine :
    (let s : State := (nt3 0 9); let m : Master := .transport; let i : Fin 65536 := 7; let r : Nat := R.BLK_LIMIT;
    (s.dev.blkDev ↑i = false)
    ∧ (s.opens m true (blkReg R.BLK_OP ↑i))
    ∧ (s.opens m false (blkReg R.BLK_OP ↑i))
    ∧ (r = R.BLK_VALUE ∨ r = R.BLK_LIMIT)
    ∧ (s.opens m true (blkReg r ↑i))
    ∧ (s.dev.passed 3 = true)) := by decide +kernel

/-- `Obligations.BlockConfigWrites`. -/
theorem wit_BlockConfigWrites :
    (let s : State := (blk 2 7 1 (2^28)); let m : Master := .transport; let i : Fin 65536 := 7; let v : Word := (w32 (2^31 + nt)); let c : Word := s.dev.blkCfg ↑i;
    (s.opens m true (blkReg R.BLK_CFG ↑i))
    ∧ (s.dev.blkDev ↑i = false)
    ∧ (fld v 30 2 = fld c 30 2))
    ∧ (let s : State := (blk 2 7 1 (2^28)); let m : Master := .transport; let i : Fin 65536 := 7; let v : Word := (w32 (2^30 + nt)); let c : Word := s.dev.blkCfg ↑i;
    (s.opens m true (blkReg R.BLK_CFG ↑i))
    ∧ (s.dev.blkDev ↑i = false)
    ∧ (fld v 30 2 ≠ fld c 30 2))
    ∧ (let s : State := (blk 2 7 1 (2^29)); let m : Master := .transport; let i : Fin 65536 := 7; let v : Word := (w32 (2^31 + nt)); let c : Word := s.dev.blkCfg ↑i;
    (s.opens m true (blkReg R.BLK_CFG ↑i))
    ∧ (s.dev.blkDev ↑i = true)
    ∧ (fld v 30 2 = fld c 30 2)
    ∧ (bit v 28 = false))
    ∧ (let s : State := (blk 2 7 1 (2^29)); let m : Master := .transport; let i : Fin 65536 := 7; let v : Word := (w32 (2^30 + nt)); let c : Word := s.dev.blkCfg ↑i;
    (s.opens m true (blkReg R.BLK_CFG ↑i))
    ∧ (s.dev.blkDev ↑i = true)
    ∧ (fld v 30 2 ≠ fld c 30 2)) := by decide +kernel


/-- `Obligations.IrqRegistersAct`. -/
theorem wit_IrqRegistersAct :
    (let s : State := rdy; let m : Master := .transport; let i : Fin 8 := 5; let j : Fin 72 := 46;
    (∀ (n : Fin 8), m = Master.sb n → n = 0)
    ∧ (s.opens m true (R.IRQ_PEND_SET + 4 * ↑i))
    ∧ (s.opens m true (R.IRQ_PEND_CLR + 4 * ↑i))
    ∧ (s.opens m true (R.IRQ_EN_SET + 4 * ↑j))
    ∧ (s.opens m true (R.IRQ_EN_CLR + 4 * ↑j))) := by decide +kernel

/-- `Obligations.InterruptsReachTargets`, part 1. -/
theorem wit_IrqLineActs :
    (let s : State := (linS 5); let t : Fin 9 := 5; let k : Fin 256 := 200;
    (s.dev.clocked = true)
    ∧ (s.dev.irq.pend.getLsbD ↑k = true)
    ∧ ((PMap.get zero256 s.dev.irq.en ↑t).getLsbD ↑k = true)
    ∧ (s.dev.f (R.IRQ_MOD + 4 * ↑t) 24 8 ≤ 1)
    ∧ (s.dev.f (R.IRQ_MOD + 4 * ↑t) 0 16 ≠ 0)) := by decide +kernel

/-- `Obligations.InterruptsReachTargets`, part 2. -/
theorem wit_StationReportRaisesKinds :
    (let s : State := (rdy.mapDev fun d => d.setSW 50 stnIrqLatch 0x15); let p : Fin 2304 := 50;
    (s.dev.clocked = true)
    ∧ (s.nv.enabled ↑p = true)) := by decide +kernel

/-- `Obligations.ChannelAccessesQueue`. -/
theorem wit_ChannelAccessesQueue :
    (let s : State := (chS []); let n : Fin 8 := 1; let reply : Bool := true; let c : Fin 32 := 9; let ch : Nat := chan reply ↑c; let es : List (BitVec 64) := s.dev.chEntries ch;
    (s.dev.coreActs ↑n = true)
    ∧ (chanClosed (↑n) ch = false)
    ∧ (s.opens (Master.sb n) true (chanAddr ch 0))
    ∧ (s.opens (Master.sb n) true (chanAddr ch 1))
    ∧ (s.dev.parked ↑n = false)
    ∧ (es.length < 16)
    ∧ (∀ k < 8, (s.dev.core k).blocked = none)
    ∧ (s.opens (Master.sb n) false (chanAddr ch 0))
    ∧ (s.dev.hostChan ch = false)
    ∧ (es = []))
    ∧ (let s : State := (chS (List.replicate 16 7)); let n : Fin 8 := 1; let reply : Bool := false; let c : Fin 32 := 9; let ch : Nat := chan reply ↑c; let es : List (BitVec 64) := s.dev.chEntries ch;
    (s.dev.coreActs ↑n = true)
    ∧ (chanClosed (↑n) ch = false)
    ∧ (s.opens (Master.sb n) true (chanAddr ch 1))
    ∧ (s.dev.parked ↑n = false)
    ∧ (es.length = 16)
    ∧ (s.opens (Master.sb n) false (chanAddr ch 0))
    ∧ (s.dev.hostChan ch = false)
    ∧ (es ≠ [])
    ∧ (∀ k < 8, (s.dev.core k).blocked = none)) := by decide +kernel

/-- `Obligations.ClosedChannelsDenied`. -/
theorem wit_ClosedChannelsDenied :
    (let s : State := ((rdy.wrs [(R.SYS_SB_STATE+8, 0x1FFFF)]).mapDev fun d => d.setCore 2 {Core.init 2 with running := true}); let n : Fin 8 := 2;
    (s.dev.clocked = true)
    ∧ (n ≠ 0)
    ∧ (s.dev.coreActs ↑n = true)) := by decide +kernel

/-- `Obligations.ParkedEntriesAndHostDrain`, part 1. -/
theorem wit_ParkedEntriesLeave :
    (let s : State := (chS [8,9] (fun d => d.setPark 3 9 0x1234567890#64)); let m : Master := .transport; let o : Fin 8 := 3; let ch : Nat := s.dev.parkedChan ↑o;
    (s.dev.clocked = true)
    ∧ (∀ (n : Fin 8), m ≠ Master.sb n)
    ∧ (s.opens m true (park R.CHN_PARK_CTRL ↑o))
    ∧ (s.dev.parked ↑o = true)
    ∧ ((s.dev.chEntries ch).length < 16)
    ∧ (∀ k < 8, (s.dev.core k).blocked = none))
    ∧ (let s : State := pk; let o : Fin 8 := 3; let ch : Nat := 41; let e : BitVec 64 := 78187493520#64;
    (s.dev.clocked = true)
    ∧ (ch < 64)
    ∧ ((s.dev.core ↑o).blocked = some (Blocked.push ch e))
    ∧ (s.dev.parked ↑o = false)) := by decide +kernel

/-- `Obligations.ParkedEntriesAndHostDrain`, part 2. -/
theorem wit_HostChannelDrains :
    (let s : State := hd; let c : Fin 32 := 9; let es : List (BitVec 64) := s.dev.chEntries (32 + ↑c);
    (s.dev.clocked = true)
    ∧ (s.dev.hostChan (32 + ↑c) = true)
    ∧ (s.dev.linkUp = true)
    ∧ (es ≠ [])
    ∧ (es.length ≤ 16)
    ∧ (s.dev.creditP (8 * es.length) = true)
    ∧ (∀ k < 8, (s.dev.core k).blocked = none)) := by decide +kernel

/-- `Obligations.SignalDmaRuns`, part 1. -/
theorem wit_SdmaSubmitQueues :
    (let s : State := (sd 0x02000100 0x0); let n : Fin 8 := 1; let v : Word := 0x77; let m : Master := Master.sb n; let ws : List Word := [s.dev.mrd m R.XCH_SDMA_D, s.dev.mrd m (R.XCH_SDMA_D + 4), s.dev.mrd m (R.XCH_SDMA_D + 8), v];
    (s.opens (Master.sb n) true (R.XCH_SDMA_D + 12))
    ∧ (s.dev.sdOk s.nv ws = true)
    ∧ (s.dev.descQueue < 64))
    ∧ (let s : State := (sd 0x02000102 0x0); let n : Fin 8 := 1; let v : Word := 0x77; let m : Master := Master.sb n; let ws : List Word := [s.dev.mrd m R.XCH_SDMA_D, s.dev.mrd m (R.XCH_SDMA_D + 4), s.dev.mrd m (R.XCH_SDMA_D + 8), v];
    (s.opens (Master.sb n) true (R.XCH_SDMA_D + 12))
    ∧ (s.dev.sdOk s.nv ws = false))
    ∧ (let s : State := ((sd 0x02000100 0x0).mapDev fun d => { d with sdma := List.replicate 64 { id := 3, core := 2, words := [], started := false, left := 0, result := 0, remote := none} }); let n : Fin 8 := 1; let v : Word := 0x77; let m : Master := Master.sb n; let ws : List Word := [s.dev.mrd m R.XCH_SDMA_D, s.dev.mrd m (R.XCH_SDMA_D + 4), s.dev.mrd m (R.XCH_SDMA_D + 8), v];
    (s.opens (Master.sb n) true (R.XCH_SDMA_D + 12))
    ∧ (s.dev.sdOk s.nv ws = true)
    ∧ (64 ≤ s.dev.descQueue)) := by decide +kernel

/-- `Obligations.SignalDmaRuns`, part 2. -/
theorem wit_SdmaDescriptorsComplete :
    (let s : State := (sq true); let q : SdmaDesc := { id := 3, core := 2, words := [0xA0000040#32, 0x02000100#32, 0, 0x77], started := true, left := 0, result := 0, remote := none}; let rest : List SdmaDesc := []; let n : Fin 8 := 2; let fifo : List Word := PMap.get cplDflt s.dev.sdmaCpl ↑n;
    (s.dev.sdma = q :: rest)
    ∧ (q.core = ↑n)
    ∧ (s.runs 4 0)
    ∧ (q.started = true)
    ∧ (q.left = 0)
    ∧ (fifo.length < 16)
    ∧ (s.opens (Master.sb n) false R.XCH_SDMA_CPL))
    ∧ (let s : State := (sq false); let q : SdmaDesc := { id := 3, core := 2, words := [0xA0000040#32, 0x02000100#32, 0, 0x77], started := false, left := 0, result := 0, remote := none}; let rest : List SdmaDesc := []; let n : Fin 8 := 2;
    (s.dev.sdma = q :: rest)
    ∧ (q.core = ↑n)
    ∧ (s.runs 4 0)
    ∧ (q.started = false)
    ∧ (∀ r ∈ rest, r.id ≠ q.id)
    ∧ (s.dev.tpl.waitFreight = false)
    ∧ (s.dev.banksTested (sdDpt q.words) (sdLen q.words) = false)) := by decide +kernel

end Sys2Proof.Tests03

namespace Sys2Proof.Tests04

/-! ### Witnesses: clocks, power, the Token Office -/

abbrev B := State.reset
def rdy : State := B.wrs [(R.CLK_STATUS, 0xF)]
def hs : State := {rdy.wrs [(R.CLK_KF_LIM, 0x2000)] with nv := { rdy.nv with hsmRef := List.replicate 64 100#16 }}
def tq (r c : Nat) : TokReq := ⟨r, c, 0x01010101#32, 0⟩
def tk (l : List TokReq) : State := rdy.mapDev fun d => {d with tok := {d.tok with queue := l}}
def vf (r : Nat) : State := rdy.mapDev fun d => { d with vfab := { d.vfab with stepTo := some 500, waiting := false, retries := r } }
def cs04 : State := rdy.wrs [(clkSel 2, 2^31+1)]
def xg : State := ((tk [tq 17 2]).wrs [(R.CLK_XCH, 2+3*65536)]).mapDev fun d => { d with xchWant := some 7 }
def tq17 : TokReq := tq 17 2

/-- `Obligations.ClockSourcesChange`, part 1. -/
theorem wit_ClockSwitchProceeds :
    (let s : State := (rdy.wrs [(clkSel 0, 2^31+1)]); let i : Fin 4 := 0; let w : Word := s.dev.rd (clkSel ↑i);
    (s.dev.clocked = true)
    ∧ (bit w 31 = true)
    ∧ (bit w 30 = false)
    ∧ ((PMap.get noSwitch s.dev.switches ↑i).2 = false)
    ∧ (s.dev.switchFed ↑i = false))
    ∧ (let s : State := rdy; let i : Fin 4 := 1; let w : Word := s.dev.rd (clkSel ↑i);
    (s.dev.clocked = true)
    ∧ (bit w 31 = false))
    ∧ (let s : State := cs04; let i : Fin 4 := 2; let w : Word := s.dev.rd (clkSel ↑i);
    (s.dev.clocked = true)
    ∧ (bit w 31 = true)
    ∧ (bit w 30 = false)
    ∧ ((PMap.get noSwitch s.dev.switches ↑i).2 = false)
    ∧ (s.dev.switchFed ↑i = true)) := by decide +kernel

/-- `Obligations.ClockSourcesChange`, part 2. -/
theorem wit_XchRatioFollowsFloor :
    (let s : State := xg; let r : Nat := s.dev.xchRatio; let q : TokReq := tq17; let pre : List TokReq := []; let post : List TokReq := []; let w : Nat := 7;
    (s.dev.clocked = true)
    ∧ (s.dev.tok.queue = pre ++ q :: post)
    ∧ (q.req = rqXch)
    ∧ (q.cls < 7)
    ∧ (s.dev.tokFits q = true)
    ∧ (∀ r ∈ pre, r.cls ≤ q.cls → s.dev.tokFits r = false)
    ∧ (∀ r ∈ post, r.cls < q.cls → s.dev.tokFits r = false)
    ∧ (s.dev.xchWant = some w)
    ∧ (w < 16)
    ∧ (r < floorOf w)
    ∧ (s.dev.pwrState = 0)
    ∧ (s.dev.islandRuns 4 = true)
    ∧ (r < 15))
    ∧ (let s : State := rdy; let v : Word := 5; let f : Nat := floorOf (fld v 0 4); let r : Nat := s.dev.xchRatio;
    (s.dev.clocked = true)
    ∧ (f ≤ r ∨ f ≤ s.dev.xchFloor))
    ∧ (let s : State := (rdy.wrs [(R.CLK_XCH, 2+3*65536)]); let v : Word := 7; let f : Nat := floorOf (fld v 0 4); let r : Nat := s.dev.xchRatio; let asks : TokReq → Bool := fun (q : TokReq) => q.req == rqXch;
    (s.dev.clocked = true)
    ∧ (r < f)
    ∧ (s.dev.xchFloor < f)
    ∧ (s.dev.tok.queue.any asks = false)
    ∧ (s.dev.tok.grants.any asks = false)
    ∧ (s.dev.tokHopeless { req := rqXch, cls := 2, cost := s.dev.rd (R.PWR_TOK_COST + 8), at_ := s.dev.now } = false)) := by decide +kernel

/-- `Obligations.ClocksStopAndAreMonitored`, part 1. -/
theorem wit_ClocksStopAndReturn :
    (let s : State := rdy;
    (s.dev.clocked = true)
    ∧ (s.dev.clkOf 0 ≠ 1))
    ∧ (let s : State := (rdy.wrs [(R.CLK_SEL, 1)]);
    (s.dev.clocked = true)
    ∧ (s.dev.clkOf 0 = 1))
    ∧ (let s : State := (rdy.mapDev fun d => {d with sbclk := false, boot := {d.boot with started := false}});
    (s.dev.powered = true)
    ∧ (s.dev.boot.started = false))
    ∧ (let s : State := (rdy.mapDev fun d => {d with sbclk := false}.wr (R.SYS_BOOT_REPORT + 8) 0x80000000#32);
    (s.dev.powered = true)
    ∧ (s.dev.sbclk = false)
    ∧ (s.dev.boot.started = true)) := by decide +kernel

/-- `Obligations.ClocksStopAndAreMonitored`, part 2. -/
theorem wit_ClockMonitorsReport :
    (let s : State := hs; let freq : List Word := (List.range 10 |>.map w32); let hsm : List Half := (List.range 64 |>.map (BitVec.ofNat 16 ·));
    (s.dev.clocked = true)
    ∧ (freq.length = 10)
    ∧ (hsm.length = 64)) := by decide +kernel

/-- `Obligations.FabricVoltageMoves`. -/
theorem wit_FabricVoltageMoves :
    (let s : State := (vf 2); let dest : Nat := 500;
    (s.dev.clocked = true)
    ∧ (s.dev.vfab.stepTo = some dest)
    ∧ (s.dev.vfab.waiting = false)
    ∧ (s.dev.vfab.retries < 3))
    ∧ (let s : State := rdy;
    (s.dev.clocked = true)
    ∧ (s.dev.vfab.stepTo = none))
    ∧ (let s : State := (vf 3); let dest : Nat := 500;
    (s.dev.clocked = true)
    ∧ (s.dev.vfab.stepTo = some dest)
    ∧ (s.dev.vfab.waiting = false)
    ∧ (3 ≤ s.dev.vfab.retries)) := by decide +kernel

/-- `Obligations.PowerStatesChange`, part 1. -/
theorem wit_PowerStatesChange :
    (let s : State := (rdy.wrs [(R.PWR_STATE, 2^30), (R.PWR_WAKE_EN, 0x7F), (R.PWR_WAKE_TIME, 5)]|>.mapDev fun d => {d with cores := [(0, {Core.init 0 with wfi := true})]}); let c : Fin 7 := 1;
    (s.dev.clocked = true)
    ∧ (s.dev.pwrRefuse 1 ≠ 0)
    ∧ (s.dev.pwrRefuse 2 ≠ 0)
    ∧ (s.dev.pwrState = 1 ∨ s.dev.pwrState = 2)
    ∧ (bit (s.dev.rd R.PWR_STATE) 29 = false)
    ∧ (bit (s.dev.rd R.PWR_WAKE_EN) ↑c = true)
    ∧ (↑c ≠ 2)
    ∧ (↑c = 1 → s.dev.pwrState = 1)
    ∧ (↑c = 3 → ∃ (p : Fin 16), s.dev.pinWakes ↑p = true)
    ∧ (↑c = 4 → ∃ (k : Fin 8), s.dev.linkListens ↑k = true)
    ∧ (bit (s.dev.rd R.PWR_WAKE_EN) 2 = true)
    ∧ (s.dev.rd R.PWR_WAKE_TIME ≠ 0))
    ∧ (let s : State := rdy;
    (s.dev.clocked = true)
    ∧ (s.dev.pwrRefuse 1 = 0)
    ∧ (s.dev.pwrRefuse 2 = 0))
    ∧ (let s : State := (rdy.wrs [(R.PWR_STATE, 2^28)]|>.mapDev fun d => {d with pwr := {d.pwr with target := 2}, cores := [(0, {Core.init 0 with wfi := true})]}); let entering : State → Bool := fun (u : State) => bit (u.dev.rd R.PWR_STATE) 28;
    (s.dev.clocked = true)
    ∧ (entering s = true)
    ∧ (s.dev.coresIdle = true)
    ∧ (s.dev.pwr.target < 4)) := by decide +kernel

/-- `Obligations.TemperatureAndPinsReport`, part 1. -/
theorem wit_TemperatureSampled :
    (let s : State := rdy; let temps : List (BitVec 12) := (List.range 64 |>.map (BitVec.ofNat 12 ·));
    (s.dev.clocked = true)
    ∧ (temps.length = 64)) := by decide +kernel

/-- `Obligations.TemperatureAndPinsReport`, part 2. -/
theorem wit_PinLevelsFilter :
    (let s : State := rdy; let m : Master := .transport; let p : Fin 16 := 3; let level : Bool := true;
    (s.dev.clocked = true)
    ∧ (s.dev.pinDriven ↑p = true → s.dev.pinRaw ↑p = level)
    ∧ (s.opens m true (R.IRQ_PIN_CFG + 4 * ↑p))
    ∧ (∀ (n : Fin 8), m = Master.sb n → n = 0))
    ∧ (let s : State := (rdy.wrs [(R.PIN_CFG + 12, 1)]); let p : Fin 16 := 3; let level : Bool := true;
    (s.dev.pinDriven ↑p = true)
    ∧ (s.dev.pinRaw ↑p = !level)) := by decide +kernel

/-- `Obligations.TokenOfficeGrantsAndRefuses`, part 1. -/
theorem wit_TokenGrantGoes :
    (let s : State := (tk [tq 3 0]); let q : TokReq := (tq 3 0); let pre : List TokReq := []; let post : List TokReq := [];
    (s.dev.clocked = true)
    ∧ (s.dev.tok.queue = pre ++ q :: post)
    ∧ (q.cls < 7)
    ∧ (s.dev.tokFits q = true)
    ∧ (∀ r ∈ pre, r.cls ≤ q.cls → s.dev.tokFits r = false)
    ∧ (∀ r ∈ post, r.cls < q.cls → s.dev.tokFits r = false)
    ∧ (q.req < 12 ∨ 13 ≤ q.req ∧ q.req < 17 ∨ q.req = rqTrain ∨ q.req = rqAvs)) := by decide +kernel

/-- `Obligations.TokenOfficeGrantsAndRefuses`, part 2. -/
theorem wit_TokenWaitRefuses :
    (let s : State := (tk [tq 3 0]); let r : Fin 22 := 3;
    (s.dev.clocked = true)
    ∧ ((s.dev.tok.queue.any fun (q : TokReq) => q.req == ↑r) = true)
    ∧ (↑r = rqTrain → s.dev.rst.waiting = false)) := by decide +kernel

end Sys2Proof.Tests04

namespace Sys2Proof.Tests05

/-! ### Witnesses: worlds and time steps -/

abbrev B := State.reset
def rdy : State := B.wrs [(R.CLK_STATUS, 0xF), (R.CLK_STATUS, 0xF)]
def W0 : World := { World.init with live := true, started := true, step := 6, ext := 6, period := 100, stations := [0, 49], nextB := 1, policy := 0, stretchMax := 3, timer := 4, barrier := 77, bankEmpty := true, done := true, dueB := 0, cfg := 0x40, inputOpen := true }
def stw (f : World → World) (g : Dev → Dev := id) : State := rdy.mapDev fun d => g <| ({ d with worlds := [(5, f W0)], timers := [(4, {Timer.init with count := 1000})] }.setSW 0 R.STN_MOD_CFG 0x80000005#32).setSW 49 (R.STN_MOD_CFG+16) 0x80000005#32
def rd0 : Reading := ⟨0, 0, 0, true⟩
def opn := (fun (d : Dev) => (d.updStn 0 fun s => {s with opened := [(0, true)]}).updStn 49 fun s => {s with opened := [(1, true)]})
def con := (fun (d : Dev) => (opn d).updStreamer 3 fun s => {s with table := [(5, [0x80000000#32])]})
def ec (thru : Nat) : Copy := mkCopy 0x0000000000500007#64 (2 + 8 * thru + 4 * thru + 16 * 3 * thru) 1
def eb (thru : Nat) (e : Nat) : State := stw id fun d => { d with edgeBuf := [(edgeKey e 9 1, [ec thru, ec 0])] }

/-- `Obligations.StepsReleaseAndRunLate`, part 1. -/
theorem wit_StepReleaseAdvances :
    (let s : State := (stw id); let w : Fin 4096 := 5; let x : World := s.dev.wld ↑w;
    (s.dev.clocked = true)
    ∧ (x.live = true)
    ∧ (x.held = false)
    ∧ (x.faulted = false)
    ∧ (s.dev.pwrState = 0)
    ∧ (x.bankEmpty = true)
    ∧ (s.dev.sysWorld ↑w = false)
    ∧ (x.skip = false)
    ∧ (x.started = true → x.done = true)
    ∧ (x.free = true ∨ x.dueB < x.nextB)
    ∧ (∀ v ∈ s.dev.liveIds, v < ↑w → s.dev.releasable v = false))
    ∧ (let s : State := (stw fun x => {x with bankEmpty := false}); let w : Fin 4096 := 5; let x : World := s.dev.wld ↑w;
    (s.dev.clocked = true)
    ∧ (x.held = true ∨ x.faulted = true ∨ x.bankEmpty = false)) := by decide +kernel

/-- `Obligations.StepsReleaseAndRunLate`, part 2. -/
theorem wit_LateStepsFollowPolicy :
    (let s : State := (stw fun x => {x with done := false}); let w : Fin 4096 := 5; let x : World := s.dev.wld ↑w;
    (s.dev.clocked = true)
    ∧ (s.dev.pwrState = 0)
    ∧ (x.live = true)
    ∧ (x.held = false)
    ∧ (x.faulted = false)
    ∧ (x.free = false)
    ∧ (s.dev.sysWorld ↑w = false)
    ∧ (x.started = true)
    ∧ (x.skip = false)
    ∧ (s.dev.reached x x.nextB = true)
    ∧ (x.done = false)
    ∧ (x.late = false)
    ∧ (x.policy = 0)
    ∧ (x.stretchMax ≠ 0))
    ∧ (let s : State := (stw fun x => {x with done := true, policy := 2}); let w : Fin 4096 := 5; let x : World := s.dev.wld ↑w;
    (s.dev.clocked = true)
    ∧ (s.dev.pwrState = 0)
    ∧ (x.live = true)
    ∧ (x.held = false)
    ∧ (x.faulted = false)
    ∧ (x.free = false)
    ∧ (s.dev.sysWorld ↑w = false)
    ∧ (x.started = true)
    ∧ (x.skip = false)
    ∧ (s.dev.reached x x.nextB = true)
    ∧ (x.done = true))
    ∧ (let s : State := (stw fun x => {x with done := false, policy := 1}); let w : Fin 4096 := 5; let x : World := s.dev.wld ↑w;
    (s.dev.clocked = true)
    ∧ (s.dev.pwrState = 0)
    ∧ (x.live = true)
    ∧ (x.held = false)
    ∧ (x.faulted = false)
    ∧ (x.free = false)
    ∧ (s.dev.sysWorld ↑w = false)
    ∧ (x.started = true)
    ∧ (x.skip = false)
    ∧ (s.dev.reached x x.nextB = true)
    ∧ (x.done = false)
    ∧ (x.late = false)
    ∧ (x.policy = 1))
    ∧ (let s : State := (stw fun x => {x with done := false, policy := 2}); let w : Fin 4096 := 5; let x : World := s.dev.wld ↑w;
    (s.dev.clocked = true)
    ∧ (s.dev.pwrState = 0)
    ∧ (x.live = true)
    ∧ (x.held = false)
    ∧ (x.faulted = false)
    ∧ (x.free = false)
    ∧ (s.dev.sysWorld ↑w = false)
    ∧ (x.started = true)
    ∧ (x.skip = false)
    ∧ (s.dev.reached x x.nextB = true)
    ∧ (x.done = false)
    ∧ (x.late = false)
    ∧ (x.policy = 2))
    ∧ (let s : State := (stw fun x => {x with done := false, late := true}); let w : Fin 4096 := 5; let x : World := s.dev.wld ↑w;
    (s.dev.clocked = true)
    ∧ (s.dev.pwrState = 0)
    ∧ (x.live = true)
    ∧ (x.held = false)
    ∧ (x.faulted = false)
    ∧ (x.free = false)
    ∧ (s.dev.sysWorld ↑w = false)
    ∧ (x.started = true)
    ∧ (x.skip = false)
    ∧ (x.done = false)
    ∧ (x.late = true)
    ∧ (x.policy = 0)
    ∧ (x.stretchMax ≠ 65535)
    ∧ (s.dev.reached x (x.dueB + x.stretchMax) = true))
    ∧ (let s : State := (stw fun x => {x with done := false, stretchMax := 0}); let w : Fin 4096 := 5; let x : World := s.dev.wld ↑w;
    (s.dev.clocked = true)
    ∧ (s.dev.pwrState = 0)
    ∧ (x.live = true)
    ∧ (x.held = false)
    ∧ (x.faulted = false)
    ∧ (x.free = false)
    ∧ (s.dev.sysWorld ↑w = false)
    ∧ (x.started = true)
    ∧ (x.skip = false)
    ∧ (s.dev.reached x x.nextB = true)
    ∧ (x.done = false)
    ∧ (x.late = false)
    ∧ (x.policy = 0)
    ∧ (x.stretchMax = 0)) := by decide +kernel

/-- `Obligations.InputInjectedInOrder`. -/
theorem wit_InputInjectedInOrder :
    (let s : State := (stw fun x => {x with queue := [.mark]}); let w : Fin 4096 := 5; let rest : List QItem := []; let x : World := s.dev.wld ↑w;
    (s.runs 4 0)
    ∧ (x.live = true)
    ∧ (x.held = false)
    ∧ (x.inputOpen = true)
    ∧ (s.dev.injectNext = some ↑w)
    ∧ (x.latch = none)
    ∧ (x.queue = QItem.mark :: rest)
    ∧ (x.queue ≠ []))
    ∧ (let s : State := (stw fun x => {x with latch := some (0x3f80, true)}); let w : Fin 4096 := 5; let x : World := s.dev.wld ↑w; let d : Dev := have __src := s.dev; { regs := __src.regs, mregs := __src.mregs, latches := __src.latches, compl := __src.compl, stnW := __src.stnW, stnM := __src.stnM, stns := __src.stns, worlds := __src.worlds, wregs := __src.wregs, edgeTab := __src.edgeTab, edgeCnt := __src.edgeCnt, edgeBuf := __src.edgeBuf, injNext := ↑w + 1, notices := __src.notices, packets := __src.packets, txns := __src.txns, fwait := __src.fwait, frtTurn := __src.frtTurn, frtServed := __src.frtServed, words := __src.words, bankHeld := __src.bankHeld, accNext := __src.accNext, streamers := __src.streamers, qnt := __src.qnt, prjs := __src.prjs, link := __src.link, rings := __src.rings, encBase := __src.encBase, encSt := __src.encSt, encCnt := __src.encCnt, decs := __src.decs, trunks := __src.trunks, sys := __src.sys, tpl := __src.tpl, cores := __src.cores, coreMem := __src.coreMem, chn := __src.chn, irq := __src.irq, timers := __src.timers, sdma := __src.sdma, sdmaNext := __src.sdmaNext, sdmaCpl := __src.sdmaCpl, mbt := __src.mbt, spares := __src.spares, tok := __src.tok, vfab := __src.vfab, pwr := __src.pwr, boot := __src.boot, rst := __src.rst, locked := __src.locked, switches := __src.switches, xchWant := __src.xchWant, fwu := __src.fwu, microcode := __src.microcode, training := __src.training, jtag := __src.jtag, pins := __src.pins, araDone := __src.araDone, smbUse := __src.smbUse, sbclk := __src.sbclk, powered := __src.powered, fwdClk := __src.fwdClk, now := __src.now, freeCtr := __src.freeCtr }; let v : Half := 16256; let add : Bool := true;
    (s.runs 4 0)
    ∧ (x.live = true)
    ∧ (x.held = false)
    ∧ (x.inputOpen = true)
    ∧ (s.dev.injectNext = some ↑w)
    ∧ (x.latch = some (v, add))
    ∧ (s.dev.sysWorld ↑w = false)
    ∧ (d.edgeRoom (d.edgeLookup s.nv (modCopy (↑w) x.step v add) 0 false) (modCopy (↑w) x.step v add).vc = true))
    ∧ (let s : State := (stw fun x => {x with queue := [.event 0x500000#64 1]}); let w : Fin 4096 := 5; let rest : List QItem := []; let x : World := s.dev.wld ↑w; let d : Dev := have __src := s.dev; { regs := __src.regs, mregs := __src.mregs, latches := __src.latches, compl := __src.compl, stnW := __src.stnW, stnM := __src.stnM, stns := __src.stns, worlds := __src.worlds, wregs := __src.wregs, edgeTab := __src.edgeTab, edgeCnt := __src.edgeCnt, edgeBuf := __src.edgeBuf, injNext := ↑w + 1, notices := __src.notices, packets := __src.packets, txns := __src.txns, fwait := __src.fwait, frtTurn := __src.frtTurn, frtServed := __src.frtServed, words := __src.words, bankHeld := __src.bankHeld, accNext := __src.accNext, streamers := __src.streamers, qnt := __src.qnt, prjs := __src.prjs, link := __src.link, rings := __src.rings, encBase := __src.encBase, encSt := __src.encSt, encCnt := __src.encCnt, decs := __src.decs, trunks := __src.trunks, sys := __src.sys, tpl := __src.tpl, cores := __src.cores, coreMem := __src.coreMem, chn := __src.chn, irq := __src.irq, timers := __src.timers, sdma := __src.sdma, sdmaNext := __src.sdmaNext, sdmaCpl := __src.sdmaCpl, mbt := __src.mbt, spares := __src.spares, tok := __src.tok, vfab := __src.vfab, pwr := __src.pwr, boot := __src.boot, rst := __src.rst, locked := __src.locked, switches := __src.switches, xchWant := __src.xchWant, fwu := __src.fwu, microcode := __src.microcode, training := __src.training, jtag := __src.jtag, pins := __src.pins, araDone := __src.araDone, smbUse := __src.smbUse, sbclk := __src.sbclk, powered := __src.powered, fwdClk := __src.fwdClk, now := __src.now, freeCtr := __src.freeCtr }; let word : BitVec 64 := 5242880#64; let vc : Nat := 1;
    (s.runs 4 0)
    ∧ (x.live = true)
    ∧ (x.held = false)
    ∧ (x.inputOpen = true)
    ∧ (s.dev.injectNext = some ↑w)
    ∧ (x.latch = none)
    ∧ (x.queue = QItem.event word vc :: rest)
    ∧ (d.edgeRoom (d.edgeLookup s.nv (mkCopy word (x.step % 4) vc) 0 false) (mkCopy word (x.step % 4) vc).vc = true))
    ∧ (let s : State := (stw id (fun d => (d.updStn 0 fun s => {s with opened := [(0, true)]}).updStn 49 fun s => {s with opened := [(1, true)]})); let w : Fin 4096 := 5; let x : World := s.dev.wld ↑w;
    (s.runs 4 0)
    ∧ (x.live = true)
    ∧ (x.held = false)
    ∧ (x.inputOpen = true)
    ∧ (x.latch = none)
    ∧ (x.queue = [])
    ∧ (x.markMode = false)
    ∧ (s.dev.allOpened ↑w = true)) := by decide +kernel

/-- `Obligations.StepsComplete`, part 1. -/
theorem wit_ReductionsConfirmBanks :
    (let s : State := (stw (fun x => {x with bankEmpty := false}) opn); let w : Fin 4096 := 5; let b : Fin 2 := 1; let x : World := s.dev.wld ↑w; let r : Reading := s.dev.reading ↑w ↑b;
    (s.runs 4 0)
    ∧ (x.live = true)
    ∧ (x.started = true)
    ∧ (s.dev.sysWorld ↑w = false)
    ∧ (x.faulted = false)
    ∧ (r.sat = false)
    ∧ (x.step % 2 ≠ ↑b)
    ∧ (PMap.get noReading x.lastRead ↑b = none))
    ∧ (let s : State := (stw (fun x => {x with bankEmpty := false, lastRead := [(1, some rd0)]}) opn); let w : Fin 4096 := 5; let b : Fin 2 := 1; let x : World := s.dev.wld ↑w; let r : Reading := s.dev.reading ↑w ↑b;
    (s.runs 4 0)
    ∧ (x.live = true)
    ∧ (x.started = true)
    ∧ (s.dev.sysWorld ↑w = false)
    ∧ (x.faulted = false)
    ∧ (r.sat = false)
    ∧ (x.step % 2 ≠ ↑b)
    ∧ (∃ (p : Reading), PMap.get noReading x.lastRead ↑b = some p ∧ p.agree r = true))
    ∧ (let s : State := (stw (fun x => {x with bankEmpty := false, inputOpen := false, lastRead := [(0, some rd0)]}) con); let w : Fin 4096 := 5; let b : Fin 2 := 0; let x : World := s.dev.wld ↑w; let r : Reading := s.dev.reading ↑w ↑b;
    (s.runs 4 0)
    ∧ (x.live = true)
    ∧ (x.started = true)
    ∧ (s.dev.sysWorld ↑w = false)
    ∧ (x.faulted = false)
    ∧ (r.sat = false)
    ∧ (x.step % 2 = ↑b)
    ∧ (x.inputOpen = false)
    ∧ (x.quiescent = false)
    ∧ (x.skip = false)
    ∧ (s.dev.consistOf s.nv ↑w ≠ [])
    ∧ (∃ (p : Reading), PMap.get noReading x.lastRead ↑b = some p ∧ p.agree r = true)) := by decide +kernel

/-- `Obligations.StepsComplete`, part 2. -/
theorem wit_ConsistEndCompletesBarrier :
    (let s : State := (stw (fun x => {x with done := false, quiescent := true, consist := [3]}) (fun d => d.updStreamer 3 fun y => {y with ends := [5]})); let k : Fin 12 := 3; let w : Fin 4096 := 5; let x : World := s.dev.wld ↑w;
    (s.runs 4 0)
    ∧ ((s.dev.streamer ↑k).ends.contains ↑w = true)
    ∧ (x.live = true)
    ∧ (x.ran = false)
    ∧ (x.done = false)
    ∧ (x.quiescent = true)
    ∧ (x.skip = false)
    ∧ (s.dev.sysWorld ↑w = false)
    ∧ (x.consist = [↑k]))
    ∧ (let s : State := (stw (fun x => {x with done := false, quiescent := true, consist := [3, 4]}) (fun d => d.updStreamer 3 fun y => {y with ends := [5]})); let k : Fin 12 := 3; let w : Fin 4096 := 5; let x : World := s.dev.wld ↑w;
    (s.runs 4 0)
    ∧ ((s.dev.streamer ↑k).ends.contains ↑w = true)
    ∧ (x.live = true)
    ∧ (x.ran = false)
    ∧ (x.done = false)
    ∧ (x.quiescent = true)
    ∧ (x.skip = false)
    ∧ (s.dev.sysWorld ↑w = false)
    ∧ (∃ k' ∈ x.consist, k' ≠ ↑k)) := by decide +kernel

/-- `Obligations.CreditsCountedAtInterchange`, part 1. -/
theorem wit_NoticesCountCredits :
    (let s : State := (stw id (fun d => {d with notices := [none]})); let rest : List (Option (Nat × Nat)) := [];
    (s.runs 4 0)
    ∧ (s.dev.notices = none :: rest))
    ∧ (let s : State := (stw id (fun d => {d with notices := [some (5, 1)]})); let rest : List (Option (Nat × Nat)) := []; let w : Nat := 5; let b : Nat := 1;
    (s.runs 4 0)
    ∧ (s.dev.notices = some (w, b) :: rest)) := by decide +kernel

/-- `Obligations.CreditsCountedAtInterchange`, part 2. -/
theorem wit_EdgeRoutersConsume :
    (let s : State := (eb 1 1); let row : Fin 48 := 9; let vc : Fin 4 := 1; let err : LinkError := 0; let c : Copy := (ec 1); let rest : List Copy := [ec 0]; let y : Copy := c.hit err;
    (c.vc = ↑vc)
    ∧ (s.dev.clocked = true)
    ∧ (s.dev.ebuf 1 ↑row ↑vc = c :: rest)
    ∧ (y.good = true)
    ∧ (y.thru = true)
    ∧ (s.dev.trunkUp s.nv y.trk = false))
    ∧ (let s : State := (eb 0 0); let row : Fin 48 := 9; let vc : Fin 4 := 1; let err : LinkError := 0; let c : Copy := (ec 0); let rest : List Copy := [ec 0]; let y : Copy := c.hit err;
    (c.vc = ↑vc)
    ∧ (s.runs 4 0)
    ∧ (s.dev.ebuf 0 ↑row ↑vc = c :: rest)
    ∧ (s.dev.edgeTested y = false)
    ∧ (y.good = true)
    ∧ (s.dev.edgeFind y = none)
    ∧ (bit (s.dev.rd R.XCH_EDGE_DEF) 31 = false))
    ∧ (let s : State := (eb 0 0); let row : Fin 48 := 9; let vc : Fin 4 := 1; let err : LinkError := 5; let c : Copy := (ec 0); let rest : List Copy := [ec 0]; let y : Copy := c.hit err;
    (c.vc = ↑vc)
    ∧ (s.runs 4 0)
    ∧ (s.dev.ebuf 0 ↑row ↑vc = c :: rest)
    ∧ (s.dev.edgeTested y = false)
    ∧ (y.good = false))
    ∧ (let s : State := (eb 0 2); let q : Fin 48 := 9; let e : Edge := .north; let vc : Fin 4 := 1; let err : LinkError := 0; let c : Copy := (ec 0); let rest : List Copy := [ec 0]; let y : Copy := c.hit err;
    (c.vc = ↑vc)
    ∧ (s.dev.clocked = true)
    ∧ (s.dev.ebuf (edgeNo e) ↑q ↑vc = c :: rest)
    ∧ (y.good = true)
    ∧ (e = Edge.east → y.thru = false))
    ∧ (let s : State := (eb 0 3); let q : Fin 48 := 9; let e : Edge := .south; let vc : Fin 4 := 1; let err : LinkError := 7; let c : Copy := (ec 0); let rest : List Copy := [ec 0]; let y : Copy := c.hit err;
    (c.vc = ↑vc)
    ∧ (s.dev.clocked = true)
    ∧ (s.dev.ebuf (edgeNo e) ↑q ↑vc = c :: rest)
    ∧ (y.good = false))
    ∧ (let s : State := ((eb 1 1).wrs [(trk R.TRK_STATUS 3, 2^31)]); let row : Fin 48 := 9; let vc : Fin 4 := 1; let err : LinkError := 0; let c : Copy := (ec 1); let rest : List Copy := [ec 0]; let y : Copy := c.hit err;
    (c.vc = ↑vc)
    ∧ (s.dev.clocked = true)
    ∧ (s.dev.ebuf 1 ↑row ↑vc = c :: rest)
    ∧ (y.good = true)
    ∧ (y.thru = true)
    ∧ (s.dev.trunkUp s.nv y.trk = true)) := by decide +kernel

end Sys2Proof.Tests05

namespace Sys2Proof.Tests06

/-! ### Witnesses: stations, tables -/

abbrev B := State.reset
def rdy : State := B.wrs [(R.CLK_STATUS, 0xF), (R.CLK_STATUS, 0xF)]
def W0 : World := { World.init with live := true, started := true, step := 6, ext := 6, period := 100, stations := [0, 49], nextB := 1, policy := 0, stretchMax := 3, timer := 4, barrier := 77, bankEmpty := true, done := true, dueB := 0, cfg := 0x40, inputOpen := true }
def stw (f : World → World) (g : Dev → Dev := id) : State := rdy.mapDev fun d => g <| ({ d with worlds := [(5, f W0)], timers := [(4, {Timer.init with count := 1000})] }.setSW 0 R.STN_MOD_CFG 0x80000005#32).setSW 49 (R.STN_MOD_CFG+16) 0x80000005#32
def opS (t : Nat) (skip : Bool) : State := stw id fun d => d.updStn 0 fun s => {s with release := [(0, some (t, skip))]}
def swS (c : Nat) : State := stw id fun d => (d.setCursor 0 0 (some c)).setCursor 0 1 (some c)
def ec (thru : Nat) : Copy := mkCopy 0x0000000000500007#64 (2 + 8 * thru + 4 * thru + 16 * 3 * thru) 1
def ec9 : Copy := mkCopy 0x0000000000900007#64 (2) 1
def jbuf (p port : Nat) (c : Copy) : State := stw id fun d => (((d.setBuf p port 1 [c, c]).setSW p (R.STN_WORLD_STEP) 6).setSW p (R.STN_WORLD_STEP+4) 6 ).setSW p (jOff 3 + 8) 0x82000000#32
def emS : State := stw id fun d => d.updStn 49 fun s => {s with emit := [⟨3, ec 0, 0⟩]}
def arS (r : RowReq) : State := stw id fun d => d.updStn 49 fun s => {s with arb := [r]}
def rp : Reply := ⟨0xF10, 7, 0, none, 0, 0, 0⟩
def mdS (add : Bool) (cfg : Nat) (tag : Nat) : State := stw id fun d => ((d.updStn 49 fun s => {s with mods := [mkCopy (mkWord 0x500000#32 0x3F80 0 false true add) tag 0]}).setSW 49 (R.STN_WORLD_STEP+4) 6).setSW 49 (modCfg 1) (w32 (0x80000005 + cfg))
def sqS : State := stw id fun d => (((d.updStn 49 fun s => {s with quiet := [(1, some 70)]}).setSW 49 (R.STN_STR_DEST+4) 0x80010005#32).setSW 49 R.STN_STR_COLL (w32 (2^31 + 2^26 + 3))).setSW 49 (R.STN_STR_SPK + 24) 0x55
def opened1 (s : State) : State := s.mapDev fun d => d.updStn 49 fun s => { s with opened := s.opened.set noOcc 1 true }
def popK (n : Nat) : State := (swS n).mapDev fun d => (((d.setSW 0 0x60000 0x80001003#32).setSW 0 0x60004 0x00100000#32)).setSW 0 0x60008 0x00010001#32
def rowK : State := (swS 0).mapDev fun d => (((((((d.setSW 0 0x60000 0x80001003#32).setSW 0 0x60004 0x00100000#32).setSW 0 0x60008 0x00010001#32).updStn 0 fun s => {s with store := 1#32}).setSM 0 8 0x80000010#32).setSM 0 0x40 0x01000000#32).setSM 0 0x44 0xC1000020#32).setSM 0 0x48 0x00010000#32
def smS : State := stw id fun d => d.updStn 49 fun s => {s with samples := [{ec 0 with vc := 3}]}
def hu3 : State := (popK 3).mapDev fun d => d.updStn 0 fun s => {s with turns := 300, release := [(0, some (7,false))]}
def hu5 : State := rowK.mapDev fun d => d.updStn 0 fun s => {s with release := [(0, some (7,false))]}
def rowU : State := rowK.mapDev fun d => (d.setSM 0 0x44 0x80000020#32).updStn 0 fun s => {s with arb := [.event (mkCopy 0x500007#64 2 1) 0 0], turns := 300}

/-- `Obligations.StepsOpenAndSweep`, part 1. -/
theorem wit_OpeningPassOpens :
    (let s : State := hu3; let p : Fin 2304 := 0; let m : Fin 16 := 0; let t : Nat := 7; let skip : Bool := false;
    (s.fabricOn)
    ∧ (s.nv.enabled ↑p = true)
    ∧ (PMap.get (fun (x : Nat) => none) (s.dev.stn ↑p).release ↑m = some (t, skip))
    ∧ ((s.dev.slotWorld ↑p ↑m).isSome = true)
    ∧ (s.dev.sweepOwed ↑p = true))
    ∧ (let s : State := (opS 7 false); let p : Fin 2304 := 0; let m : Fin 16 := 0; let t : Nat := 7; let skip : Bool := false;
    (s.fabricOn)
    ∧ (s.nv.enabled ↑p = true)
    ∧ (PMap.get (fun (x : Nat) => none) (s.dev.stn ↑p).release ↑m = some (t, skip))
    ∧ ((s.dev.slotWorld ↑p ↑m).isSome = true)
    ∧ (s.dev.arbHolds ↑p ↑m = false)
    ∧ (skip = true ∨ PMap.get noNat (s.dev.stn ↑p).quiet ↑m = none)
    ∧ (∀ k < ↑m, s.dev.openDue s.nv (↑p) k = none)
    ∧ (s.dev.sweepOwed ↑p = false))
    ∧ (let s : State := ((opS 7 false).mapDev fun d => d.updStn 0 fun s => {s with arb := [.event (mkCopy 0x500007#64 2 1) 3 0]}); let p : Fin 2304 := 0; let m : Fin 16 := 0; let t : Nat := 7; let skip : Bool := false;
    (s.fabricOn)
    ∧ (s.nv.enabled ↑p = true)
    ∧ (PMap.get (fun (x : Nat) => none) (s.dev.stn ↑p).release ↑m = some (t, skip))
    ∧ ((s.dev.slotWorld ↑p ↑m).isSome = true)
    ∧ (s.dev.arbHolds ↑p ↑m = true))
    ∧ (let s : State := ((opS 7 false).mapDev fun d => (d.updStn 0 fun s => {s with release := [(0, some (7, false)), (1, some (7, false))]}).setSW 0 (R.STN_MOD_CFG+16) 0x80000005#32); let p : Fin 2304 := 0; let m : Fin 16 := 1; let t : Nat := 7; let skip : Bool := false;
    (s.fabricOn)
    ∧ (s.nv.enabled ↑p = true)
    ∧ (PMap.get (fun (x : Nat) => none) (s.dev.stn ↑p).release ↑m = some (t, skip))
    ∧ ((s.dev.slotWorld ↑p ↑m).isSome = true)
    ∧ (∃ k < ↑m, (s.dev.openDue s.nv (↑p) k).isSome = true)) := by decide +kernel

/-- `Obligations.StepsOpenAndSweep`, part 2. -/
theorem wit_SweepsAdvance :
    (let s : State := hu5; let p : Fin 2304 := 0; let m : Fin 16 := 0; let c : Nat := 0; let n : Nat := 0; let a : Nat := 16; let t : Nat := s.dev.slotStep ↑p ↑m; let cost : Nat := (s.dev.sweepNeuron (↑p) t n).turns ↑p - s.dev.turns ↑p;
    (s.fabricOn)
    ∧ (s.nv.enabled ↑p = true)
    ∧ (s.dev.sweeps ↑p ↑m = true)
    ∧ (s.dev.cursor (↑p) (2 * ↑m) = some c)
    ∧ (List.find? (fun (n : Nat) => decide (c ≤ n)) (s.dev.slotsOf ↑p ↑m) = some n)
    ∧ (s.dev.engineWaits s.nv ↑p = true)
    ∧ (s.dev.turns ↑p < 15 * max 1 cost)
    ∧ (s.dev.cursor (↑p) (2 * ↑m + 1) = some c)
    ∧ ((s.dev.slotRows ↑p ↑m)[c]? = some a)
    ∧ (s.dev.turns ↑p < 15))
    ∧ (let s : State := rowK; let p : Fin 2304 := 0; let m : Fin 16 := 0; let c : Nat := 0; let n : Nat := 0; let a : Nat := 16; let t : Nat := s.dev.slotStep ↑p ↑m; let cost : Nat := (s.dev.sweepNeuron (↑p) t n).turns ↑p - s.dev.turns ↑p;
    (s.fabricOn)
    ∧ (s.nv.enabled ↑p = true)
    ∧ (s.dev.sweeps ↑p ↑m = true)
    ∧ (s.dev.cursor (↑p) (2 * ↑m) = some c)
    ∧ (List.find? (fun (n : Nat) => decide (c ≤ n)) (s.dev.slotsOf ↑p ↑m) = some n)
    ∧ (s.dev.engineWaits s.nv ↑p = false ∨ 15 * max 1 cost ≤ s.dev.turns ↑p)
    ∧ (s.dev.cursor (↑p) (2 * ↑m + 1) = some c)
    ∧ ((s.dev.slotRows ↑p ↑m)[c]? = some a)
    ∧ (s.dev.engineWaits s.nv ↑p = false ∨ 15 ≤ s.dev.turns ↑p)) := by decide +kernel

/-- `Obligations.CopiesReachRowArbiter`, part 1. -/
theorem wit_JunctionsMoveCopies :
    (let s : State := emS; let p : Fin 2304 := 49; let vc : Fin 4 := 1; let pre : List Emission := []; let e : Emission := { slot := 3, copy := ec 0, wslot := 0 }; let post : List Emission := [];
    (s.fabricOn)
    ∧ (s.nv.enabled ↑p = true)
    ∧ ((s.dev.stn ↑p).emit = pre ++ e :: post)
    ∧ (∀ q ∈ pre, q.copy.vc ≠ ↑vc)
    ∧ (e.copy.vc = ↑vc)
    ∧ (↑vc ≠ 3)
    ∧ ((s.dev.buf (↑p) 4 ↑vc).length < 4))
    ∧ (let s : State := smS; let p : Fin 2304 := 49; let vc : Fin 4 := 3; let y : Copy := let __src := ec 0; { word := __src.word, tag := __src.tag, vc := 3, left := __src.left }; let ys : List Copy := [];
    (s.fabricOn)
    ∧ (s.nv.enabled ↑p = true)
    ∧ (↑vc = 3)
    ∧ ((s.dev.stn ↑p).samples = y :: ys)
    ∧ (y.vc = 3)
    ∧ ((s.dev.buf (↑p) 4 3).length < 4))
    ∧ (let s : State := (jbuf 49 3 ec9); let p : Fin 2304 := 49; let port : Port := .w; let o : Port := .e; let vc : Fin 4 := 1; let err : LinkError := 0; let c : Copy := ec9; let rest : List Copy := [ec9]; let y : Copy := if port = Port.l then c else c.hit err; let j : Nat := 3; let q : Nat := 50; let pt : Nat := 3;
    (s.fabricOn)
    ∧ (s.nv.enabled ↑p = true)
    ∧ (s.dev.buf (↑p) port.idx ↑vc = c :: rest)
    ∧ (c.left = none)
    ∧ (c.vc = ↑vc)
    ∧ (∀ k < 8, (s.dev.trunk k).inX = [])
    ∧ (y.good = true)
    ∧ (y.thru = false)
    ∧ (s.dev.slotOf (↑p) y.world = none)
    ∧ (s.dev.jFind (↑p) y false = some j)
    ∧ (portsOf (s.dev.sW (↑p) (jOff j + 8)) = [o])
    ∧ (o ≠ port)
    ∧ (outPlace (↑p) o = Place1.stn q pt)
    ∧ (pt < 4)
    ∧ (s.dev.wins (↑p) o port.idx y 0 = true))
    ∧ (let s : State := (jbuf 49 3 (ec 0)); let p : Fin 2304 := 49; let port : Port := .w; let vc : Fin 4 := 1; let err : LinkError := 5; let c : Copy := (ec 0); let rest : List Copy := [ec 0]; let y : Copy := if port = Port.l then c else c.hit err;
    (s.fabricOn)
    ∧ (s.nv.enabled ↑p = true)
    ∧ (s.dev.buf (↑p) port.idx ↑vc = c :: rest)
    ∧ (c.left = none)
    ∧ (c.vc = ↑vc)
    ∧ (∀ k < 8, (s.dev.trunk k).inX = [])
    ∧ (y.good = false))
    ∧ (let s : State := (jbuf 49 3 (ec 0)); let p : Fin 2304 := 49; let port : Port := .w; let vc : Fin 4 := 1; let err : LinkError := 0; let c : Copy := (ec 0); let rest : List Copy := [ec 0]; let y : Copy := if port = Port.l then c else c.hit err; let m : Nat := 1;
    (s.fabricOn)
    ∧ (s.nv.enabled ↑p = true)
    ∧ (s.dev.buf (↑p) port.idx ↑vc = c :: rest)
    ∧ (c.left = none)
    ∧ (c.vc = ↑vc)
    ∧ (∀ k < 8, (s.dev.trunk k).inX = [])
    ∧ (y.good = true)
    ∧ (y.thru = false)
    ∧ (s.dev.slotOf (↑p) y.world = some m)
    ∧ (if s.dev.unopened (↑p) m = true then y.stepTag = s.dev.slotStep (↑p) m % 4 else y.stepTag = (s.dev.slotStep (↑p) m + 1) % 4))
    ∧ (let s : State := ((opened1 (jbuf 49 3 (ec 0))).mapDev fun d => d.setSW 49 (jOff 3 + 8) 0x90000000#32); let p : Fin 2304 := 49; let port : Port := .w; let vc : Fin 4 := 1; let err : LinkError := 0; let c : Copy := (ec 0); let rest : List Copy := [ec 0]; let y : Copy := if port = Port.l then c else c.hit err; let j : Nat := 3; let m : Nat := 1; let dir : Nat := fld (s.dev.sW (↑p) (jOff j + 8)) 0 15 + fld (y.key &&& ~~~s.dev.sW (↑p) (jOff j + 4)) 0 12;
    (s.fabricOn)
    ∧ (s.nv.enabled ↑p = true)
    ∧ (s.dev.buf (↑p) port.idx ↑vc = c :: rest)
    ∧ (c.left = none)
    ∧ (c.vc = ↑vc)
    ∧ (∀ k < 8, (s.dev.trunk k).inX = [])
    ∧ (y.good = true)
    ∧ (y.thru = false)
    ∧ (y.isMod = false)
    ∧ (↑vc = 1 ∨ ↑vc = 2)
    ∧ (s.dev.slotOf (↑p) y.world = some m)
    ∧ (s.dev.unopened (↑p) m = false)
    ∧ (y.stepTag = s.dev.slotStep (↑p) m % 4)
    ∧ (s.dev.jFind (↑p) y false = some j)
    ∧ (portsOf (s.dev.sW (↑p) (jOff j + 8)) = [Port.l])
    ∧ (s.dev.collector (↑p) y = none)
    ∧ (s.dev.wins (↑p) Port.l port.idx y dir = true)) := by decide +kernel

/-- `Obligations.CopiesReachRowArbiter`, part 2. -/
theorem wit_ArbiterServesHead :
    (let s : State := (arS (.event (ec 0) 3 1)); let p : Fin 2304 := 49; let rest : List RowReq := []; let c : Copy := ec 0; let dir : Nat := 3; let m : Nat := 1;
    (s.fabricOn)
    ∧ (s.dev.headUpdates ↑p = false ∨ s.dev.openFirst s.nv ↑p = none ∧ s.dev.sweepOwed ↑p = false)
    ∧ ((s.dev.stn ↑p).arb = RowReq.event c dir m :: rest)
    ∧ (s.dev.dirRow (↑p) dir = none)
    ∧ (m < 16))
    ∧ (let s : State := rowU; let p : Fin 2304 := 0;
    (s.fabricOn)
    ∧ (s.dev.headUpdates ↑p = true)
    ∧ ((s.dev.openFirst s.nv ↑p).isSome = true ∨ s.dev.sweepOwed ↑p = true))
    ∧ (let s : State := (arS (.page (List.replicate 32 1) 0 rp)); let p : Fin 2304 := 49; let rest : List RowReq := []; let desc : List Byte := List.replicate 32 1; let slot : Nat := 0; let r : Reply := rp;
    (s.fabricOn)
    ∧ ((s.dev.stn ↑p).arb = RowReq.page desc slot r :: rest))
    ∧ (let s : State := (arS (.write 0x100 [1,2,3,4] (some rp))); let p : Fin 2304 := 49; let rest : List RowReq := []; let off : Nat := 256; let bs : List Byte := [1, 2, 3, 4]; let r : Reply := rp;
    (s.fabricOn)
    ∧ ((s.dev.stn ↑p).arb = RowReq.write off bs (some r) :: rest)
    ∧ (off + bs.length ≤ 262144)) := by decide +kernel

/-- `Obligations.ModulatorsAndSummaries`, part 1. -/
theorem wit_ModulatorTakesEffect :
    (let s : State := (mdS false 0 2); let p : Fin 2304 := 49; let c : Copy := (mkCopy (mkWord 0x500000#32 0x3F80 0 false true false) 2 0); let rest : List Copy := []; let m : Nat := 1; let cfg : Word := s.dev.sW (↑p) (modCfg m);
    (s.fabricOn)
    ∧ ((s.dev.stn ↑p).mods = c :: rest)
    ∧ (s.dev.slotOf (↑p) c.world = some m)
    ∧ (m < 16)
    ∧ (c.stepTag = s.dev.slotStep (↑p) m % 4)
    ∧ ((fb16 c.payload).isNan = false)
    ∧ (c.modAdd = false)
    ∧ (bit cfg 30 = false))
    ∧ (let s : State := (mdS false 0 3); let p : Fin 2304 := 49; let c : Copy := (mkCopy (mkWord 0x500000#32 0x3F80 0 false true false) 3 0); let rest : List Copy := []; let m : Nat := 1;
    (s.fabricOn)
    ∧ ((s.dev.stn ↑p).mods = c :: rest)
    ∧ (s.dev.slotOf (↑p) c.world = some m)
    ∧ (m < 16)
    ∧ (c.stepTag ≠ s.dev.slotStep (↑p) m % 4))
    ∧ (let s : State := (mdS false (2^30) 2); let p : Fin 2304 := 49; let c : Copy := (mkCopy (mkWord 0x500000#32 0x3F80 0 false true false) 2 0); let rest : List Copy := []; let m : Nat := 1; let cfg : Word := s.dev.sW (↑p) (modCfg m);
    (s.fabricOn)
    ∧ ((s.dev.stn ↑p).mods = c :: rest)
    ∧ (s.dev.slotOf (↑p) c.world = some m)
    ∧ (m < 16)
    ∧ (c.stepTag = s.dev.slotStep (↑p) m % 4)
    ∧ ((fb16 c.payload).isNan = false)
    ∧ (c.modAdd = false)
    ∧ (bit cfg 30 = true)) := by decide +kernel

/-- `Obligations.ModulatorsAndSummaries`, part 2. -/
theorem wit_StepQuietSummarises :
    (let s : State := sqS; let p : Fin 2304 := 49; let m : Fin 16 := 1; let ext : Nat := 70;
    (s.fabricOn)
    ∧ (s.nv.enabled ↑p = true)
    ∧ (PMap.get noNat (s.dev.stn ↑p).quiet ↑m = some ext)) := by decide +kernel

/-- `Obligations.JunctionAndEdgeEntriesCommit`, part 1. -/
theorem wit_JunctionEntriesCommit :
    (let s : State := (stw id); let m : Master := .transport; let r : Fin 2304 := 49; let p : Fin 2304 := 49; let j : Fin 1024 := 3; let hi : Bool := true; let v : Word := 0x82345678; let st : Nat × Option Word × Option Word := PMap.get noStage (s.dev.stn ↑p).staged m.idx; let mine : Option Word × Option Word := if st.1 = ↑j then st.2 else (none, none); let v8 : Word := v &&& w32 (tableMask 425992); let old : Match := s.dev.jMatch ↑p ↑j; let new : Match := { valid := bit v8 31, key := mine.1.getD old.key, mask := mine.2.getD old.mask, mod := bit v8 29 }; let bad : Bool := s.dev.collides old new || s.dev.badTransit (↑p) new v8;
    (s.dev.posOfRank ↑r = some ↑p)
    ∧ (s.opens m true (winAddr (↑r) (jOff ↑j + if hi = true then 4 else 0)))
    ∧ (s.opens m true (winAddr (↑r) (jOff ↑j + 8)))
    ∧ (bad = true))
    ∧ (let s : State := (stw fun x => {x with held := true}); let m : Master := .transport; let r : Fin 2304 := 49; let p : Fin 2304 := 49; let j : Fin 1024 := 3; let v : Word := 0x12345678; let st : Nat × Option Word × Option Word := PMap.get noStage (s.dev.stn ↑p).staged m.idx; let mine : Option Word × Option Word := if st.1 = ↑j then st.2 else (none, none); let v8 : Word := v &&& w32 (tableMask 425992); let old : Match := s.dev.jMatch ↑p ↑j; let new : Match := { valid := bit v8 31, key := mine.1.getD old.key, mask := mine.2.getD old.mask, mod := bit v8 29 }; let bad : Bool := s.dev.collides old new || s.dev.badTransit (↑p) new v8;
    (s.dev.posOfRank ↑r = some ↑p)
    ∧ (s.opens m true (winAddr (↑r) (jOff ↑j + 8)))
    ∧ (bad = false)) := by decide +kernel

/-- `Obligations.StationTablesChecked`. -/
theorem wit_StationTablesChecked :
    (let s : State := (stw id); let m : Master := .transport; let r : Fin 2304 := 49; let p : Fin 2304 := 49; let k : Fin 256 := 3; let i : Fin 8 := 5; let q : Fin 16 := 1; let v : Word := 0x80000006; let a : Nat := 393216 + 32 * ↑k + 4 * ↑i; let new : Dev := s.dev.putTable (↑p) a v; let c : Word := v &&& w32 (tableMask (modCfg ↑q)); let old : Word := s.dev.sW (↑p) (modCfg ↑q);
    (s.dev.posOfRank ↑r = some ↑p)
    ∧ (s.opens m true (winAddr (↑r) a))
    ∧ (s.dev.ownerBusy (↑p) (s.dev.pop ↑p ↑k) = false)
    ∧ (s.dev.ownerBusy (↑p) (new.pop ↑p ↑k) = false)
    ∧ (new.descOk ↑p ↑k = true)
    ∧ (s.opens m true (winAddr (↑r) (modCfg ↑q)))
    ∧ (bit old 31 = true)
    ∧ (s.dev.active (fld old 0 12) = true)
    ∧ (¬(bit old 31 = bit c 31 ∧ fld old 0 12 = fld c 0 12))
    ∧ (s.opens m true (winAddr (↑r) (modValue ↑q))))
    ∧ (let s : State := (stw (fun x => {x with held := true})); let m : Master := .transport; let r : Fin 2304 := 49; let p : Fin 2304 := 49; let k : Fin 256 := 3; let i : Fin 8 := 0; let q : Fin 16 := 1; let v : Word := 0x80000005; let a : Nat := 393216 + 32 * ↑k + 4 * ↑i; let new : Dev := s.dev.putTable (↑p) a v; let c : Word := v &&& w32 (tableMask (modCfg ↑q)); let old : Word := s.dev.sW (↑p) (modCfg ↑q);
    (s.dev.posOfRank ↑r = some ↑p)
    ∧ (s.opens m true (winAddr (↑r) a))
    ∧ (s.dev.ownerBusy (↑p) (s.dev.pop ↑p ↑k) = true ∨ new.descOk ↑p ↑k = false)
    ∧ (s.opens m true (winAddr (↑r) (modCfg ↑q)))
    ∧ (bit old 31 = bit c 31 ∧ fld old 0 12 = fld c 0 12)
    ∧ (bit c 31 = true → ¬∃ (k : Fin 16), k ≠ q ∧ s.dev.slotWorld ↑p ↑k = some (fld c 0 12)))
    ∧ (let s : State := (stw (fun x => {x with held := true})); let m : Master := .transport; let r : Fin 2304 := 49; let p : Fin 2304 := 49; let k : Fin 256 := 3; let q : Fin 16 := 2; let v : Word := 0x80000005; let c : Word := v &&& w32 (tableMask (modCfg ↑q));
    (s.dev.posOfRank ↑r = some ↑p)
    ∧ (s.opens m true (winAddr (↑r) (modCfg ↑q)))
    ∧ (bit c 31 = true)
    ∧ (∃ (k : Fin 16), k ≠ q ∧ s.dev.slotWorld ↑p ↑k = some (fld c 0 12))) := by decide +kernel

/-- `Obligations.JunctionAndEdgeEntriesCommit`, part 2. -/
theorem wit_EdgeEntriesCommit :
    (let s : State := (stw id); let m : Master := .transport;
    (s.opens m true R.XCH_EDGE_IDX)) := by decide +kernel

end Sys2Proof.Tests06

namespace Sys2Proof.Tests07

/-! ### Witnesses: streaming, Freight, quantiser and projection, coding channels -/

abbrev B := State.reset
def rdy : State := B.wrs [(R.CLK_STATUS, 0xF), (R.CLK_STATUS, 0xF)]
def gd (f : Dev → Dev) : State := (rdy.wrs [(R.DRM_STATUS, 0x100)]).mapDev f
def dirS (f : Streamer → Streamer) (g : Dev → Dev := id) : State := gd fun d => g (d.updStreamer 3 fun s => f {s with table := [(5, [0x80010002#32, 0x0001E003#32, 0x10#32, 0#32])]})
def sp (i : Nat) : Packet := mkPacket pSummary 0 0 0xF03 0 0 (i * 4096 + 5) 0 0 (leBytes 8 0x8001 ++ leBytes 8 0x123456789ABCDEF0 ++ leBytes 8 0xFF) none
def wk (x : Walk) (f : Streamer → Streamer := id) : State := dirS fun s => f {s with walks := [(5, some x)]}
def memW (s : State) (a : Nat) (ws : List Word) : State := { s with mem := { s.mem with gddr := (ws.flatMap wordBytes).zipIdx.map fun q => (a + q.2, q.1) } }
def rq : PageReq := ⟨3, 5, 1, 0, 0, 7, 1⟩
def rd1 (a : Nat) (re : Bool := false) : PageRead := ⟨3, [rq], a, 0, re⟩
def pk (ph ix iy dx dy ex p : Nat) : Packet := { mkPacket 1 0 0 5 0 0 0 0 0 [] none with phase := ph, ix := ix, iy := iy, dx := dx, dy := dy, exit := ex, at_ := some p }
def pS (k : Packet) : State := rdy.mapDev fun d => {d with packets := [k]}
def pt (ph ix iy dx dy ex : Nat) : Packet := { pk ph ix iy dx dy ex 100 with trail := [(freightIn 100 4 ph, 1)] }
def p2 (k b : Packet) : State := rdy.mapDev fun d => { d with packets := [k, b] }
def zOf (k : Packet) : Nat := ((k.wants).map (·.2)).getD 0
def fill (k : Packet) : Packet := { pk 1 5 6 7 8 0 100 with trail := [(zOf k, 7)] }
def rk (typ a n : Nat) (data : List Byte) : Packet := { mkPacket typ 2 0xF10 100 77 0 (stationBase + 100 * 2^20 + a) 0 n data none with dx := 4, dy := 2 }
def e0 : PacketError := ⟨false, false, false⟩
def jb : HostJob := ⟨9, true, false, 4, 1, [], 0, 2⟩
def tx (typ : Nat) : Txn := ⟨⟨epHost, typ, 100, 0, 0, 0, [1,2,3,4], .host 9, 0, none⟩, 77, 2, 0⟩
def rs (typ st : Nat) : Packet := { mkPacket typ 2 100 epHost 77 st 0 0 0 [] none with at_ := none }
def tS (k : Packet) (t : Nat) : State := rdy.mapDev fun d => {d with packets := [k], txns := [tx t], link := {d.link with jobs := [jb]}}
def dOk : DramEnd := ⟨true, false, 0, 0⟩
def gk (typ n : Nat) (data : List Byte) : Packet := mkPacket typ 0 0xF10 0xF03 77 0 (gddrBase + 0x3000) 0 n data none
def pl (sh fmt : Nat) : State := rdy.wrs [(prjReg R.QNT_PRJ_SHAPE 1, sh), (prjReg R.QNT_PRJ_FMT 1, fmt)]
def mx : Matrix := {Matrix.init with k := 1, m := 1, wfmt := 4, ifmt := 4, scaleKind := 0}
def pb (st g : Nat) (res : Option (List (List Word))) : State := (pl 0 0x44000000).wrs [(prjReg R.QNT_PRJ_STATUS 1, st)] |>.mapDev fun d => d.setPrj 1 {Prj.init with grant := g, matrix := {mx with codes := [5], groups := [0x3C00#32], sums := [5]}, queue := [⟨[⟨3,0,0,0,0,5,0,[0x3F800000#32]⟩], 0, res⟩]}
def bt (res : Option (List (List Word))) : Batch := ⟨[⟨3,0,0,0,0,5,0,[0x3F800000#32]⟩], 0, res⟩
def wq (sums : List Nat) : State := dirS fun s => {s with quiet := [(5, some (9, 4))], grant := 2, sums := [(5, sums)]}
def x0 : Walk := ⟨9, 0x100, 4, 1, 0, []⟩
def rqK : PageReq := { page := 3, world := 5, tag := 1, tpop := 0, tbase := 0, rank := 0, mask := 0 }
def xM : Walk := ⟨9, 0x100, 4, 1, 0, [0]⟩
def ptE : Packet := { pk 1 4 0 4 0 1 4 with trail := [(freightIn 4 4 1, 1)] }
def fillE : Packet := { pk 1 5 6 7 8 0 100 with trail := [(freightOut 4 1, 7)] }

/-- `Obligations.StreamedPagesArrive`, part 1. -/
theorem wit_SummariesStoredOnce :
    (let s : State := (dirS fun s => {s with inbox := [sp 2]}); let k : Fin 12 := 3; let q : Packet := (sp 2); let rest : List Packet := []; let w : Nat := q.addr % 4096; let i : Nat := q.addr / 4096 % 4096; let at_ : Nat := s.dev.dirAct (↑k) w + 65 * i;
    (s.runs 1 ↑k)
    ∧ (s.nv.streamerOn ↑k = true)
    ∧ ((s.dev.streamer ↑k).inbox = q :: rest)
    ∧ (bit (s.dev.dirWord (↑k) w 0) 31 = true ∧ i < s.dev.dirNsrc (↑k) w ∧ at_ + 64 ≤ 131071 ∧ (s.dev.sumsOf (↑k) w).contains i = false))
    ∧ (let s : State := (dirS fun s => {s with inbox := [sp 3]}); let k : Fin 12 := 3; let q : Packet := (sp 3); let rest : List Packet := []; let w : Nat := q.addr % 4096; let i : Nat := q.addr / 4096 % 4096; let at_ : Nat := s.dev.dirAct (↑k) w + 65 * i;
    (s.runs 1 ↑k)
    ∧ (s.nv.streamerOn ↑k = true)
    ∧ ((s.dev.streamer ↑k).inbox = q :: rest)
    ∧ (¬(bit (s.dev.dirWord (↑k) w 0) 31 = true ∧ i < s.dev.dirNsrc (↑k) w ∧ at_ + 64 ≤ 131071 ∧ (s.dev.sumsOf (↑k) w).contains i = false))) := by decide +kernel

/-- `Obligations.StreamedPagesArrive`, part 2. -/
theorem wit_WalksRunTheirConsist :
    (let s : State := (memW (wk xM (fun s => {s with act := [(30, 1)]})) 0x110 [3, 0, 0, 0]); let k : Fin 12 := 3; let w : Fin 4096 := 5; let x : Walk := xM;
    (s.runs 1 ↑k)
    ∧ (s.nv.streamerOn ↑k = true)
    ∧ (s.dev.walk ↑k ↑w = some x)
    ∧ (s.dev.walkTurn ↑k = some ↑w)
    ∧ (s.dev.walkEntryKind s.nv s.mem (↑k) (↑w) x = EntryKind.gated)
    ∧ (s.dev.walkEntryKind s.nv s.mem (↑k) (↑w) x ≠ EntryKind.foreign)
    ∧ (fld (s.mem.gddrWord (x.base + 16 * x.next + 4)) 16 12 ∈ x.missing))
    ∧ (let s : State := (memW (wk x0 (fun s => {s with abandon := [(5, 9)]})) 0x110 [4, 0, 0, 0]); let k : Fin 12 := 3; let w : Fin 4096 := 5; let x : Walk := x0; let y : Streamer := s.dev.streamer ↑k;
    (s.runs 1 ↑k)
    ∧ (s.nv.streamerOn ↑k = true)
    ∧ (s.dev.walk ↑k ↑w = some x)
    ∧ (s.dev.walkTurn ↑k = some ↑w)
    ∧ (s.dev.walkEntryKind s.nv s.mem (↑k) (↑w) x = EntryKind.foreign)
    ∧ (List.find? (fun (q : Nat × Nat) => q.1 == ↑w) y.abandon = some (↑w, x.step))
    ∧ (PMap.get noExt y.ended ↑w ≠ some x.step)
    ∧ (y.reads = [])
    ∧ (x.next ≤ x.len))
    ∧ (let s : State := (wq [1]); let k : Fin 12 := 3; let w : Fin 4096 := 5; let y : Streamer := s.dev.streamer ↑k; let missing : Nat := s.dev.dirNsum ↑k ↑w - (s.dev.sumsOf ↑k ↑w).length; let ext : Nat := 9; let t : Nat := 4;
    (s.runs 1 ↑k)
    ∧ (s.nv.streamerOn ↑k = true)
    ∧ (PMap.get noQuiet y.quiet ↑w = some (ext, t))
    ∧ (s.dev.walk ↑k ↑w = none)
    ∧ (y.abandon.contains (↑w, ext) = false)
    ∧ (y.grant = 2)
    ∧ (0 < missing))
    ∧ (let s : State := (wq [0,1]); let k : Fin 12 := 3; let w : Fin 4096 := 5; let y : Streamer := s.dev.streamer ↑k; let missing : Nat := s.dev.dirNsum ↑k ↑w - (s.dev.sumsOf ↑k ↑w).length; let ext : Nat := 9; let t : Nat := 4;
    (s.runs 1 ↑k)
    ∧ (s.nv.streamerOn ↑k = true)
    ∧ (PMap.get noQuiet y.quiet ↑w = some (ext, t))
    ∧ (s.dev.walk ↑k ↑w = none)
    ∧ (y.abandon.contains (↑w, ext) = false)
    ∧ (y.grant = 2)
    ∧ (missing = 0))
    ∧ (let s : State := (wk ⟨9, 0x100, 4, 4, 0, []⟩); let k : Fin 12 := 3; let w : Fin 4096 := 5; let x : Walk := { step := 9, base := 256, len := 4, next := 4, since := 0, missing := [] };
    (s.runs 1 ↑k)
    ∧ (s.nv.streamerOn ↑k = true)
    ∧ (s.dev.walk ↑k ↑w = some x)
    ∧ (x.len ≤ x.next)
    ∧ (s.dev.streamBusy ↑k ↑w = false))
    ∧ (let s : State := (dirS fun s => {s with abandon := [(5, 9)], ended := [(5, some 9)]}); let k : Fin 12 := 3; let w : Fin 4096 := 5; let y : Streamer := s.dev.streamer ↑k; let ext : Nat := 9;
    (s.runs 1 ↑k)
    ∧ (s.nv.streamerOn ↑k = true)
    ∧ (List.find? (fun (q : Nat × Nat) => q.1 == ↑w) y.abandon = some (↑w, ext))
    ∧ (PMap.get noExt y.ended ↑w = some ext))
    ∧ (let s : State := (memW (wk x0 (fun s => {s with act := [(30, 1)]})) 0x110 [3, 0, 0, 0]); let k : Fin 12 := 3; let w : Fin 4096 := 5; let y : Streamer := s.dev.streamer ↑k; let x : Walk := x0; let q : PageReq := rqK;
    (s.runs 1 ↑k)
    ∧ (s.nv.streamerOn ↑k = true)
    ∧ (s.dev.walk ↑k ↑w = some x)
    ∧ (s.dev.walkTurn ↑k = some ↑w)
    ∧ (s.dev.walkEntryKind s.nv s.mem (↑k) (↑w) x = EntryKind.request q)
    ∧ (y.reads = [])) := by decide +kernel

/-- `Obligations.StreamedPagesArrive`, part 3. -/
theorem wit_PagesReadAndDelivered :
    (let s : State := (dirS fun s => {s with grant := 2}); let k : Fin 12 := 3; let y : Streamer := s.dev.streamer ↑k;
    (s.runs 1 ↑k)
    ∧ (s.nv.streamerOn ↑k = true)
    ∧ (y.grant = 2)
    ∧ (s.dev.streamIdle ↑k = true))
    ∧ (let s : State := (dirS fun s => {s with out := [(rq, [1,2])]}); let k : Fin 12 := 3; let y : Streamer := s.dev.streamer ↑k; let q : PageReq := rq; let bs : List Byte := [1, 2]; let more : List (PageReq × List Byte) := [];
    (s.runs 1 ↑k)
    ∧ (s.nv.streamerOn ↑k = true)
    ∧ (y.out = (q, bs) :: more)
    ∧ (s.dev.slotsHeld (epStreamer ↑k) < 2048))
    ∧ (let s : State := (dirS fun s => {s with reads := [rd1 70, rd1 80]}); let k : Fin 12 := 3; let r : PageRead := (rd1 70); let rest : List PageRead := [rd1 80]; let y : Streamer := s.dev.streamer ↑k;
    (s.runs 1 ↑k)
    ∧ (s.nv.streamerOn ↑k = true)
    ∧ (y.reads = r :: rest)
    ∧ (64 ≤ r.after ∨ ∀ x ∈ rest, x.after < 64))
    ∧ (let s : State := (dirS fun s => {s with dram := [rd1 70, rd1 80], grant := 2}); let k : Fin 12 := 3; let r : PageRead := (rd1 70); let rest : List PageRead := [rd1 80]; let y : Streamer := s.dev.streamer ↑k; let e : DramEnd := dOk;
    (s.runs 1 ↑k)
    ∧ (s.nv.streamerOn ↑k = true)
    ∧ (y.dram = r :: rest)
    ∧ (y.grant = 2)
    ∧ (e.ok = true)
    ∧ (r.reread = false))
    ∧ (let s : State := (dirS fun s => {s with dram := [rd1 70 true, rd1 80], grant := 2}); let k : Fin 12 := 3; let r : PageRead := (rd1 70 true); let rest : List PageRead := [rd1 80]; let y : Streamer := s.dev.streamer ↑k; let e : DramEnd := dOk;
    (s.runs 1 ↑k)
    ∧ (s.nv.streamerOn ↑k = true)
    ∧ (y.dram = r :: rest)
    ∧ (y.grant = 2)
    ∧ (e.ok = true)
    ∧ (r.reread = true))
    ∧ (let s : State := (dirS fun s => {s with dram := [rd1 70 true, rd1 80], grant := 2}); let k : Fin 12 := 3; let r : PageRead := (rd1 70 true); let rest : List PageRead := [rd1 80]; let y : Streamer := s.dev.streamer ↑k; let e : DramEnd := { ok := false, odd := true, fixed0 := 1, fixed1 := 2 };
    (s.runs 1 ↑k)
    ∧ (s.nv.streamerOn ↑k = true)
    ∧ (y.dram = r :: rest)
    ∧ (y.grant = 2)
    ∧ (e.ok = false)) := by decide +kernel

/-- `Obligations.FreightReachesStations`, part 1. -/
theorem wit_FreightHopsToward :
    (let s : State := (pS ptE); let i : Nat := 0; let k : Packet := ptE; let p : Fin 2304 := 4; let x : Nat := ↑p % 48; let y : Nat := ↑p / 48; let x0 : Nat := freightIn 4 4 1; let c0 : Nat := 1; let more : List (Nat × Nat) := [];
    (s.fabricOn)
    ∧ (s.dev.packets[i]? = some k)
    ∧ (k.at_ = some ↑p)
    ∧ (k.trail = (x0, c0) :: more)
    ∧ (k.ix < 48 ∧ k.iy < 48 ∧ k.dx < 48 ∧ k.dy < 48)
    ∧ ((x, y) = (k.dx, k.dy))
    ∧ (k.phase = 1)
    ∧ (k.exit = 0 ∨ k.exit = 1 ∧ y = 0 ∨ k.exit = 2 ∧ y = 47 ∨ k.exit = 3 ∧ x = 0 ∨ k.exit = 4 ∧ x = 47)
    ∧ (s.dev.linkServes i k (freightOut (↑p) k.exit) = true))
    ∧ (let s : State := (p2 ptE fillE); let i : Nat := 0; let k : Packet := ptE; let p : Fin 2304 := 4; let x : Nat := ↑p % 48; let y : Nat := ↑p / 48; let x0 : Nat := freightIn 4 4 1; let c0 : Nat := 1; let more : List (Nat × Nat) := [];
    (s.fabricOn)
    ∧ (s.dev.packets[i]? = some k)
    ∧ (k.at_ = some ↑p)
    ∧ (k.trail = (x0, c0) :: more)
    ∧ (k.ix < 48 ∧ k.iy < 48 ∧ k.dx < 48 ∧ k.dy < 48)
    ∧ ((x, y) = (k.dx, k.dy))
    ∧ (k.phase = 1)
    ∧ (k.exit = 0 ∨ k.exit = 1 ∧ y = 0 ∨ k.exit = 2 ∧ y = 47 ∨ k.exit = 3 ∧ x = 0 ∨ k.exit = 4 ∧ x = 47)
    ∧ (k.exit ≠ 0)
    ∧ (s.dev.placesFor (isResponse k.typ) (freightOut (↑p) k.exit) = 0))
    ∧ (let s : State := (pS (pt 0 5 6 7 8 0)); let i : Nat := 0; let k : Packet := (pt 0 5 6 7 8 0); let p : Fin 2304 := 100; let x : Nat := ↑p % 48; let y : Nat := ↑p / 48; let x0 : Nat := freightIn 100 4 0; let c0 : Nat := 1; let more : List (Nat × Nat) := []; let z : Nat := freightIn (posOf (x + 1) y) (portFrom (↑p) (posOf (x + 1) y)) 0;
    (s.fabricOn)
    ∧ (s.dev.packets[i]? = some k)
    ∧ (k.at_ = some ↑p)
    ∧ (k.trail = (x0, c0) :: more)
    ∧ (k.ix < 48 ∧ k.iy < 48 ∧ k.dx < 48 ∧ k.dy < 48)
    ∧ (k.phase = 0)
    ∧ ((x, y) = (k.dx, k.dy) → k.exit = 0 ∨ k.exit = 1 ∧ y = 0 ∨ k.exit = 2 ∧ y = 47 ∨ k.exit = 3 ∧ x = 0 ∨ k.exit = 4 ∧ x = 47)
    ∧ (x < k.ix)
    ∧ (s.dev.linkServes i k z = true))
    ∧ (let s : State := (pS (pt 0 2 2 7 8 0)); let i : Nat := 0; let k : Packet := (pt 0 2 2 7 8 0); let p : Fin 2304 := 100; let x : Nat := ↑p % 48; let y : Nat := ↑p / 48; let x0 : Nat := freightIn 100 4 0; let c0 : Nat := 1; let more : List (Nat × Nat) := []; let z : Nat := freightIn (posOf (x - 1) y) (portFrom (↑p) (posOf (x - 1) y)) 0;
    (s.fabricOn)
    ∧ (s.dev.packets[i]? = some k)
    ∧ (k.at_ = some ↑p)
    ∧ (k.trail = (x0, c0) :: more)
    ∧ (k.ix < 48 ∧ k.iy < 48 ∧ k.dx < 48 ∧ k.dy < 48)
    ∧ (k.phase = 0)
    ∧ ((x, y) = (k.dx, k.dy) → k.exit = 0 ∨ k.exit = 1 ∧ y = 0 ∨ k.exit = 2 ∧ y = 47 ∨ k.exit = 3 ∧ x = 0 ∨ k.exit = 4 ∧ x = 47)
    ∧ (k.ix < x)
    ∧ (s.dev.linkServes i k z = true))
    ∧ (let s : State := (pS (pt 0 4 6 7 8 0)); let i : Nat := 0; let k : Packet := (pt 0 4 6 7 8 0); let p : Fin 2304 := 100; let x : Nat := ↑p % 48; let y : Nat := ↑p / 48; let x0 : Nat := freightIn 100 4 0; let c0 : Nat := 1; let more : List (Nat × Nat) := []; let z : Nat := freightIn (posOf x (y + 1)) (portFrom (↑p) (posOf x (y + 1))) 0;
    (s.fabricOn)
    ∧ (s.dev.packets[i]? = some k)
    ∧ (k.at_ = some ↑p)
    ∧ (k.trail = (x0, c0) :: more)
    ∧ (k.ix < 48 ∧ k.iy < 48 ∧ k.dx < 48 ∧ k.dy < 48)
    ∧ (k.phase = 0)
    ∧ ((x, y) = (k.dx, k.dy) → k.exit = 0 ∨ k.exit = 1 ∧ y = 0 ∨ k.exit = 2 ∧ y = 47 ∨ k.exit = 3 ∧ x = 0 ∨ k.exit = 4 ∧ x = 47)
    ∧ (x = k.ix)
    ∧ (y < k.iy)
    ∧ (s.dev.linkServes i k z = true))
    ∧ (let s : State := (pS (pt 0 4 1 7 8 0)); let i : Nat := 0; let k : Packet := (pt 0 4 1 7 8 0); let p : Fin 2304 := 100; let x : Nat := ↑p % 48; let y : Nat := ↑p / 48; let x0 : Nat := freightIn 100 4 0; let c0 : Nat := 1; let more : List (Nat × Nat) := []; let z : Nat := freightIn (posOf x (y - 1)) (portFrom (↑p) (posOf x (y - 1))) 0;
    (s.fabricOn)
    ∧ (s.dev.packets[i]? = some k)
    ∧ (k.at_ = some ↑p)
    ∧ (k.trail = (x0, c0) :: more)
    ∧ (k.ix < 48 ∧ k.iy < 48 ∧ k.dx < 48 ∧ k.dy < 48)
    ∧ (k.phase = 0)
    ∧ ((x, y) = (k.dx, k.dy) → k.exit = 0 ∨ k.exit = 1 ∧ y = 0 ∨ k.exit = 2 ∧ y = 47 ∨ k.exit = 3 ∧ x = 0 ∨ k.exit = 4 ∧ x = 47)
    ∧ (x = k.ix)
    ∧ (k.iy < y)
    ∧ (s.dev.linkServes i k z = true))
    ∧ (let s : State := (pS (pt 1 4 2 7 8 0)); let i : Nat := 0; let k : Packet := (pt 1 4 2 7 8 0); let p : Fin 2304 := 100; let x : Nat := ↑p % 48; let y : Nat := ↑p / 48; let x0 : Nat := freightIn 100 4 1; let c0 : Nat := 1; let more : List (Nat × Nat) := []; let z : Nat := freightIn (posOf x (y + 1)) (portFrom (↑p) (posOf x (y + 1))) 1;
    (s.fabricOn)
    ∧ (s.dev.packets[i]? = some k)
    ∧ (k.at_ = some ↑p)
    ∧ (k.trail = (x0, c0) :: more)
    ∧ (k.ix < 48 ∧ k.iy < 48 ∧ k.dx < 48 ∧ k.dy < 48)
    ∧ ((x, y) ≠ (k.dx, k.dy))
    ∧ (k.phase = 1 ∨ k.phase = 0 ∧ (x, y) = (k.ix, k.iy))
    ∧ (y < k.dy)
    ∧ (s.dev.linkServes i k z = true))
    ∧ (let s : State := (pS (pt 1 4 2 7 1 0)); let i : Nat := 0; let k : Packet := (pt 1 4 2 7 1 0); let p : Fin 2304 := 100; let x : Nat := ↑p % 48; let y : Nat := ↑p / 48; let x0 : Nat := freightIn 100 4 1; let c0 : Nat := 1; let more : List (Nat × Nat) := []; let z : Nat := freightIn (posOf x (y - 1)) (portFrom (↑p) (posOf x (y - 1))) 1;
    (s.fabricOn)
    ∧ (s.dev.packets[i]? = some k)
    ∧ (k.at_ = some ↑p)
    ∧ (k.trail = (x0, c0) :: more)
    ∧ (k.ix < 48 ∧ k.iy < 48 ∧ k.dx < 48 ∧ k.dy < 48)
    ∧ ((x, y) ≠ (k.dx, k.dy))
    ∧ (k.phase = 1 ∨ k.phase = 0 ∧ (x, y) = (k.ix, k.iy))
    ∧ (k.dy < y)
    ∧ (s.dev.linkServes i k z = true))
    ∧ (let s : State := (pS (pt 1 4 2 7 2 0)); let i : Nat := 0; let k : Packet := (pt 1 4 2 7 2 0); let p : Fin 2304 := 100; let x : Nat := ↑p % 48; let y : Nat := ↑p / 48; let x0 : Nat := freightIn 100 4 1; let c0 : Nat := 1; let more : List (Nat × Nat) := []; let z : Nat := freightIn (posOf (x + 1) y) (portFrom (↑p) (posOf (x + 1) y)) 1;
    (s.fabricOn)
    ∧ (s.dev.packets[i]? = some k)
    ∧ (k.at_ = some ↑p)
    ∧ (k.trail = (x0, c0) :: more)
    ∧ (k.ix < 48 ∧ k.iy < 48 ∧ k.dx < 48 ∧ k.dy < 48)
    ∧ ((x, y) ≠ (k.dx, k.dy))
    ∧ (k.phase = 1 ∨ k.phase = 0 ∧ (x, y) = (k.ix, k.iy))
    ∧ (y = k.dy)
    ∧ (x < k.dx)
    ∧ (s.dev.linkServes i k z = true))
    ∧ (let s : State := (pS (pt 1 4 2 1 2 0)); let i : Nat := 0; let k : Packet := (pt 1 4 2 1 2 0); let p : Fin 2304 := 100; let x : Nat := ↑p % 48; let y : Nat := ↑p / 48; let x0 : Nat := freightIn 100 4 1; let c0 : Nat := 1; let more : List (Nat × Nat) := []; let z : Nat := freightIn (posOf (x - 1) y) (portFrom (↑p) (posOf (x - 1) y)) 1;
    (s.fabricOn)
    ∧ (s.dev.packets[i]? = some k)
    ∧ (k.at_ = some ↑p)
    ∧ (k.trail = (x0, c0) :: more)
    ∧ (k.ix < 48 ∧ k.iy < 48 ∧ k.dx < 48 ∧ k.dy < 48)
    ∧ ((x, y) ≠ (k.dx, k.dy))
    ∧ (k.phase = 1 ∨ k.phase = 0 ∧ (x, y) = (k.ix, k.iy))
    ∧ (y = k.dy)
    ∧ (k.dx < x)
    ∧ (s.dev.linkServes i k z = true))
    ∧ (let s : State := (pS (pt 1 4 2 4 2 1)); let i : Nat := 0; let k : Packet := (pt 1 4 2 4 2 1); let p : Fin 2304 := 100; let x : Nat := ↑p % 48; let y : Nat := ↑p / 48; let x0 : Nat := freightIn 100 4 1; let c0 : Nat := 1; let more : List (Nat × Nat) := [];
    (s.fabricOn)
    ∧ (s.dev.packets[i]? = some k)
    ∧ (k.at_ = some ↑p)
    ∧ (k.trail = (x0, c0) :: more)
    ∧ (s.dev.firstIn i x0 = true)
    ∧ (¬(k.ix < 48 ∧ k.iy < 48 ∧ k.dx < 48 ∧ k.dy < 48) ∨ (x, y) = (k.dx, k.dy) ∧ ¬(k.exit = 0 ∨ k.exit = 1 ∧ y = 0 ∨ k.exit = 2 ∧ y = 47 ∨ k.exit = 3 ∧ x = 0 ∨ k.exit = 4 ∧ x = 47))
    ∧ (s.nv.enabled ↑p = true))
    ∧ (let s : State := (pS (pk 0 5 6 7 8 0 100)); let i : Nat := 0; let k : Packet := (pk 0 5 6 7 8 0 100); let p : Fin 2304 := 100;
    (s.fabricOn)
    ∧ (s.dev.packets[i]? = some k)
    ∧ (k.at_ = some ↑p)
    ∧ (k.trail = []))
    ∧ (let s : State := (p2 (pt 0 5 6 7 8 0) (pt 1 5 6 7 2 0)); let i : Nat := 0; let k : Packet := (pt 0 5 6 7 8 0); let p : Fin 2304 := 100; let x : Nat := ↑p % 48; let y : Nat := ↑p / 48; let x0 : Nat := freightIn 100 4 0; let c0 : Nat := 1; let more : List (Nat × Nat) := []; let j : Nat := 1; let b : Packet := pt 1 5 6 7 2 0; let c : Packet × Nat := (pt 1 5 6 7 2 0).wants.getD (pt 1 5 6 7 2 0, 0);
    (s.fabricOn)
    ∧ (s.dev.packets[i]? = some k)
    ∧ (k.at_ = some ↑p)
    ∧ (k.trail = (x0, c0) :: more)
    ∧ (k.ix < 48 ∧ k.iy < 48 ∧ k.dx < 48 ∧ k.dy < 48)
    ∧ (k.phase = 0)
    ∧ ((x, y) = (k.dx, k.dy) → k.exit = 0 ∨ k.exit = 1 ∧ y = 0 ∨ k.exit = 2 ∧ y = 47 ∨ k.exit = 3 ∧ x = 0 ∨ k.exit = 4 ∧ x = 47)
    ∧ (x < k.ix)
    ∧ (j ≠ i)
    ∧ (s.dev.packets[j]? = some b)
    ∧ (b.wants = some c)
    ∧ (c.2 = freightIn (posOf (x + 1) y) (portFrom (↑p) (posOf (x + 1) y)) 1)
    ∧ (s.dev.mayStep j b c.2 = true))
    ∧ (let s : State := (p2 (pt 0 2 2 7 8 0) (pt 1 5 6 1 2 0)); let i : Nat := 0; let k : Packet := (pt 0 2 2 7 8 0); let p : Fin 2304 := 100; let x : Nat := ↑p % 48; let y : Nat := ↑p / 48; let x0 : Nat := freightIn 100 4 0; let c0 : Nat := 1; let more : List (Nat × Nat) := []; let j : Nat := 1; let b : Packet := pt 1 5 6 1 2 0; let c : Packet × Nat := (pt 1 5 6 1 2 0).wants.getD (pt 1 5 6 1 2 0, 0);
    (s.fabricOn)
    ∧ (s.dev.packets[i]? = some k)
    ∧ (k.at_ = some ↑p)
    ∧ (k.trail = (x0, c0) :: more)
    ∧ (k.ix < 48 ∧ k.iy < 48 ∧ k.dx < 48 ∧ k.dy < 48)
    ∧ (k.phase = 0)
    ∧ ((x, y) = (k.dx, k.dy) → k.exit = 0 ∨ k.exit = 1 ∧ y = 0 ∨ k.exit = 2 ∧ y = 47 ∨ k.exit = 3 ∧ x = 0 ∨ k.exit = 4 ∧ x = 47)
    ∧ (k.ix < x)
    ∧ (j ≠ i)
    ∧ (s.dev.packets[j]? = some b)
    ∧ (b.wants = some c)
    ∧ (c.2 = freightIn (posOf (x - 1) y) (portFrom (↑p) (posOf (x - 1) y)) 1)
    ∧ (s.dev.mayStep j b c.2 = true))
    ∧ (let s : State := (p2 (pt 0 4 6 7 8 0) (pt 1 5 6 7 8 0)); let i : Nat := 0; let k : Packet := (pt 0 4 6 7 8 0); let p : Fin 2304 := 100; let x : Nat := ↑p % 48; let y : Nat := ↑p / 48; let x0 : Nat := freightIn 100 4 0; let c0 : Nat := 1; let more : List (Nat × Nat) := []; let j : Nat := 1; let b : Packet := pt 1 5 6 7 8 0; let c : Packet × Nat := (pt 1 5 6 7 8 0).wants.getD (pt 1 5 6 7 8 0, 0);
    (s.fabricOn)
    ∧ (s.dev.packets[i]? = some k)
    ∧ (k.at_ = some ↑p)
    ∧ (k.trail = (x0, c0) :: more)
    ∧ (k.ix < 48 ∧ k.iy < 48 ∧ k.dx < 48 ∧ k.dy < 48)
    ∧ (k.phase = 0)
    ∧ ((x, y) = (k.dx, k.dy) → k.exit = 0 ∨ k.exit = 1 ∧ y = 0 ∨ k.exit = 2 ∧ y = 47 ∨ k.exit = 3 ∧ x = 0 ∨ k.exit = 4 ∧ x = 47)
    ∧ (x = k.ix)
    ∧ (y < k.iy)
    ∧ (j ≠ i)
    ∧ (s.dev.packets[j]? = some b)
    ∧ (b.wants = some c)
    ∧ (c.2 = freightIn (posOf x (y + 1)) (portFrom (↑p) (posOf x (y + 1))) 1)
    ∧ (s.dev.mayStep j b c.2 = true))
    ∧ (let s : State := (p2 (pt 0 4 1 7 8 0) (pt 1 5 6 7 1 0)); let i : Nat := 0; let k : Packet := (pt 0 4 1 7 8 0); let p : Fin 2304 := 100; let x : Nat := ↑p % 48; let y : Nat := ↑p / 48; let x0 : Nat := freightIn 100 4 0; let c0 : Nat := 1; let more : List (Nat × Nat) := []; let j : Nat := 1; let b : Packet := pt 1 5 6 7 1 0; let c : Packet × Nat := (pt 1 5 6 7 1 0).wants.getD (pt 1 5 6 7 1 0, 0);
    (s.fabricOn)
    ∧ (s.dev.packets[i]? = some k)
    ∧ (k.at_ = some ↑p)
    ∧ (k.trail = (x0, c0) :: more)
    ∧ (k.ix < 48 ∧ k.iy < 48 ∧ k.dx < 48 ∧ k.dy < 48)
    ∧ (k.phase = 0)
    ∧ ((x, y) = (k.dx, k.dy) → k.exit = 0 ∨ k.exit = 1 ∧ y = 0 ∨ k.exit = 2 ∧ y = 47 ∨ k.exit = 3 ∧ x = 0 ∨ k.exit = 4 ∧ x = 47)
    ∧ (x = k.ix)
    ∧ (k.iy < y)
    ∧ (j ≠ i)
    ∧ (s.dev.packets[j]? = some b)
    ∧ (b.wants = some c)
    ∧ (c.2 = freightIn (posOf x (y - 1)) (portFrom (↑p) (posOf x (y - 1))) 1)
    ∧ (s.dev.mayStep j b c.2 = true))
    ∧ (let s : State := (p2 (pt 0 5 6 7 8 0) (fill (pt 0 5 6 7 8 0))); let i : Nat := 0; let k : Packet := (pt 0 5 6 7 8 0); let p : Fin 2304 := 100; let x : Nat := ↑p % 48; let y : Nat := ↑p / 48; let x0 : Nat := freightIn 100 4 0; let c0 : Nat := 1; let more : List (Nat × Nat) := []; let z : Nat := freightIn (posOf (x + 1) y) (portFrom (↑p) (posOf (x + 1) y)) 0;
    (s.fabricOn)
    ∧ (s.dev.packets[i]? = some k)
    ∧ (k.at_ = some ↑p)
    ∧ (k.trail = (x0, c0) :: more)
    ∧ (k.ix < 48 ∧ k.iy < 48 ∧ k.dx < 48 ∧ k.dy < 48)
    ∧ (k.phase = 0)
    ∧ ((x, y) = (k.dx, k.dy) → k.exit = 0 ∨ k.exit = 1 ∧ y = 0 ∨ k.exit = 2 ∧ y = 47 ∨ k.exit = 3 ∧ x = 0 ∨ k.exit = 4 ∧ x = 47)
    ∧ (x < k.ix)
    ∧ (s.dev.placesFor (isResponse k.typ) z = 0))
    ∧ (let s : State := (p2 (pt 0 2 2 7 8 0) (fill (pt 0 2 2 7 8 0))); let i : Nat := 0; let k : Packet := (pt 0 2 2 7 8 0); let p : Fin 2304 := 100; let x : Nat := ↑p % 48; let y : Nat := ↑p / 48; let x0 : Nat := freightIn 100 4 0; let c0 : Nat := 1; let more : List (Nat × Nat) := []; let z : Nat := freightIn (posOf (x - 1) y) (portFrom (↑p) (posOf (x - 1) y)) 0;
    (s.fabricOn)
    ∧ (s.dev.packets[i]? = some k)
    ∧ (k.at_ = some ↑p)
    ∧ (k.trail = (x0, c0) :: more)
    ∧ (k.ix < 48 ∧ k.iy < 48 ∧ k.dx < 48 ∧ k.dy < 48)
    ∧ (k.phase = 0)
    ∧ ((x, y) = (k.dx, k.dy) → k.exit = 0 ∨ k.exit = 1 ∧ y = 0 ∨ k.exit = 2 ∧ y = 47 ∨ k.exit = 3 ∧ x = 0 ∨ k.exit = 4 ∧ x = 47)
    ∧ (k.ix < x)
    ∧ (s.dev.placesFor (isResponse k.typ) z = 0))
    ∧ (let s : State := (p2 (pt 0 4 6 7 8 0) (fill (pt 0 4 6 7 8 0))); let i : Nat := 0; let k : Packet := (pt 0 4 6 7 8 0); let p : Fin 2304 := 100; let x : Nat := ↑p % 48; let y : Nat := ↑p / 48; let x0 : Nat := freightIn 100 4 0; let c0 : Nat := 1; let more : List (Nat × Nat) := []; let z : Nat := freightIn (posOf x (y + 1)) (portFrom (↑p) (posOf x (y + 1))) 0;
    (s.fabricOn)
    ∧ (s.dev.packets[i]? = some k)
    ∧ (k.at_ = some ↑p)
    ∧ (k.trail = (x0, c0) :: more)
    ∧ (k.ix < 48 ∧ k.iy < 48 ∧ k.dx < 48 ∧ k.dy < 48)
    ∧ (k.phase = 0)
    ∧ ((x, y) = (k.dx, k.dy) → k.exit = 0 ∨ k.exit = 1 ∧ y = 0 ∨ k.exit = 2 ∧ y = 47 ∨ k.exit = 3 ∧ x = 0 ∨ k.exit = 4 ∧ x = 47)
    ∧ (x = k.ix)
    ∧ (y < k.iy)
    ∧ (s.dev.placesFor (isResponse k.typ) z = 0))
    ∧ (let s : State := (p2 (pt 0 4 1 7 8 0) (fill (pt 0 4 1 7 8 0))); let i : Nat := 0; let k : Packet := (pt 0 4 1 7 8 0); let p : Fin 2304 := 100; let x : Nat := ↑p % 48; let y : Nat := ↑p / 48; let x0 : Nat := freightIn 100 4 0; let c0 : Nat := 1; let more : List (Nat × Nat) := []; let z : Nat := freightIn (posOf x (y - 1)) (portFrom (↑p) (posOf x (y - 1))) 0;
    (s.fabricOn)
    ∧ (s.dev.packets[i]? = some k)
    ∧ (k.at_ = some ↑p)
    ∧ (k.trail = (x0, c0) :: more)
    ∧ (k.ix < 48 ∧ k.iy < 48 ∧ k.dx < 48 ∧ k.dy < 48)
    ∧ (k.phase = 0)
    ∧ ((x, y) = (k.dx, k.dy) → k.exit = 0 ∨ k.exit = 1 ∧ y = 0 ∨ k.exit = 2 ∧ y = 47 ∨ k.exit = 3 ∧ x = 0 ∨ k.exit = 4 ∧ x = 47)
    ∧ (x = k.ix)
    ∧ (k.iy < y)
    ∧ (s.dev.placesFor (isResponse k.typ) z = 0))
    ∧ (let s : State := (p2 (pt 1 4 2 7 8 0) (fill (pt 1 4 2 7 8 0))); let i : Nat := 0; let k : Packet := (pt 1 4 2 7 8 0); let p : Fin 2304 := 100; let x : Nat := ↑p % 48; let y : Nat := ↑p / 48; let x0 : Nat := freightIn 100 4 1; let c0 : Nat := 1; let more : List (Nat × Nat) := []; let z : Nat := freightIn (posOf x (y + 1)) (portFrom (↑p) (posOf x (y + 1))) 1;
    (s.fabricOn)
    ∧ (s.dev.packets[i]? = some k)
    ∧ (k.at_ = some ↑p)
    ∧ (k.trail = (x0, c0) :: more)
    ∧ (k.ix < 48 ∧ k.iy < 48 ∧ k.dx < 48 ∧ k.dy < 48)
    ∧ ((x, y) ≠ (k.dx, k.dy))
    ∧ (k.phase = 1 ∨ k.phase = 0 ∧ (x, y) = (k.ix, k.iy))
    ∧ (y < k.dy)
    ∧ (s.dev.placesFor (isResponse k.typ) z = 0))
    ∧ (let s : State := (p2 (pt 1 4 2 7 1 0) (fill (pt 1 4 2 7 1 0))); let i : Nat := 0; let k : Packet := (pt 1 4 2 7 1 0); let p : Fin 2304 := 100; let x : Nat := ↑p % 48; let y : Nat := ↑p / 48; let x0 : Nat := freightIn 100 4 1; let c0 : Nat := 1; let more : List (Nat × Nat) := []; let z : Nat := freightIn (posOf x (y - 1)) (portFrom (↑p) (posOf x (y - 1))) 1;
    (s.fabricOn)
    ∧ (s.dev.packets[i]? = some k)
    ∧ (k.at_ = some ↑p)
    ∧ (k.trail = (x0, c0) :: more)
    ∧ (k.ix < 48 ∧ k.iy < 48 ∧ k.dx < 48 ∧ k.dy < 48)
    ∧ ((x, y) ≠ (k.dx, k.dy))
    ∧ (k.phase = 1 ∨ k.phase = 0 ∧ (x, y) = (k.ix, k.iy))
    ∧ (k.dy < y)
    ∧ (s.dev.placesFor (isResponse k.typ) z = 0))
    ∧ (let s : State := (p2 (pt 1 4 2 7 2 0) (fill (pt 1 4 2 7 2 0))); let i : Nat := 0; let k : Packet := (pt 1 4 2 7 2 0); let p : Fin 2304 := 100; let x : Nat := ↑p % 48; let y : Nat := ↑p / 48; let x0 : Nat := freightIn 100 4 1; let c0 : Nat := 1; let more : List (Nat × Nat) := []; let z : Nat := freightIn (posOf (x + 1) y) (portFrom (↑p) (posOf (x + 1) y)) 1;
    (s.fabricOn)
    ∧ (s.dev.packets[i]? = some k)
    ∧ (k.at_ = some ↑p)
    ∧ (k.trail = (x0, c0) :: more)
    ∧ (k.ix < 48 ∧ k.iy < 48 ∧ k.dx < 48 ∧ k.dy < 48)
    ∧ ((x, y) ≠ (k.dx, k.dy))
    ∧ (k.phase = 1 ∨ k.phase = 0 ∧ (x, y) = (k.ix, k.iy))
    ∧ (y = k.dy)
    ∧ (x < k.dx)
    ∧ (s.dev.placesFor (isResponse k.typ) z = 0))
    ∧ (let s : State := (p2 (pt 1 4 2 1 2 0) (fill (pt 1 4 2 1 2 0))); let i : Nat := 0; let k : Packet := (pt 1 4 2 1 2 0); let p : Fin 2304 := 100; let x : Nat := ↑p % 48; let y : Nat := ↑p / 48; let x0 : Nat := freightIn 100 4 1; let c0 : Nat := 1; let more : List (Nat × Nat) := []; let z : Nat := freightIn (posOf (x - 1) y) (portFrom (↑p) (posOf (x - 1) y)) 1;
    (s.fabricOn)
    ∧ (s.dev.packets[i]? = some k)
    ∧ (k.at_ = some ↑p)
    ∧ (k.trail = (x0, c0) :: more)
    ∧ (k.ix < 48 ∧ k.iy < 48 ∧ k.dx < 48 ∧ k.dy < 48)
    ∧ ((x, y) ≠ (k.dx, k.dy))
    ∧ (k.phase = 1 ∨ k.phase = 0 ∧ (x, y) = (k.ix, k.iy))
    ∧ (y = k.dy)
    ∧ (k.dx < x)
    ∧ (s.dev.placesFor (isResponse k.typ) z = 0)) := by decide +kernel

/-- `Obligations.FreightReachesStations`, part 2. -/
theorem wit_FreightServedAtStation :
    (let s : State := (pS (rk pRead 0x40 16 [])); let i : Nat := 0; let err : PacketError := e0; let k : Packet := (rk pRead 0x40 16 []); let r : Fin 2304 := 100; let p : Fin 2304 := 100;
    (s.dev.clocked = true)
    ∧ (s.dev.packets[i]? = some k)
    ∧ (k.at_ = none)
    ∧ (k.hurt = (false, false))
    ∧ (k.dst = ↑r)
    ∧ (posOf k.dx k.dy = ↑p)
    ∧ (s.dev.posOfRank ↑r = some ↑p)
    ∧ (s.nv.enabled ↑p = true)
    ∧ (s.dev.rankOf ↑p = some ↑r)
    ∧ (s.dev.rst.stations.contains ↑p = false)
    ∧ (s.dev.stnTested ↑p = false)
    ∧ (s.dev.sys.distWait = [])
    ∧ (∀ y ∈ s.dev.words, y.ended = none)
    ∧ (err.hchkBad = false)
    ∧ (err.crcBad = false)
    ∧ (k.typ = pRead)
    ∧ (stationBase + ↑r * 2 ^ 20 ≤ k.addr ∧ k.addr + k.rcount ≤ stationBase + ↑r * 2 ^ 20 + 393216 ∧ k.addr % 4 = 0 ∧ k.rcount % 4 = 0 ∧ 4 ≤ k.rcount ∧ k.rcount ≤ 4096 ∧ k.addr % 4096 + k.rcount ≤ 4096))
    ∧ (let s : State := (pS (rk pRead 0x42 16 [])); let i : Nat := 0; let err : PacketError := e0; let k : Packet := (rk pRead 0x42 16 []); let r : Fin 2304 := 100; let p : Fin 2304 := 100;
    (s.dev.clocked = true)
    ∧ (s.dev.packets[i]? = some k)
    ∧ (k.at_ = none)
    ∧ (k.hurt = (false, false))
    ∧ (k.dst = ↑r)
    ∧ (posOf k.dx k.dy = ↑p)
    ∧ (s.dev.posOfRank ↑r = some ↑p)
    ∧ (s.nv.enabled ↑p = true)
    ∧ (s.dev.rankOf ↑p = some ↑r)
    ∧ (s.dev.rst.stations.contains ↑p = false)
    ∧ (s.dev.stnTested ↑p = false)
    ∧ (s.dev.sys.distWait = [])
    ∧ (∀ y ∈ s.dev.words, y.ended = none)
    ∧ (err.hchkBad = false)
    ∧ (err.crcBad = false)
    ∧ (k.typ = pRead)
    ∧ (¬(stationBase + ↑r * 2 ^ 20 ≤ k.addr ∧ k.addr + k.rcount ≤ stationBase + ↑r * 2 ^ 20 + 393216 ∧ k.addr % 4 = 0 ∧ k.rcount % 4 = 0 ∧ 4 ≤ k.rcount ∧ k.rcount ≤ 4096 ∧ k.addr % 4096 + k.rcount ≤ 4096)))
    ∧ (let s : State := (pS (rk pWrite 0x40 0 [1,2,3,4])); let i : Nat := 0; let err : PacketError := e0; let k : Packet := (rk pWrite 0x40 0 [1,2,3,4]); let r : Fin 2304 := 100; let p : Fin 2304 := 100;
    (s.dev.clocked = true)
    ∧ (s.dev.packets[i]? = some k)
    ∧ (k.at_ = none)
    ∧ (k.hurt = (false, false))
    ∧ (k.dst = ↑r)
    ∧ (posOf k.dx k.dy = ↑p)
    ∧ (s.dev.posOfRank ↑r = some ↑p)
    ∧ (s.nv.enabled ↑p = true)
    ∧ (s.dev.rankOf ↑p = some ↑r)
    ∧ (s.dev.rst.stations.contains ↑p = false)
    ∧ (s.dev.stnTested ↑p = false)
    ∧ (s.dev.sys.distWait = [])
    ∧ (∀ y ∈ s.dev.words, y.ended = none)
    ∧ (err.hchkBad = false)
    ∧ (err.crcBad = false)
    ∧ (k.typ = pWrite)
    ∧ (stationBase + ↑r * 2 ^ 20 ≤ k.addr ∧ k.addr + k.data.length ≤ stationBase + ↑r * 2 ^ 20 + 393216 ∧ k.addr % 4 = 0 ∧ k.data.length % 4 = 0 ∧ 4 ≤ k.data.length ∧ k.data.length ≤ 4096 ∧ k.addr % 4096 + k.data.length ≤ 4096)
    ∧ (s.dev.arbRoom ↑p = true))
    ∧ (let s : State := (pS (rk pWrite 0x40 0 [1,2,3,4])); let i : Nat := 0; let err : PacketError := {e0 with crcBad := true}; let k : Packet := (rk pWrite 0x40 0 [1,2,3,4]); let r : Fin 2304 := 100; let p : Fin 2304 := 100;
    (s.dev.clocked = true)
    ∧ (s.dev.packets[i]? = some k)
    ∧ (k.at_ = none)
    ∧ (k.hurt = (false, false))
    ∧ (k.dst = ↑r)
    ∧ (posOf k.dx k.dy = ↑p)
    ∧ (s.dev.posOfRank ↑r = some ↑p)
    ∧ (s.nv.enabled ↑p = true)
    ∧ (s.dev.rankOf ↑p = some ↑r)
    ∧ (s.dev.rst.stations.contains ↑p = false)
    ∧ (s.dev.stnTested ↑p = false)
    ∧ (s.dev.sys.distWait = [])
    ∧ (∀ y ∈ s.dev.words, y.ended = none)
    ∧ (err.hchkBad = false)
    ∧ (err.crcBad = true)
    ∧ (isRequest k.typ = true))
    ∧ (let s : State := (pS (rk pWrite 0x40 0 [1,2,3,4])); let i : Nat := 0; let err : PacketError := {e0 with hchkBad := true}; let k : Packet := (rk pWrite 0x40 0 [1,2,3,4]); let r : Fin 2304 := 100; let p : Fin 2304 := 100;
    (s.dev.clocked = true)
    ∧ (s.dev.packets[i]? = some k)
    ∧ (k.at_ = none)
    ∧ (k.hurt = (false, false))
    ∧ (k.dst = ↑r)
    ∧ (posOf k.dx k.dy = ↑p)
    ∧ (s.dev.posOfRank ↑r = some ↑p)
    ∧ (s.nv.enabled ↑p = true)
    ∧ (s.dev.rankOf ↑p = some ↑r)
    ∧ (s.dev.rst.stations.contains ↑p = false)
    ∧ (s.dev.stnTested ↑p = false)
    ∧ (s.dev.sys.distWait = [])
    ∧ (∀ y ∈ s.dev.words, y.ended = none)
    ∧ (err.hchkBad = true)) := by decide +kernel

/-- `Obligations.FreightEndsAndGddr6`, part 1. -/
theorem wit_FreightTransactionsEnd :
    (let s : State := (tS (rs pAck 0) 1); let i : Nat := 0; let err : PacketError := e0; let k : Packet := (rs pAck 0); let x : Txn := (tx 1); let j : HostJob := jb;
    (s.dev.clocked = true)
    ∧ (s.dev.sys.distWait = [])
    ∧ (∀ y ∈ s.dev.words, y.ended = none)
    ∧ (s.dev.qntState < 3)
    ∧ (s.dev.fwait = [])
    ∧ (s.dev.packets[i]? = some k)
    ∧ (k.at_ = none)
    ∧ (k.hurt = (false, false))
    ∧ (err.hchkBad = false)
    ∧ (k.dst = epHost)
    ∧ (k.typ = pAck)
    ∧ (err.crcBad = false)
    ∧ (s.dev.matching k = some x)
    ∧ (x.req.ep = epHost)
    ∧ (x.req.owner = Owner.host j.seq)
    ∧ (s.dev.link.jobs = [j])
    ∧ (j.left = 1)
    ∧ (j.write = true)
    ∧ (j.noack = false)
    ∧ (j.code = 0)
    ∧ (List.find? (fun (y : Txn) => y.req.ep == epHost && y.txn == x.txn) s.dev.txns = some x)
    ∧ (x.req.typ = pWrite))
    ∧ (let s : State := (tS (rs pNack 1) 2); let i : Nat := 0; let err : PacketError := e0; let k : Packet := (rs pNack 1); let x : Txn := (tx 2);
    (s.dev.clocked = true)
    ∧ (s.dev.sys.distWait = [])
    ∧ (∀ y ∈ s.dev.words, y.ended = none)
    ∧ (s.dev.qntState < 3)
    ∧ (s.dev.fwait = [])
    ∧ (s.dev.packets[i]? = some k)
    ∧ (k.at_ = none)
    ∧ (k.hurt = (false, false))
    ∧ (err.hchkBad = false)
    ∧ (k.dst = epHost)
    ∧ (k.typ = pNack)
    ∧ (k.status = 1)
    ∧ (err.crcBad = false)
    ∧ (s.dev.matching k = some x)
    ∧ (x.req.ep = epHost)
    ∧ (x.attempt < 7)
    ∧ (List.find? (fun (y : Txn) => y.req.ep == epHost && y.txn == x.txn) s.dev.txns = some x)
    ∧ (x.req.typ = pRead))
    ∧ (let s : State := (tS (rs pNack 1) 2); let i : Nat := 0; let err : PacketError := {e0 with crcBad := true}; let k : Packet := (rs pNack 1);
    (s.dev.clocked = true)
    ∧ (s.dev.sys.distWait = [])
    ∧ (∀ y ∈ s.dev.words, y.ended = none)
    ∧ (s.dev.qntState < 3)
    ∧ (s.dev.fwait = [])
    ∧ (s.dev.packets[i]? = some k)
    ∧ (k.at_ = none)
    ∧ (k.hurt = (false, false))
    ∧ (err.hchkBad = false)
    ∧ (k.dst = epHost)
    ∧ (k.typ = pAck ∨ k.typ = pNack ∨ k.typ = pData)
    ∧ (err.crcBad = true ∨ s.dev.matching k = none)) := by decide +kernel

/-- `Obligations.FreightEndsAndGddr6`, part 2. -/
theorem wit_Gddr6AccessCompletes :
    (let s : State := (dirS fun s => {s with work := [gk pRead 8 []]}); let c : Fin 12 := 3; let e : DramEnd := dOk; let k : Packet := (gk pRead 8 []); let rest : List Packet := [];
    (s.runs 1 ↑c)
    ∧ (s.nv.streamerOn ↑c = true)
    ∧ ((s.dev.streamer ↑c).work = k :: rest)
    ∧ (k.typ = pRead)
    ∧ (e.ok = true))
    ∧ (let s : State := (dirS fun s => {s with work := [gk pWrite 0 [1,2,3,4]]}); let c : Fin 12 := 3; let k : Packet := (gk pWrite 0 [1,2,3,4]); let rest : List Packet := [];
    (s.runs 1 ↑c)
    ∧ (s.nv.streamerOn ↑c = true)
    ∧ ((s.dev.streamer ↑c).work = k :: rest)
    ∧ (k.typ = pWrite))
    ∧ (let s : State := (dirS fun s => {s with work := [gk pRead 8 []]}); let c : Fin 12 := 3; let e : DramEnd := ⟨false, true, 1, 2⟩; let k : Packet := (gk pRead 8 []); let rest : List Packet := [];
    (s.runs 1 ↑c)
    ∧ (s.nv.streamerOn ↑c = true)
    ∧ ((s.dev.streamer ↑c).work = k :: rest)
    ∧ (k.typ = pRead)
    ∧ (e.ok = false)) := by decide +kernel

/-- `Obligations.QuantiserJobsRun`, part 1. -/
theorem wit_QuantiserJobsRun :
    (let s : State := (rdy.wrs [(R.QNT_STATUS, 5)]);
    (s.runs 4 1)
    ∧ (s.dev.qntState ≠ 0)
    ∧ (¬(s.dev.qjob.kind = 0 ∧ s.dev.qntState = 4 ∧ s.dev.qnt.out ≠ 0))
    ∧ (s.dev.qntState = 5)
    ∧ (s.dev.qnt.gather = Gather.init)
    ∧ (s.dev.qnt.out = 0)
    ∧ (s.dev.qnt.todo = []))
    ∧ (let s : State := rdy; let r : Nat := s.dev.qntCheck s.nv s.dev.qjob;
    (s.runs 4 1)
    ∧ (s.dev.qntState = 0)
    ∧ (r ≠ 0))
    ∧ (let s : State := ((rdy.wrs [(R.QNT_STATUS, 4)]).mapDev fun d => { d with qnt := { d.qnt with out := 1 } });
    (s.runs 4 1)
    ∧ (s.dev.qjob.kind = 0)
    ∧ (s.dev.qntState = 4)
    ∧ (s.dev.qnt.out ≠ 0))
    ∧ (let s : State := (rdy.wrs [(R.QNT_FMT, 0xE4800000), (R.QNT_SHAPE, 3), (R.QNT_STRIDE, 16), (R.QNT_SRC_LO, 0x1000), (R.QNT_DST_LO, 0x2000), (R.QNT_GRP_LO, 0x3000)]); let r : Nat := s.dev.qntCheck s.nv s.dev.qjob; let req : TokReq := { req := rqQnt, cls := 1, cost := s.dev.rd (R.PWR_TOK_COST + 4), at_ := s.dev.now };
    (s.runs 4 1)
    ∧ (s.dev.qntState = 0)
    ∧ (r = 0)
    ∧ ((s.dev.tok.queue.any fun (q : TokReq) => q.req == rqQnt) = false)
    ∧ ((s.dev.tok.grants.any fun (q : TokReq) => q.req == rqQnt) = false)
    ∧ (s.dev.tokHopeless req = false)) := by decide +kernel

/-- `Obligations.ProjectionsLoadAndRun`, part 1. -/
theorem wit_ProjectionMatricesLoad :
    (let s : State := ((pl 0 0x44000000).wrs [(prjReg R.QNT_PRJ_STATUS 1, 2^28)] |>.mapDev fun d => d.setPrj 1 {Prj.init with loading := mx, src := (0x100, 0x200, 0x300)}); let v : Fin 4 := 1; let x : Prj := s.dev.prj ↑v; let y : Machine.Matrix := have __src := x.loading; { k := __src.k, m := __src.m, wfmt := __src.wfmt, ifmt := __src.ifmt, scaleKind := __src.scaleKind, codes := s.mem.depotBytes x.src.1 (x.loading.k * x.loading.m), groups := wordsOf (s.mem.depotBytes x.src.2.1 (4 * x.loading.m)), sums := wordsOf (s.mem.depotBytes x.src.2.2 (4 * x.loading.m)) };
    (s.runs 4 (2 + ↑v))
    ∧ (s.dev.prjBusy ↑v = true ∨ s.dev.prjIsLoading ↑v = true)
    ∧ (s.dev.prjIsLoading ↑v = true)
    ∧ (x.gather = Gather.init)
    ∧ (x.waiting = [])
    ∧ (x.src.1 + x.loading.k * x.loading.m ≤ depotSize ∧ x.src.2.1 + 4 * x.loading.m ≤ depotSize ∧ x.src.2.2 + 4 * x.loading.m ≤ depotSize)
    ∧ (s.dev.banksTested x.src.1 (x.loading.k * x.loading.m) = false ∧ s.dev.banksTested x.src.2.1 (4 * x.loading.m) = false ∧ s.dev.banksTested x.src.2.2 (4 * x.loading.m) = false)
    ∧ (s.mem.depotErr = [])
    ∧ (List.map (fun (i : Int) => w32 (i % ↑(2 ^ 32)).toNat) y.colSums = y.sums)
    ∧ (y.groups.any (badScale x.loading.scaleKind) = false))
    ∧ (let s : State := (pl 0 0); let v : Fin 4 := 1; let sh : Word := s.dev.rd (prjReg R.QNT_PRJ_SHAPE ↑v); let size : Nat := (fld sh 16 12 + 1) * (fld sh 0 12 + 1); let fmt : Word := s.dev.rd (prjReg R.QNT_PRJ_FMT ↑v); let x : Prj := s.dev.prj ↑v;
    (s.runs 4 (2 + ↑v))
    ∧ (¬(s.dev.prjBusy ↑v = true ∨ s.dev.prjIsLoading ↑v = true) ∧ x.waiting = [])
    ∧ (262144 < size ∨ fld fmt 28 4 ≠ 4 ∧ fld fmt 28 4 ≠ 6))
    ∧ (let s : State := (pl 0 0x44000000); let v : Fin 4 := 1; let sh : Word := s.dev.rd (prjReg R.QNT_PRJ_SHAPE ↑v); let size : Nat := (fld sh 16 12 + 1) * (fld sh 0 12 + 1); let fmt : Word := s.dev.rd (prjReg R.QNT_PRJ_FMT ↑v); let src : Nat := s.dev.addr40 (prjReg R.QNT_PRJ_WSRC_LO ↑v); let x : Prj := s.dev.prj ↑v;
    (s.runs 4 (2 + ↑v))
    ∧ (¬(s.dev.prjBusy ↑v = true ∨ s.dev.prjIsLoading ↑v = true) ∧ x.waiting = [])
    ∧ (size ≤ 262144)
    ∧ (fld fmt 28 4 = 4 ∨ fld fmt 28 4 = 6)
    ∧ (fld fmt 24 4 = 4 ∨ fld fmt 24 4 = 6)
    ∧ (s.dev.rangeOk s.nv src size = true)
    ∧ (s.dev.rangeOk s.nv (s.dev.addr40 (prjReg R.QNT_PRJ_PSRC_LO ↑v)) (4 * (fld sh 0 12 + 1)) = true)
    ∧ (s.dev.rangeOk s.nv (s.dev.addr40 (prjReg R.QNT_PRJ_SSRC_LO ↑v)) (4 * (fld sh 0 12 + 1)) = true))
    ∧ (let s : State := { ((pl 0 0x44000000).wrs [(prjReg R.QNT_PRJ_STATUS 1, 2^28)] |>.mapDev fun d => d.setPrj 1 {Prj.init with loading := mx, src := (0x100, 0x200, 0x300)}) with mem := {B.mem with depot := [(0x100, 5)]}}; let v : Fin 4 := 1; let st : State → Nat → Bool := fun (u : State) (b : Nat) => bit (u.dev.rd (prjReg R.QNT_PRJ_STATUS ↑v)) b; let x : Prj := s.dev.prj ↑v; let y : Machine.Matrix := have __src := x.loading; { k := __src.k, m := __src.m, wfmt := __src.wfmt, ifmt := __src.ifmt, scaleKind := __src.scaleKind, codes := s.mem.depotBytes x.src.1 (x.loading.k * x.loading.m), groups := wordsOf (s.mem.depotBytes x.src.2.1 (4 * x.loading.m)), sums := wordsOf (s.mem.depotBytes x.src.2.2 (4 * x.loading.m)) };
    (s.runs 4 (2 + ↑v))
    ∧ (s.dev.prjIsLoading ↑v = true)
    ∧ (x.gather = Gather.init)
    ∧ (x.waiting = [])
    ∧ (x.src.1 + x.loading.k * x.loading.m ≤ depotSize ∧ x.src.2.1 + 4 * x.loading.m ≤ depotSize ∧ x.src.2.2 + 4 * x.loading.m ≤ depotSize)
    ∧ (s.dev.banksTested x.src.1 (x.loading.k * x.loading.m) = false ∧ s.dev.banksTested x.src.2.1 (4 * x.loading.m) = false ∧ s.dev.banksTested x.src.2.2 (4 * x.loading.m) = false)
    ∧ (s.mem.depotErr = [])
    ∧ (st s 29 = false)
    ∧ (¬(List.map (fun (i : Int) => w32 (i % ↑(2 ^ 32)).toNat) y.colSums = y.sums ∧ y.groups.any (badScale x.loading.scaleKind) = false))) := by decide +kernel

/-- `Obligations.ProjectionsLoadAndRun`, part 2. -/
theorem wit_ProjectionBatchesRun :
    (let s : State := (pb (0) 2 none); let v : Fin 4 := 1; let b : Batch := (bt none); let rest : List Batch := []; let x : Prj := s.dev.prj ↑v;
    (s.runs 4 (2 + ↑v))
    ∧ (x.queue = b :: rest)
    ∧ (b.result = none)
    ∧ (s.dev.prjIsLoading ↑v = false)
    ∧ (bit (s.dev.rd (prjReg R.QNT_PRJ_STATUS ↑v)) 29 = false))
    ∧ (let s : State := (pb (2^29) 2 none); let v : Fin 4 := 1; let b : Batch := (bt none); let rest : List Batch := []; let x : Prj := s.dev.prj ↑v;
    (s.runs 4 (2 + ↑v))
    ∧ (x.queue = b :: rest)
    ∧ (b.result = none)
    ∧ (s.dev.prjIsLoading ↑v = false)
    ∧ (bit (s.dev.rd (prjReg R.QNT_PRJ_STATUS ↑v)) 29 = true)
    ∧ (x.grant = 2)
    ∧ (∀ y ∈ b.vecs, y.vals.length = x.matrix.k))
    ∧ (let s : State := (pb (2^29) 2 (some [[1]])); let v : Fin 4 := 1; let b : Batch := (bt (some [[1]])); let rest : List Batch := []; let x : Prj := s.dev.prj ↑v; let out : List (List Word) := [[1]];
    (s.runs 4 (2 + ↑v))
    ∧ (x.queue = b :: rest)
    ∧ (b.result = some out)
    ∧ (x.waiting = []))
    ∧ (let s : State := ((pb (2^29) 2 none).mapDev fun d => d.setPrj 1 {d.prj 1 with queue := []}); let v : Fin 4 := 1; let x : Prj := s.dev.prj ↑v;
    (s.runs 4 (2 + ↑v))
    ∧ (x.queue = [])
    ∧ (x.grant ≠ 0)) := by decide +kernel

/-- `Obligations.QuantiserJobsRun`, part 2. -/
theorem wit_CodingChannelsReset :
    (let s : State := (rdy.wrs [(decReg R.XCH_DEC_MAP 7, 0x20005)] |>.mapDev fun d => d.setDec 7 {Dec.init with wait := [⟨3, 3, []⟩]}); let m : Master := .transport; let c : Fin 256 := 7; let w : DecWait := { step := 3, ext := 3, val := [] }; let more : List DecWait := [];
    (s.opens m true (encReg R.XCH_ENC_CFG ↑c))
    ∧ (s.opens m true (decReg R.XCH_DEC_CFG ↑c))
    ∧ (s.runs 4 0)
    ∧ ((s.dev.dec ↑c).wait = w :: more)) := by decide +kernel

end Sys2Proof.Tests07

namespace Sys2Proof.Tests08

/-! ### Witnesses: the loader, March tests -/

abbrev B := State.reset
def rdy : State := B.wrs [(R.CLK_STATUS, 0xF), (R.CLK_STATUS, 0xF)]
def Wp (f : World → World) : World := f { World.init with live := true, started := true, step := 6, period := 100, stations := [0], timer := 4, barrier := 77, done := true }
def pl : Plan := { Plan.empty with gridW := 48, gridH := 48, planId := 0x55, worlds := [⟨5, 3, 4, 0, 0, 77, [0], 0⟩] }
def st (n : Nat) (g : Dev → Dev := id) : State := (rdy.wrs [(R.TPL_STATUS, n), (R.TPL_HOLD_SEL, 0x20)]).mapDev fun d => g { d with worlds := [(5, Wp id), (6, Wp fun x => {x with held := true, faulted := true})] }
def jb (n : Nat) (g : Tpl → Tpl) : State := st n fun d => { d with tpl := g { d.tpl with job := some pl, written := true, bad := [0, 3] } }
def mb (n : Nat) (l : List (Nat × Nat)) (g : Dev → Dev := id) : State := (rdy.wrs ([(R.MBT_STATUS, n)] ++ l)).mapDev g
def run (alg : Nat) (stop : Bool) : MarchRun := ⟨3, [1], alg, false, 0, stop⟩
def rn (alg : Nat) (stop : Bool) (n : Nat) : State := mb n [] fun d => {d with mbt := some (run alg stop), now := 1234}
def p1 : Plan := { Plan.empty with gridW := 1, gridH := 1, ranks := [(0, 0)], planId := 0x55 }
def seg : List Byte := wordBytes 1 ++ wordBytes 2 ++ wordBytes 3
def hd0 : List Byte := leBytes 4 0x4C505456 ++ leBytes 2 1 ++ leBytes 2 1 ++ leBytes 8 192 ++ [1, 1] ++ leBytes 2 1 ++ leBytes 4 0 ++ leBytes 4 0x77 ++ List.replicate 32 0
def img : List Byte := hd0 ++ wordBytes (crc32c hd0) ++ [0x23, 0, 0, 0] ++ leBytes 4 2 ++ leBytes 4 12 ++ wordBytes (crc32c seg) ++ List.replicate 48 0 ++ seg
def pt : State := let s := st 6 fun d => { d with tpl := { d.tpl with plan := some p1 }, worlds := [] }; { s with mem := { s.mem with depot := writeBytes zeroByte [] 0 img } }
def tst (s : State) : State := s.mapDev fun d => { d with mbt := some ⟨2, [0], 0, false, 0, false⟩ }.wr R.MBT_STATUS 3

/-- `Obligations.LoaderTakesPlans`, part 2. -/
theorem wit_LoaderTakesImages :
    (let s : State := (st 0); let taken : Nat → Dev := fun (state : Nat) =>   have d := ((((s.dev.tplAccept [s.dev.tplState] id).wr R.TPL_FAIL_COUNT 0).setMap R.TPL_FAIL_MAP []).setMap R.TPL_ACK_MAP []).setTpl state;   { regs := d.regs, mregs := d.mregs, latches := d.latches, compl := d.compl, stnW := d.stnW, stnM := d.stnM, stns := d.stns, worlds := d.worlds, wregs := d.wregs, edgeTab := d.edgeTab, edgeCnt := d.edgeCnt, edgeBuf := d.edgeBuf, injNext := d.injNext, notices := d.notices, packets := d.packets, txns := d.txns, fwait := d.fwait, frtTurn := d.frtTurn, frtServed := d.frtServed, words := d.words, bankHeld := d.bankHeld, accNext := d.accNext, streamers := d.streamers, qnt := d.qnt, prjs := d.prjs, link := d.link, rings := d.rings, encBase := d.encBase, encSt := d.encSt, encCnt := d.encCnt, decs := d.decs, trunks := d.trunks, sys := d.sys,     tpl :=       have __src := d.tpl;       { ranks := __src.ranks, plan := __src.plan, job := __src.job, jobPatch := __src.jobPatch, waitFreight := __src.waitFreight, newRanks := __src.newRanks, oldW := __src.oldW, oldM := __src.oldM, bad := __src.bad, limitHit := __src.limitHit, written := __src.written, failed := __src.failed, imageWait := none, qSeed := __src.qSeed },     cores := d.cores, coreMem := d.coreMem, chn := d.chn, irq := d.irq, timers := d.timers, sdma := d.sdma, sdmaNext := d.sdmaNext, sdmaCpl := d.sdmaCpl, mbt := d.mbt, spares := d.spares, tok := d.tok, vfab := d.vfab, pwr := d.pwr, boot := d.boot, rst := d.rst, locked := d.locked, switches := d.switches, xchWant := d.xchWant, fwu := d.fwu, microcode := d.microcode, training := d.training, jtag := d.jtag, pins := d.pins, araDone := d.araDone, smbUse := d.smbUse, sbclk := d.sbclk, powered := d.powered, fwdClk := d.fwdClk, now := d.now, freeCtr := d.freeCtr }; let tested : Bool := s.dev.banksTested s.dev.tplSrc (max 64 (recNat (s.mem.devBytes s.dev.tplSrc 64) 8 8)); let chk : Nat → Bool → Nat × Plan × Nat := fun (state : Nat) (patch : Bool) => (taken state).checkImage s.nv s.mem patch; let asks : TokReq := { req := rqLoader, cls := 3, cost := s.dev.rd (R.PWR_TOK_COST + 12), at_ := s.dev.now };
    (s.dev.clocked = true)
    ∧ (tested = false)
    ∧ (s.dev.tplState = 0)
    ∧ ((chk 1 false).1 ≠ 0)
    ∧ (s.dev.tokHopeless asks = false ∧ ∀ q ∈ s.dev.tok.queue ++ s.dev.tok.grants, q.req ≠ rqLoader))
    ∧ (let s : State := pt; let taken : Nat → Dev := fun (state : Nat) =>   have d := ((((s.dev.tplAccept [s.dev.tplState] id).wr R.TPL_FAIL_COUNT 0).setMap R.TPL_FAIL_MAP []).setMap R.TPL_ACK_MAP []).setTpl state;   { regs := d.regs, mregs := d.mregs, latches := d.latches, compl := d.compl, stnW := d.stnW, stnM := d.stnM, stns := d.stns, worlds := d.worlds, wregs := d.wregs, edgeTab := d.edgeTab, edgeCnt := d.edgeCnt, edgeBuf := d.edgeBuf, injNext := d.injNext, notices := d.notices, packets := d.packets, txns := d.txns, fwait := d.fwait, frtTurn := d.frtTurn, frtServed := d.frtServed, words := d.words, bankHeld := d.bankHeld, accNext := d.accNext, streamers := d.streamers, qnt := d.qnt, prjs := d.prjs, link := d.link, rings := d.rings, encBase := d.encBase, encSt := d.encSt, encCnt := d.encCnt, decs := d.decs, trunks := d.trunks, sys := d.sys,     tpl :=       have __src := d.tpl;       { ranks := __src.ranks, plan := __src.plan, job := __src.job, jobPatch := __src.jobPatch, waitFreight := __src.waitFreight, newRanks := __src.newRanks, oldW := __src.oldW, oldM := __src.oldM, bad := __src.bad, limitHit := __src.limitHit, written := __src.written, failed := __src.failed, imageWait := none, qSeed := __src.qSeed },     cores := d.cores, coreMem := d.coreMem, chn := d.chn, irq := d.irq, timers := d.timers, sdma := d.sdma, sdmaNext := d.sdmaNext, sdmaCpl := d.sdmaCpl, mbt := d.mbt, spares := d.spares, tok := d.tok, vfab := d.vfab, pwr := d.pwr, boot := d.boot, rst := d.rst, locked := d.locked, switches := d.switches, xchWant := d.xchWant, fwu := d.fwu, microcode := d.microcode, training := d.training, jtag := d.jtag, pins := d.pins, araDone := d.araDone, smbUse := d.smbUse, sbclk := d.sbclk, powered := d.powered, fwdClk := d.fwdClk, now := d.now, freeCtr := d.freeCtr }; let tested : Bool := s.dev.banksTested s.dev.tplSrc (max 64 (recNat (s.mem.devBytes s.dev.tplSrc 64) 8 8)); let chk : Nat → Bool → Nat × Plan × Nat := fun (state : Nat) (patch : Bool) => (taken state).checkImage s.nv s.mem patch; let asks : TokReq := { req := rqLoader, cls := 3, cost := s.dev.rd (R.PWR_TOK_COST + 12), at_ := s.dev.now };
    (s.dev.clocked = true)
    ∧ (tested = false)
    ∧ (s.dev.tplState = 6)
    ∧ ((chk 7 true).1 = 0)
    ∧ (s.dev.tokHopeless asks = false ∧ ∀ q ∈ s.dev.tok.queue ++ s.dev.tok.grants, q.req ≠ rqLoader))
    ∧ (let s : State := (st 6); let taken : Nat → Dev := fun (state : Nat) =>   have d := ((((s.dev.tplAccept [s.dev.tplState] id).wr R.TPL_FAIL_COUNT 0).setMap R.TPL_FAIL_MAP []).setMap R.TPL_ACK_MAP []).setTpl state;   { regs := d.regs, mregs := d.mregs, latches := d.latches, compl := d.compl, stnW := d.stnW, stnM := d.stnM, stns := d.stns, worlds := d.worlds, wregs := d.wregs, edgeTab := d.edgeTab, edgeCnt := d.edgeCnt, edgeBuf := d.edgeBuf, injNext := d.injNext, notices := d.notices, packets := d.packets, txns := d.txns, fwait := d.fwait, frtTurn := d.frtTurn, frtServed := d.frtServed, words := d.words, bankHeld := d.bankHeld, accNext := d.accNext, streamers := d.streamers, qnt := d.qnt, prjs := d.prjs, link := d.link, rings := d.rings, encBase := d.encBase, encSt := d.encSt, encCnt := d.encCnt, decs := d.decs, trunks := d.trunks, sys := d.sys,     tpl :=       have __src := d.tpl;       { ranks := __src.ranks, plan := __src.plan, job := __src.job, jobPatch := __src.jobPatch, waitFreight := __src.waitFreight, newRanks := __src.newRanks, oldW := __src.oldW, oldM := __src.oldM, bad := __src.bad, limitHit := __src.limitHit, written := __src.written, failed := __src.failed, imageWait := none, qSeed := __src.qSeed },     cores := d.cores, coreMem := d.coreMem, chn := d.chn, irq := d.irq, timers := d.timers, sdma := d.sdma, sdmaNext := d.sdmaNext, sdmaCpl := d.sdmaCpl, mbt := d.mbt, spares := d.spares, tok := d.tok, vfab := d.vfab, pwr := d.pwr, boot := d.boot, rst := d.rst, locked := d.locked, switches := d.switches, xchWant := d.xchWant, fwu := d.fwu, microcode := d.microcode, training := d.training, jtag := d.jtag, pins := d.pins, araDone := d.araDone, smbUse := d.smbUse, sbclk := d.sbclk, powered := d.powered, fwdClk := d.fwdClk, now := d.now, freeCtr := d.freeCtr }; let tested : Bool := s.dev.banksTested s.dev.tplSrc (max 64 (recNat (s.mem.devBytes s.dev.tplSrc 64) 8 8)); let chk : Nat → Bool → Nat × Plan × Nat := fun (state : Nat) (patch : Bool) => (taken state).checkImage s.nv s.mem patch;
    (s.dev.clocked = true)
    ∧ (tested = false)
    ∧ (s.dev.tplState = 6)
    ∧ ((chk 7 true).1 ≠ 0))
    ∧ (let s : State := (tst (st 0)); let tested : Bool := s.dev.banksTested s.dev.tplSrc (max 64 (recNat (s.mem.devBytes s.dev.tplSrc 64) 8 8));
    (s.dev.clocked = true)
    ∧ (tested = true)
    ∧ (s.dev.tplState = 0))
    ∧ (let s : State := (tst (st 6)); let tested : Bool := s.dev.banksTested s.dev.tplSrc (max 64 (recNat (s.mem.devBytes s.dev.tplSrc 64) 8 8));
    (s.dev.clocked = true)
    ∧ (tested = true)
    ∧ (s.dev.tplState = 6)) := by decide +kernel

/-- `Obligations.LoaderRunsPlans`, part 1. -/
theorem wit_LoaderRoundsEnd :
    (let s : State := (jb 0x7 fun t => {t with jobPatch := true, newRanks := some [1, 0], bad := []}); let p : Plan := pl; let bad : List Nat := []; let left : List Nat := List.filter (fun (r : Nat) => bad.contains r || (p.changed s.mem (p.ackRanks s.nv)).contains r || s.dev.tpl.failed.contains r) s.dev.tpl.bad; let rs : List Nat := [1, 0]; let patch : Bool := s.dev.tpl.jobPatch;
    (s.dev.clocked = true)
    ∧ (s.dev.tpl.job = some p)
    ∧ (s.dev.tpl.written = true)
    ∧ (s.dev.loadFlying = false)
    ∧ (left = [])
    ∧ (s.dev.tpl.newRanks = some rs)
    ∧ (patch = true)
    ∧ (s.dev.tpl.bad = [])
    ∧ (s.dev.txns = []))
    ∧ (let s : State := (jb 2 id); let p : Plan := pl; let bad : List Nat := [3]; let round : State → Nat := fun (u : State) => u.dev.f R.TPL_STATUS 4 2; let left : List Nat := List.filter (fun (r : Nat) => bad.contains r || (p.changed s.mem (p.ackRanks s.nv)).contains r || s.dev.tpl.failed.contains r) s.dev.tpl.bad;
    (s.dev.clocked = true)
    ∧ (s.dev.tpl.job = some p)
    ∧ (s.dev.tpl.written = true)
    ∧ (s.dev.loadFlying = false)
    ∧ (left ≠ [])
    ∧ (round s ≠ 3)
    ∧ (s.dev.tplState = 1 ∨ s.dev.tplState = 2))
    ∧ (let s : State := (jb 0x2 id); let p : Plan := pl; let bad : List Nat := []; let left : List Nat := List.filter (fun (r : Nat) => bad.contains r || (p.changed s.mem (p.ackRanks s.nv)).contains r || s.dev.tpl.failed.contains r) s.dev.tpl.bad; let patch : Bool := s.dev.tpl.jobPatch;
    (s.dev.clocked = true)
    ∧ (s.dev.tpl.job = some p)
    ∧ (s.dev.tpl.written = true)
    ∧ (s.dev.loadFlying = false)
    ∧ (left = [])
    ∧ (s.dev.tpl.newRanks = none)
    ∧ (p.flags.testBit 1 = false ∨ patch = true))
    ∧ (let s : State := (jb 0x32 id); let p : Plan := pl; let bad : List Nat := [3]; let round : State → Nat := fun (u : State) => u.dev.f R.TPL_STATUS 4 2; let left : List Nat := List.filter (fun (r : Nat) => bad.contains r || (p.changed s.mem (p.ackRanks s.nv)).contains r || s.dev.tpl.failed.contains r) s.dev.tpl.bad;
    (s.dev.clocked = true)
    ∧ (s.dev.tpl.job = some p)
    ∧ (s.dev.tpl.written = true)
    ∧ (s.dev.loadFlying = false)
    ∧ (left ≠ [])
    ∧ (round s = 3)) := by decide +kernel

/-- `Obligations.LoaderRunsPlans`, part 2. -/
theorem wit_LoaderRunsPlans :
    (let s : State := (st 5); let st : Nat := s.dev.tplState;
    (s.dev.clocked = true)
    ∧ (st = 5 ∨ st = 6)
    ∧ (st = 3 ∨ st = 4 ∨ st = 5 ∨ st = 6 ∨ st = 8)
    ∧ (st = 5 ∨ st = 8)
    ∧ (st = 5)
    ∧ (s.dev.heldWorlds.all s.dev.drained = true)
    ∧ (s.dev.tpl.limitHit = false)
    ∧ (s.dev.rd R.TPL_DRAIN_LIMIT ≠ 0))
    ∧ (let s : State := (st 3); let st : Nat := s.dev.tplState;
    (s.dev.clocked = true)
    ∧ (st = 3))
    ∧ (let s : State := (st 4); let st : Nat := s.dev.tplState;
    (s.dev.clocked = true)
    ∧ (st = 4 ∨ st = 6))
    ∧ (let s : State := (st 8); let st : Nat := s.dev.tplState;
    (s.dev.clocked = true)
    ∧ (st = 8)
    ∧ (s.dev.tpl.limitHit = false)
    ∧ (s.dev.liveIds.all s.dev.drained = true)) := by decide +kernel

/-- `Obligations.MarchRunsProceed`. -/
theorem wit_MarchRunsProceed :
    (let s : State := (rn 0 true 3); let st : Nat := s.dev.mbtState; let r : MarchRun := run 0 true;
    (s.dev.clocked = true)
    ∧ (st ≠ 0)
    ∧ (s.dev.mbt = some r)
    ∧ (s.dev.words = [])
    ∧ (s.dev.tpl.imageWait = none)
    ∧ (s.dev.qntState < 3)
    ∧ (st < 3 ∨ r.alg ≠ 1)
    ∧ (3 ≤ st)
    ∧ (r.stopping = true))
    ∧ (let s : State := (rn 1 false 3); let st : Nat := s.dev.mbtState; let r : MarchRun := run 1 false;
    (s.dev.clocked = true)
    ∧ (s.dev.mbt = some r)
    ∧ (s.dev.words = [])
    ∧ (s.dev.tpl.imageWait = none)
    ∧ (s.dev.qntState < 3)
    ∧ (3 ≤ st)
    ∧ (r.alg = 1)
    ∧ (r.stopping = false))
    ∧ (let s : State := (mb 0 [(R.MBT_CFG, 0x2000000)]); let st : Nat := s.dev.mbtState;
    (s.dev.clocked = true)
    ∧ (st = 0)
    ∧ (s.dev.mbtUnits s.nv = none))
    ∧ (let s : State := (mb 0 [(R.MBT_CFG, 0x3000000), (R.MBT_SEL, 2)]); let st : Nat := s.dev.mbtState; let asks : TokReq := { req := rqMarch, cls := 5, cost := s.dev.rd (R.PWR_TOK_COST + 20), at_ := s.dev.now }; let us : List Nat := [1];
    (s.dev.clocked = true)
    ∧ (st = 0)
    ∧ (s.dev.mbtUnits s.nv = some us)
    ∧ (s.dev.mbtAllowed us = true)
    ∧ (s.dev.tokHopeless asks = false)
    ∧ (∀ q ∈ s.dev.tok.queue ++ s.dev.tok.grants, q.req ≠ rqMarch))
    ∧ (let s : State := (mb 0 [(R.MBT_CFG, 0x3000000), (R.MBT_SEL, 2), (R.TPL_STATUS, 4)]); let st : Nat := s.dev.mbtState; let us : List Nat := [1];
    (s.dev.clocked = true)
    ∧ (st = 0)
    ∧ (s.dev.mbtUnits s.nv = some us)
    ∧ (s.dev.mbtAllowed us = false)) := by decide +kernel

end Sys2Proof.Tests08

namespace Sys2Proof.Tests09

/-! ### Witnesses: resets, bring-up -/

abbrev B := State.reset
def rdy : State := B.wrs [(R.CLK_STATUS, 0xF), (R.CLK_STATUS, 0xF)]
def rs (l : List (Nat × Nat)) (g : Dev → Dev := id) : State := (rdy.wrs ((R.SYS_TOPO_SRC, 0x80000000) :: l)).mapDev fun d => g { d with worlds := [(5, { World.init with live := true, stations := [0] })], now := 77 }
def rp (code : Nat) : StageReport := { code := BitVec.ofNat _ code, locks := 15, hung := 0, denied := false, fails := [], migrated := true, unrepaired := [], train := ⟨0, 0, 0, 0⟩, chFitted := 0, chTrained := 0, density := 0, mode := 0, trkPartner := 0, trkTrained := 0, time := 99 }
def tp0 (d : Dev) : List Byte := leBytes 4 0x4F504F54 ++ leBytes 2 1 ++ leBytes 1 (d.f R.DRM_CFG 31 1) ++ [0] ++ leBytes 2 (d.f R.SYS_ORDER 0 16) ++ leBytes 1 (d.f R.SYS_GRID 8 8) ++ leBytes 1 (d.f R.SYS_GRID 0 8) ++ wordBytes (d.rd R.DRM_TRAINED) ++ leBytes 1 (d.f R.DRM_STATUS 8 2) ++ leBytes 1 (d.f R.DRM_STATUS 4 2) ++ [d.boot.partner, 0, 0, 1] ++ List.replicate 38 0
def tp (s : State) : State := { s with dev := { s.dev with sys := { s.dev.sys with topo := tp0 s.dev ++ wordBytes (crc32c (tp0 s.dev)) } } }
def rz (l : List (Nat × Nat)) (g : Dev → Dev := id) : State := rs l g
def rN : State := rz [(R.SYS_BOOT_STAGE, 0x80000009)]
def lkOf (s : State) (r : StageReport) : Word := (s.dev.trainStatus r.train).getD 0
def s4 (l : List (Nat × Nat)) : State := rs ((R.SYS_BOOT_STAGE, 0x10000004) :: l)
def rpT (code : Nat) : StageReport := { rp code with train := ⟨3, 15, 0, 0⟩ }

/-- `Obligations.ResetsTakePlace`, part 1. -/
theorem wit_ResetsTakePlace :
    (let s : State := (rz [(R.SYS_BOOT_STAGE, 0x80000009), (R.SYS_RST_STATUS, 0x80000000)] fun d => { d with rst := { d.rst with kind := 1 } }); let w : Fin 4096 := 0; let flag : State → Nat → Bool := fun (u : State) (i : Nat) => bit (u.dev.rd R.SYS_RST_STATUS) i;
    (s.dev.powered = true)
    ∧ (s.dev.rstWhy 1 ≠ 0)
    ∧ (s.dev.rstWhy 2 ≠ 0)
    ∧ (s.dev.clocked = true ∧ s.dev.link.waitC = [] ∧ s.dev.words = [])
    ∧ (s.dev.rstWhy 3 ≠ 0)
    ∧ ((s.dev.sectionWhy s.nv ↑w).1 ≠ 0)
    ∧ (s.dev.clocked = true)
    ∧ (flag s 31 = true)
    ∧ (s.dev.rst.waiting = false))
    ∧ (let s : State := rN; let src : ResetSource := .sb0; let w : Fin 4096 := 0;
    (s.dev.powered = true)
    ∧ (s.dev.rstWhy 1 = 0)
    ∧ (src ≠ ResetSource.transport)
    ∧ (s.dev.rstWhy 2 = 0)
    ∧ (s.dev.clocked = true ∧ s.dev.link.waitC = [] ∧ s.dev.words = [])
    ∧ (s.dev.rstWhy 3 = 0)
    ∧ (s.dev.trainingNow = false)
    ∧ ((s.dev.sectionWhy s.nv ↑w).1 = 0))
    ∧ (let s : State := rN; let src : ResetSource := .transport;
    (s.dev.powered = true)
    ∧ (s.dev.rstWhy 1 = 0)
    ∧ (src = ResetSource.transport)
    ∧ (s.dev.rstWhy 2 = 0))
    ∧ (let s : State := (rz [(R.SYS_BOOT_STAGE, 0x90000006)]);
    (s.dev.clocked = true ∧ s.dev.link.waitC = [] ∧ s.dev.words = [])
    ∧ (s.dev.rstWhy 3 = 0)
    ∧ (s.dev.trainingNow = true)) := by decide +kernel

/-- `Obligations.DepotContentsKept`. -/
theorem wit_DepotContentsKept :
    (let s : State := (rs [(R.SYS_BOOT_STAGE, 0x10000003)]); let r : StageReport := (rp 0);
    (s.dev.clocked = true)
    ∧ (s.dev.link.waitC = [])
    ∧ (s.dev.stage = 3)
    ∧ (s.dev.stageRunning = true)
    ∧ (s.dev.stageBlocked = false)
    ∧ (s.dev.boot.rerun = none)
    ∧ (s.dev.rst.waiting = false)
    ∧ (physical 3 r.code.toNat = 0)
    ∧ (r.unrepaired = [])
    ∧ ((s.dev.sramMarch r).1 = true)) := by decide +kernel

/-- `Obligations.BringUpProceeds`, part 1. -/
theorem wit_BringUpCommandsAct :
    (let s : State := (rz [(R.SYS_BOOT_STAGE, 0x20000003)]); let n : BitVec 4 := 4; let next : Nat := s.dev.stage + 1; let k : Nat := n.toNat;
    (s.dev.clocked = true)
    ∧ (s.dev.stage < 9 ∨ s.dev.stageWaits = false)
    ∧ (s.dev.resetting = false)
    ∧ (s.dev.stageWaits = true)
    ∧ (next = 6 → s.dev.tokHopeless { req := rqTrain, cls := 4, cost := s.dev.rd (R.PWR_TOK_COST + 16), at_ := s.dev.now } = false)
    ∧ (s.dev.bootReady = false)
    ∧ (s.dev.stageFailed = false)
    ∧ (s.dev.resetting = true ∨ s.dev.stageFailed = false ∨ s.dev.stage < 4)
    ∧ (s.dev.resetting = true ∨ s.dev.bootReady = false ∨ s.dev.stageRunning = true ∨ k ≠ 4 ∧ k ≠ 6 ∧ k ≠ 7))
    ∧ (let s : State := (rz [(R.SYS_BOOT_STAGE, 0x80000009)]); let n : BitVec 4 := 7; let v : Bool := true; let k : Nat := n.toNat;
    (s.dev.clocked = true)
    ∧ (s.dev.stage < 9 ∨ s.dev.stageWaits = false)
    ∧ (s.dev.resetting = true ∨ s.dev.stageWaits = false)
    ∧ (s.dev.resetting = true ∨ s.dev.bootReady = true ∨ s.dev.stageFailed = true)
    ∧ (s.dev.resetting = false)
    ∧ (s.dev.bootReady = true)
    ∧ (s.dev.stageRunning = false)
    ∧ (k = 4 ∨ k = 6 ∨ k = 7)
    ∧ (k = 6 → s.dev.tokHopeless { req := rqTrain, cls := 4, cost := s.dev.rd (R.PWR_TOK_COST + 16), at_ := s.dev.now } = false)
    ∧ (v = false ∨ s.dev.stageWaits = false))
    ∧ (let s : State := (rz [(R.SYS_BOOT_STAGE, 0x10000005)]);
    (s.dev.clocked = true)
    ∧ (s.dev.stage < 9 ∨ s.dev.stageWaits = false)
    ∧ (s.dev.resetting = false)
    ∧ (s.dev.bootReady = false)
    ∧ (s.dev.stageFailed = false)
    ∧ (s.dev.stageWaits = false))
    ∧ (let s : State := (rz [(R.SYS_BOOT_STAGE, 0x40000004)]);
    (s.dev.clocked = true)
    ∧ (s.dev.stage < 9 ∨ s.dev.stageWaits = false)
    ∧ (s.dev.resetting = false)
    ∧ (s.dev.stageFailed = true)
    ∧ (4 ≤ s.dev.stage)
    ∧ (s.dev.stage ≤ 9)
    ∧ (s.dev.stage = 6 → s.dev.tokHopeless { req := rqTrain, cls := 4, cost := s.dev.rd (R.PWR_TOK_COST + 16), at_ := s.dev.now } = false)) := by decide +kernel

/-- `Obligations.BringUpProceeds`, part 2. -/
theorem wit_StagesEnd :
    (let s : State := (s4 []); let r : StageReport := (rpT 2); let v : Word := 7; let st : Nat := s.dev.stage; let lk : Word := lkOf (s4 []) (rpT 2);
    (s.dev.clocked = true)
    ∧ (s.dev.stageRunning = true ∧ s.dev.stageBlocked = false ∧ s.dev.boot.rerun = none ∧ s.dev.rst.waiting = false ∧ s.dev.link.waitC = [])
    ∧ (st = 4)
    ∧ (s.dev.trainStatus r.train = some lk)
    ∧ (r.code.toNat = 2)
    ∧ (s.dev.stageRunning = true)
    ∧ (s.dev.rst.waiting = false)
    ∧ (BitVec.getLsbD v 0 = true ∨ BitVec.getLsbD v 1 = true ∨ BitVec.getLsbD v 2 = true))
    ∧ (let s : State := (s4 [(R.CLK_MON, 0x7F)]); let r : StageReport := (rpT 0); let st : Nat := s.dev.stage; let lk : Word := lkOf (s4 []) (rpT 0);
    (s.dev.clocked = true)
    ∧ (s.dev.stageRunning = true ∧ s.dev.stageBlocked = false ∧ s.dev.boot.rerun = none ∧ s.dev.rst.waiting = false ∧ s.dev.link.waitC = [])
    ∧ (st = 4)
    ∧ (s.dev.trainStatus r.train = some lk)
    ∧ (r.code.toNat ≠ 2)
    ∧ (bit (s.dev.rd R.CLK_MON) (clkSource 0 0) = true))
    ∧ (let s : State := (rs [(R.SYS_BOOT_STAGE, 0x10000001)]); let r : StageReport := (rp 1); let st : Nat := s.dev.stage; let code : Nat := physical st r.code.toNat;
    (s.dev.clocked = true)
    ∧ (s.dev.stageRunning = true ∧ s.dev.stageBlocked = false ∧ s.dev.boot.rerun = none ∧ s.dev.rst.waiting = false ∧ s.dev.link.waitC = [])
    ∧ (code ≠ 0))
    ∧ (let s : State := (rs [(R.SYS_BOOT_STAGE, 0x10000001)]); let r : StageReport := (rp 2); let st : Nat := s.dev.stage; let code : Nat := physical st r.code.toNat;
    (s.dev.clocked = true)
    ∧ (s.dev.stageRunning = true ∧ s.dev.stageBlocked = false ∧ s.dev.boot.rerun = none ∧ s.dev.rst.waiting = false ∧ s.dev.link.waitC = [])
    ∧ (st = 1)
    ∧ (code = 0))
    ∧ (let s : State := (rs [(R.SYS_BOOT_STAGE, 0x10000004)]); let r : StageReport := (rp 3); let st : Nat := s.dev.stage;
    (s.dev.clocked = true)
    ∧ (s.dev.stageRunning = true ∧ s.dev.stageBlocked = false ∧ s.dev.boot.rerun = none ∧ s.dev.rst.waiting = false ∧ s.dev.link.waitC = [])
    ∧ (st = 4)
    ∧ (s.dev.trainStatus r.train = none))
    ∧ (let s : State := (rs [(R.SYS_BOOT_STAGE, 0x80000009)]);
    (s.dev.clocked = true)
    ∧ (s.dev.stageRunning = false))
    ∧ (let s : State := (tp (rs [(R.SYS_BOOT_STAGE, 0x10000009)])); let st : Nat := s.dev.stage;
    (s.dev.clocked = true)
    ∧ (s.dev.stageRunning = true ∧ s.dev.stageBlocked = false ∧ s.dev.boot.rerun = none ∧ s.dev.rst.waiting = false ∧ s.dev.link.waitC = [])
    ∧ (st = 9)
    ∧ (s.dev.isManager = true → 2 ≤ s.dev.sysSize → s.dev.formed = true)
    ∧ ((s.dev.topoCheck (some s.dev.sys.topo)).1 = 0)) := by decide +kernel

/-- With no entry in SYS_CENSUS_BAD, no row has an unusable station. -/
theorem keptRows_of_none (d : Dev) (h : ∀ i, i < 64 → bit (d.rd (R.SYS_CENSUS_BAD + 4 * i)) 31 = false) : d.keptRows.length = 50 := by
  have hb : ∀ y, d.badIn y = [] := by
    intro y
    unfold Dev.badIn
    rw [List.filter_eq_nil_iff]
    intro x _ hx
    obtain ⟨i, hi, hv⟩ := List.any_eq_true.mp hx
    simp [h i (List.mem_range.mp hi)] at hv
  have f : (fun y => decide ((d.badIn y).length ≤ 2)) = fun _ => true := funext fun y => by rw [hb]; rfl
  unfold Dev.keptRows
  rw [f]; decide

/-- Three rows with more than two unusable stations leave fewer than 48. -/
theorem keptRows_short (d : Dev) (h : ∀ y, y < 3 → 2 < (d.badIn y).length) : d.keptRows.length < 48 := by
  have e : List.range 50 = 0 :: 1 :: 2 :: (List.range 47).map (· + 3) := by decide
  have f : ∀ y, y < 3 → decide ((d.badIn y).length ≤ 2) = false := fun y hy => decide_eq_false (Nat.not_le.mpr (h y hy))
  unfold Dev.keptRows
  rw [e, List.filter_cons, List.filter_cons, List.filter_cons, f 0 (by decide), f 1 (by decide), f 2 (by decide)]
  exact Nat.lt_of_le_of_lt (List.length_filter_le ..) (by decide)

/-- `Obligations.BringUpProceeds`, part 2.  The two clauses of stage 8: a full census, and one that leaves too few rows. -/
theorem wit_StagesEnd_census :
    (let s := rs [(R.SYS_BOOT_STAGE, 0x10000008)]
     s.dev.clocked = true ∧ (s.dev.stageRunning = true ∧ s.dev.stageBlocked = false ∧ s.dev.boot.rerun = none ∧ s.dev.rst.waiting = false
       ∧ s.dev.link.waitC = [])
     ∧ s.dev.stage = 8 ∧ 48 ≤ s.dev.keptRows.length ∧ s.dev.boot.all = false)
    ∧ (let s := (rs [(R.SYS_BOOT_STAGE, 0x10000008)]).wrs ((List.range 12).map fun i => (R.SYS_CENSUS_BAD + 4 * i, 0x80000000 + i / 4 * 256 + i % 4 * 3))
     s.dev.clocked = true ∧ (s.dev.stageRunning = true ∧ s.dev.stageBlocked = false ∧ s.dev.boot.rerun = none ∧ s.dev.rst.waiting = false
       ∧ s.dev.link.waitC = [])
     ∧ s.dev.stage = 8 ∧ s.dev.keptRows.length < 48) := by
  refine ⟨⟨by decide +kernel, by decide +kernel, by decide +kernel, ?_, by decide +kernel⟩,
    ⟨by decide +kernel, by decide +kernel, by decide +kernel, ?_⟩⟩
  · rw [keptRows_of_none _ (by decide +kernel)]; decide
  · exact keptRows_short _ (by decide +kernel)


end Sys2Proof.Tests09

namespace Sys2Proof.Tests10

/-! ### Witnesses: firmware and security -/

abbrev B := State.reset
def rdy : State := B.wrs [(R.CLK_STATUS, 0xF), (R.CLK_STATUS, 0xF)]
def fs (l : List (Nat × Nat)) (g : State → State := id) : State := g (rdy.wrs l)
def nvs (b : BootRec) : State → State := fun s => { s with nv := s.nv.setBoot b }
def b0 : BootRec := { BootRec.default with active := 0 }
def sb0 : List Byte := leBytes 4 0x54455356 ++ leBytes 2 0 ++ leBytes 2 0 ++ leBytes 4 32 ++ leBytes 4 7 ++ List.replicate 16 0
def sblk : List Byte := sb0.take 28 ++ wordBytes (crc32c sb0)
def sbS : State := let s := fs [] (nvs (b0.updSlot 0 fun x => {x with state := 1, region := 0, sver := 0})); { s with mem := { s.mem with depot := writeBytes zeroByte [] 0 sblk } }
def cardNo : SdCard := ⟨true, true, none, false⟩
def fs2 (c : SdCard) : State := (fs [(R.FWU_SOURCE, 1), (R.FWU_STATUS, 2)]).mapDev fun d => { d with fwu := { d.fwu with card := some c } }
def img16 : List Byte := leBytes 8 0 ++ leBytes 8 16
def sbT : State := (sbS.wrs [(R.MBT_STATUS, 3)]).mapDev fun d => { d with mbt := some ⟨2, [0], 0, false, 0, false⟩ }

/-- `Obligations.FirmwareChangesSlots`, part 1. -/
theorem wit_FirmwareSessionsRun :
    (let s : State := (fs [(R.FWU_STATUS, 3)]); let route : Nat := s.dev.f R.FWU_SOURCE 0 1;
    (s.dev.clocked = true)
    ∧ (s.dev.fwuState ≠ 0 ∨ route ≠ 0)
    ∧ (s.dev.fwuState ≠ 0 ∨ route ≠ 1)
    ∧ (s.dev.fwuState ≠ 0)
    ∧ (s.dev.fwuState ≠ 5)
    ∧ (s.dev.fwuState = 3)
    ∧ (fwuVerify s.nv s.dev ≠ 0)
    ∧ (s.dev.fwu.running < 2))
    ∧ (let s : State := (fs []); let route : Nat := s.dev.f R.FWU_SOURCE 0 1;
    (s.dev.clocked = true)
    ∧ (s.dev.fwuState = 0)
    ∧ (route = 0)
    ∧ (¬(s.nv.bootRec.slot s.dev.fwu.running).state = sPending)
    ∧ (s.dev.fwuState = 0 ∨ s.dev.fwuState = 5))
    ∧ (let s : State := (fs2 cardNo); let card : SdCard := cardNo; let whole : Bool := card.answers && card.fat32 && !card.readError && Option.any (fun (bs : List Byte) => decide (12 ≤ bs.length ∧ bs.length = recNat bs 8 4)) card.file;
    (s.dev.clocked = true)
    ∧ (s.dev.fwuState = 2)
    ∧ (s.dev.fwu.card = some card)
    ∧ (whole = false))
    ∧ (let s : State := (fs [(R.FWU_SOURCE, 1)]); let route : Nat := s.dev.f R.FWU_SOURCE 0 1;
    (s.dev.clocked = true)
    ∧ (s.dev.fwuState = 0)
    ∧ (route = 1)
    ∧ (¬(s.nv.bootRec.slot s.dev.fwu.running).state = sPending))
    ∧ (let s : State := (fs2 ⟨true, true, some img16, false⟩); let card : SdCard := ⟨true, true, some img16, false⟩; let whole : Bool := card.answers && card.fat32 && !card.readError && Option.any (fun (bs : List Byte) => decide (12 ≤ bs.length ∧ bs.length = recNat bs 8 4)) card.file; let bs : List Byte := img16;
    (s.dev.clocked = true)
    ∧ (s.dev.fwuState = 2)
    ∧ (s.dev.fwu.card = some card)
    ∧ (whole = true)
    ∧ (card.file = some bs)
    ∧ (s.dev.fwu.erased = 0)
    ∧ (fwuVerify (fwuGather s.nv s.dev slotBlocks).1 (fwuGather s.nv s.dev slotBlocks).2 ≠ 0))
    ∧ (let s : State := (fs [] (nvs (b0.updSlot 0 fun x => {x with state := 1}))); let route : Nat := s.dev.f R.FWU_SOURCE 0 1;
    (s.dev.clocked = true)
    ∧ (s.dev.fwuState = 0)
    ∧ (route = 0)
    ∧ ((s.nv.bootRec.slot s.dev.fwu.running).state = sPending)) := by decide +kernel

/-- `Obligations.FirmwareChangesSlots`, part 2. -/
theorem wit_SlotsChangeState :
    (let s : State := (fs [] fun s => {s with dev := {s.dev with fwu := {s.dev.fwu with watched := true}}}); let k : Fin 16 := 3; let v : Word := 0; let slot : State → Nat → SlotRec := fun (u : State) (k : Nat) => u.nv.bootRec.slot k; let run : Nat := s.dev.fwu.running; let key : BitVec 256 := BitVec.ofNat 256 (leNat (s.dev.hashAt R.FWU_CUSTKEY)); let block : Option (Nat × Nat × List Byte) := settingsIn (s.mem.depotBytes (s.dev.f R.FWU_SET_SRC 0 24) (max 32 (min 1048576 (leNat (s.mem.depotBytes (s.dev.f R.FWU_SET_SRC 0 24 + 8) 4)))));
    (s.dev.clocked = true)
    ∧ (s.dev.fwu.running < 2)
    ∧ (s.dev.fwuState = 0)
    ∧ (¬(↑k < 2 ∧ (slot s ↑k).state = sGood ∧ ↑k ≠ run ∧ (slot s ↑k).region ≠ 255 ∧ s.nv.rollback ≤ (slot s ↑k).svn))
    ∧ (s.nv.custHash ≠ 0 ∨ key = 0)
    ∧ (block = none)
    ∧ (s.dev.mbt = none)
    ∧ (bit (s.dev.rd R.SYS_BOOT_STAGE) 31 = false ∨ v ≠ 1212498252#32 ∨ (slot s run).state ≠ sPending)
    ∧ (s.dev.fwu.watched = true))
    ∧ (let s : State := sbS; let k : Fin 16 := 1; let slot : State → Nat → SlotRec := fun (u : State) (k : Nat) => u.nv.bootRec.slot k; let run : Nat := s.dev.fwu.running; let block : Option (Nat × Nat × List Byte) := settingsIn (s.mem.depotBytes (s.dev.f R.FWU_SET_SRC 0 24) (max 32 (min 1048576 (leNat (s.mem.depotBytes (s.dev.f R.FWU_SET_SRC 0 24 + 8) 4))))); let ver : Nat := 0; let seq : Nat := 7; let bs : List Byte := sblk;
    (s.dev.clocked = true)
    ∧ (s.dev.fwu.running < 2)
    ∧ (s.dev.fwuState = 0)
    ∧ (↑k < 2 ∧ (slot s ↑k).state = sGood ∧ ↑k ≠ run ∧ (slot s ↑k).region ≠ 255 ∧ s.nv.rollback ≤ (slot s ↑k).svn)
    ∧ (block = some (ver, seq, bs))
    ∧ (s.mem.depotErr = [])
    ∧ (s.dev.mbt = none)
    ∧ (s.dev.f R.FWU_SET_SRC 0 24 + min 1048576 (leNat (s.mem.depotBytes (s.dev.f R.FWU_SET_SRC 0 24 + 8) 4)) ≤ depotSize)
    ∧ ((slot s run).region < 2))
    ∧ (let s : State := (fs [(R.FWU_CUSTKEY, 1), (R.SYS_BOOT_STAGE, 0x80000009)] (nvs (b0.updSlot 0 fun x => {x with state := 1}))); let k : Fin 16 := 0; let v : Word := 0x4845414C; let key : BitVec 256 := BitVec.ofNat 256 (leNat (s.dev.hashAt R.FWU_CUSTKEY)); let slot : State → Nat → SlotRec := fun (u : State) (k : Nat) => u.nv.bootRec.slot k; let run : Nat := s.dev.fwu.running;
    (s.dev.clocked = true)
    ∧ (s.dev.fwu.running < 2)
    ∧ (s.dev.fwuState = 0)
    ∧ (s.nv.custHash = 0)
    ∧ (key ≠ 0)
    ∧ (bit (s.dev.rd R.SYS_BOOT_STAGE) 31 = true)
    ∧ (v = 1212498252#32)
    ∧ ((slot s run).state = sPending)
    ∧ (s.dev.fwu.svn ≤ s.nv.rollback))
    ∧ (let s : State := sbT;
    (s.dev.clocked = true)
    ∧ (s.dev.fwu.running < 2)
    ∧ (s.dev.fwuState = 0)
    ∧ (s.dev.banksTested (s.dev.f R.FWU_SET_SRC 0 24) (max 32 (min 1048576 (leNat (s.mem.depotBytes (s.dev.f R.FWU_SET_SRC 0 24 + 8) 4)))) = true))
    ∧ (let s : State := (sbS.wrs [(R.FWU_STATUS, 5)]);
    (s.dev.clocked = true)
    ∧ (s.dev.fwu.running < 2)
    ∧ (s.dev.fwuState = 5)
    ∧ (s.dev.fwu.setWait = false)) := by decide +kernel

/-- `Obligations.FirmwareChangesSlots`, part 3. -/
theorem wit_AttestationReports :
    (let s : State := (fs [(R.SEC_STATUS, 0x80000000)]); let flag : State → Nat → Bool := fun (u : State) (i : Nat) => bit (u.dev.rd R.SEC_STATUS) i;
    (s.dev.clocked = true)
    ∧ (flag s 31 = true))
    ∧ (let s : State := (fs []); let flag : State → Nat → Bool := fun (u : State) (i : Nat) => bit (u.dev.rd R.SEC_STATUS) i;
    (s.dev.clocked = true)
    ∧ (flag s 31 = false)) := by decide +kernel

end Sys2Proof.Tests10

namespace Sys2Proof.Tests11

/-! ### Witnesses: tokens, systems of devices -/

abbrev B := State.reset
def rdy : State := B.wrs [(R.CLK_STATUS, 0xF), (R.CLK_STATUS, 0xF)]
def tk (x : Trunk) (l : List (Nat × Nat)) (g : Dev → Dev := id) : State :=
  (rdy.wrs ([(trk R.TRK_STATUS 2, 0x80000000), (trk R.TRK_STATUS 3, 0xA0000000)] ++ l)).mapDev fun d => g (d.setTrunk 2 x)
def msk : List (Nat × Nat) := [(R.TRK_SW + 8*5, 0x21)]
def W0 : World := { World.init with live := true, started := true, step := 6, ext := 6, period := 100, stations := [0], nextB := 1, timer := 4, barrier := 77, bankEmpty := true, done := false, cfg := 0x40, inputOpen := true }
def tok (kind : Nat) (f : Token → Token := id) : Token := f { kind := kind, sdev := 5, ddev := 0, world := 5, flags := 0, step := 6, round := 3, a := 7, b := 8, c := 0x00103209, d := 0 }
def ts (t : Token) (l : List (Nat × Nat) := []) (x : World → World := id) (g : Dev → Dev := id) : State :=
  tk { Trunk.init with inT := [(t, true), (t, false)] } (msk ++ [(R.TRK_ROUTE + 20, 0x80000003), (R.TRK_SYS, 0x80000002)] ++ l) fun d => g { d with worlds := [(5, x W0)] }
def at2 (t : Token) : List (Token × Bool) := [(t, false)]
def t6 := tok 6 fun t => {t with step := 7}
def t10 := tok 10 fun t => {t with ddev := 5}
def ss (l : List (Nat × Nat)) (g : Dev → Dev := id) : State := tk Trunk.init l g
def mo : State := ts (tok 13)
def mc : Copy := modCopy 5 6 7 false
def moF : State := ts (tok 13) [(R.XCH_EDGE_DEF, 0x80000001)] id fun d => d.setBuf 0 3 mc.vc [mc, mc, mc, mc]

/-- `Obligations.SystemsRunTogether`, part 1. -/
theorem wit_TokensTakeEffect :
    (let s : State := (ts t10); let k : Fin 8 := 2; let j : Fin 8 := 3; let t : Token := t10; let last : Bool := true; let rest : List (Token × Bool) := (at2 t10); let w : Fin 4096 := 5;
    (s.runs 2 ↑k)
    ∧ ((s.dev.trunk ↑k).inT = (t, last) :: rest)
    ∧ (t.world = ↑w)
    ∧ (t.kind = 10)
    ∧ (¬t.ddev = s.dev.device)
    ∧ (s.dev.orphan = false)
    ∧ (s.dev.formed = true)
    ∧ (s.dev.route t.ddev = some ↑j)
    ∧ (s.dev.trunkUp s.nv ↑j = true ∧ s.dev.trunkHeld s.nv ↑j = true ∧ (s.dev.trunk ↑j).wait = [] ∧ PMap.get laneSize (s.dev.trunk ↑j).credit 4 ≠ 0 ∧ (s.dev.trunk ↑j).held.length < 1024))
    ∧ (let s : State := mo; let k : Fin 8 := 2; let t : Token := (tok 13); let last : Bool := true; let rest : List (Token × Bool) := (at2 (tok 13)); let w : Fin 4096 := 5; let x : World := s.dev.wld ↑w; let c : Copy := modCopy (↑w) t.step (BitVec.ofNat 16 (fld t.a 0 16)) (bit t.a 16); let d : Dev := (mo.dev.injectCopy mo.nv mc).getD mo.dev;
    (s.runs 2 ↑k)
    ∧ ((s.dev.trunk ↑k).inT = (t, last) :: rest)
    ∧ (t.world = ↑w)
    ∧ (t.kind = 13)
    ∧ (t.ddev = s.dev.device)
    ∧ (s.dev.member ↑w = true)
    ∧ (x.live = true)
    ∧ (x.started = true)
    ∧ (x.passed t.step = false)
    ∧ (s.dev.injectCopy s.nv c = some d))
    ∧ (let s : State := moF; let k : Fin 8 := 2; let t : Token := (tok 13); let last : Bool := true; let rest : List (Token × Bool) := (at2 (tok 13)); let w : Fin 4096 := 5; let x : World := s.dev.wld ↑w; let c : Copy := modCopy (↑w) t.step (BitVec.ofNat 16 (fld t.a 0 16)) (bit t.a 16);
    (s.runs 2 ↑k)
    ∧ ((s.dev.trunk ↑k).inT = (t, last) :: rest)
    ∧ (t.world = ↑w)
    ∧ (t.kind = 13)
    ∧ (t.ddev = s.dev.device)
    ∧ (s.dev.member ↑w = true)
    ∧ (x.live = true)
    ∧ (x.started = true)
    ∧ (x.passed t.step = false)
    ∧ (s.dev.injectCopy s.nv c = none))
    ∧ (let s : State := (ts (tok 1)); let k : Fin 8 := 2; let t : Token := (tok 1); let last : Bool := true; let rest : List (Token × Bool) := (at2 (tok 1)); let w : Fin 4096 := 5;
    (s.runs 2 ↑k)
    ∧ ((s.dev.trunk ↑k).inT = (t, last) :: rest)
    ∧ (t.world = ↑w)
    ∧ (t.kind = 1))
    ∧ (let s : State := (ts (tok 7)); let k : Fin 8 := 2; let j : Fin 8 := 3; let t : Token := (tok 7); let last : Bool := true; let rest : List (Token × Bool) := (at2 (tok 7)); let w : Fin 4096 := 5; let x : World := s.dev.wld ↑w;
    (s.runs 2 ↑k)
    ∧ ((s.dev.trunk ↑k).inT = (t, last) :: rest)
    ∧ (t.world = ↑w)
    ∧ (t.kind = 7)
    ∧ (t.ddev = s.dev.device)
    ∧ (s.dev.member ↑w = true)
    ∧ (x.live = true)
    ∧ (x.passed t.step = false)
    ∧ (s.dev.formed = true)
    ∧ (s.dev.route t.sdev = some ↑j)
    ∧ (s.dev.trunkUp s.nv ↑j = true ∧ s.dev.trunkHeld s.nv ↑j = true ∧ (s.dev.trunk ↑j).wait = [] ∧ PMap.get laneSize (s.dev.trunk ↑j).credit 4 ≠ 0 ∧ (s.dev.trunk ↑j).held.length < 1024))
    ∧ (let s : State := (ts (tok 9)); let k : Fin 8 := 2; let t : Token := (tok 9); let last : Bool := true; let rest : List (Token × Bool) := (at2 (tok 9)); let w : Fin 4096 := 5; let x : World := s.dev.wld ↑w;
    (s.runs 2 ↑k)
    ∧ ((s.dev.trunk ↑k).inT = (t, last) :: rest)
    ∧ (t.world = ↑w)
    ∧ (t.kind = 9)
    ∧ (t.ddev = s.dev.device)
    ∧ (s.dev.member ↑w = true)
    ∧ (x.at_ t.step = true)
    ∧ (x.quiescent = false)
    ∧ (x.skip = false)
    ∧ (x.done = false))
    ∧ (let s : State := (ts (tok 11)); let k : Fin 8 := 2; let t : Token := (tok 11); let last : Bool := true; let rest : List (Token × Bool) := (at2 (tok 11)); let w : Fin 4096 := 5; let x : World := s.dev.wld ↑w;
    (s.runs 2 ↑k)
    ∧ ((s.dev.trunk ↑k).inT = (t, last) :: rest)
    ∧ (t.world = ↑w)
    ∧ (t.kind = 11)
    ∧ (t.ddev = s.dev.device)
    ∧ (s.dev.member ↑w = true)
    ∧ (x.at_ t.step = true)
    ∧ (x.done = false)
    ∧ (x.skip = false))
    ∧ (let s : State := (ts (tok 12)); let k : Fin 8 := 2; let t : Token := (tok 12); let last : Bool := true; let rest : List (Token × Bool) := (at2 (tok 12)); let w : Fin 4096 := 5; let x : World := s.dev.wld ↑w;
    (s.runs 2 ↑k)
    ∧ ((s.dev.trunk ↑k).inT = (t, last) :: rest)
    ∧ (t.world = ↑w)
    ∧ (t.kind = 12)
    ∧ (t.ddev = s.dev.device)
    ∧ (s.dev.member ↑w = true)
    ∧ (x.live = true)
    ∧ (x.passed t.step = false)
    ∧ (x.faulted = false))
    ∧ (let s : State := (ts t6 [] fun x => {x with held := true}); let k : Fin 8 := 2; let t : Token := t6; let last : Bool := true; let rest : List (Token × Bool) := (at2 t6); let w : Fin 4096 := 5; let x : World := s.dev.wld ↑w;
    (s.runs 2 ↑k)
    ∧ ((s.dev.trunk ↑k).inT = (t, last) :: rest)
    ∧ (t.world = ↑w)
    ∧ (t.kind = 6)
    ∧ (t.ddev = s.dev.device)
    ∧ (s.dev.member ↑w = true)
    ∧ (x.live = true)
    ∧ (t.step = if x.started = true then (x.step + 1) % 65536 else 0)
    ∧ (x.held = true))
    ∧ (let s : State := (ts (tok 5) [(R.TRK_SYS, 0x20000002)]); let k : Fin 8 := 2; let t : Token := (tok 5); let last : Bool := true; let rest : List (Token × Bool) := (at2 (tok 5)); let w : Fin 4096 := 5;
    (s.runs 2 ↑k)
    ∧ ((s.dev.trunk ↑k).inT = (t, last) :: rest)
    ∧ (t.world = ↑w)
    ∧ (t.kind = 5)
    ∧ (t.ddev = s.dev.device)
    ∧ (s.dev.isManager = true))
    ∧ (let s : State := (ts (tok 10) [(R.TRK_SYS, 0xA0000002)]); let k : Fin 8 := 2; let t : Token := (tok 10); let last : Bool := true; let rest : List (Token × Bool) := (at2 (tok 10)); let w : Fin 4096 := 5; let x : World := s.dev.wld ↑w;
    (s.runs 2 ↑k)
    ∧ ((s.dev.trunk ↑k).inT = (t, last) :: rest)
    ∧ (t.world = ↑w)
    ∧ (t.kind = 10)
    ∧ (t.ddev = s.dev.device)
    ∧ (s.dev.manages ↑w = true)
    ∧ (x.at_ t.step = true)
    ∧ (t.sdev ∉ x.dones))
    ∧ (let s : State := (ts (tok 13) [] fun x => {x with step := 9}); let k : Fin 8 := 2; let t : Token := (tok 13); let last : Bool := true; let rest : List (Token × Bool) := (at2 (tok 13)); let w : Fin 4096 := 5; let x : World := s.dev.wld ↑w;
    (s.runs 2 ↑k)
    ∧ ((s.dev.trunk ↑k).inT = (t, last) :: rest)
    ∧ (t.world = ↑w)
    ∧ (t.kind = 13)
    ∧ (t.ddev = s.dev.device)
    ∧ (s.dev.member ↑w = true)
    ∧ (x.live = true)
    ∧ (x.started = true)
    ∧ (x.passed t.step = true))
    ∧ (let s : State := (ts t6 [] fun x => {x with done := true, faulted := true}); let k : Fin 8 := 2; let t : Token := t6; let last : Bool := true; let rest : List (Token × Bool) := (at2 t6); let w : Fin 4096 := 5; let x : World := s.dev.wld ↑w;
    (s.runs 2 ↑k)
    ∧ ((s.dev.trunk ↑k).inT = (t, last) :: rest)
    ∧ (t.world = ↑w)
    ∧ (t.kind = 6)
    ∧ (t.ddev = s.dev.device)
    ∧ (s.dev.member ↑w = true)
    ∧ (x.live = true)
    ∧ (t.step = if x.started = true then (x.step + 1) % 65536 else 0)
    ∧ (x.held = false)
    ∧ (s.dev.pwrState = 0)
    ∧ (x.bankEmpty = true)
    ∧ (x.started = true → x.done = true))
    ∧ (let s : State := (ts (tok 2) [] id fun d => {d with sys := {d.sys with topo := [1]}}); let k : Fin 8 := 2; let t : Token := (tok 2); let last : Bool := true; let rest : List (Token × Bool) := (at2 (tok 2)); let w : Fin 4096 := 5;
    (s.runs 2 ↑k)
    ∧ ((s.dev.trunk ↑k).inT = (t, last) :: rest)
    ∧ (t.world = ↑w)
    ∧ (t.kind = 2)
    ∧ (s.dev.isManager = false)
    ∧ (s.dev.sys.topo ≠ [])
    ∧ (s.dev.sys.seen = false)
    ∧ (s.dev.sysSize ≤ 64))
    ∧ (let s : State := (ts (tok 3) [(R.TRK_SYS, 0x44000002)] id fun d => {d with sys := {d.sys with seen := true}}); let k : Fin 8 := 2; let t : Token := (tok 3); let last : Bool := true; let rest : List (Token × Bool) := (at2 (tok 3)); let w : Fin 4096 := 5;
    (s.runs 2 ↑k)
    ∧ ((s.dev.trunk ↑k).inT = (t, last) :: rest)
    ∧ (t.world = ↑w)
    ∧ (t.kind = 3)
    ∧ (s.dev.isManager = false ∧ s.dev.f R.TRK_SYS 25 3 = ↑k ∧ s.dev.sys.seen = true))
    ∧ (let s : State := (ts (tok 4) [(R.TRK_SYS, 0x44000002)] id fun d => {d with sys := {d.sys with seen := true}}); let k : Fin 8 := 2; let t : Token := (tok 4); let last : Bool := true; let rest : List (Token × Bool) := (at2 (tok 4)); let w : Fin 4096 := 5;
    (s.runs 2 ↑k)
    ∧ ((s.dev.trunk ↑k).inT = (t, last) :: rest)
    ∧ (t.world = ↑w)
    ∧ (t.kind = 4)
    ∧ (s.dev.isManager = false ∧ s.dev.f R.TRK_SYS 25 3 = ↑k ∧ s.dev.sys.seen = true))
    ∧ (let s : State := (ts (tok 14) [(R.PWR_STATE, 0x40000000), (R.PWR_WAKE_EN, 0x10), (R.CLK_EN_SLEEP + 8, 0xFF)]); let k : Fin 8 := 2; let t : Token := (tok 14); let last : Bool := true; let rest : List (Token × Bool) := (at2 (tok 14)); let w : Fin 4096 := 5;
    (s.runs 2 ↑k)
    ∧ ((s.dev.trunk ↑k).inT = (t, last) :: rest)
    ∧ (t.world = ↑w)
    ∧ (t.kind = 14)
    ∧ (s.dev.pwrState ≠ 0)
    ∧ (bit (s.dev.rd R.PWR_STATE) 29 = false)
    ∧ (bit (s.dev.rd R.PWR_WAKE_EN) 4 = true)
    ∧ (s.dev.linkListens ↑k = true))
    ∧ (let s : State := (ts (tok 8) [(R.TRK_SYS, 0xA0000002), (R.TRK_SW + 40, 0x61)] fun x => {x with reports := [(0,0,0,0,0)], round := 3}); let k : Fin 8 := 2; let t : Token := (tok 8); let last : Bool := true; let rest : List (Token × Bool) := (at2 (tok 8)); let w : Fin 4096 := 5; let x : World := s.dev.wld ↑w;
    (s.runs 2 ↑k)
    ∧ ((s.dev.trunk ↑k).inT = (t, last) :: rest)
    ∧ (t.world = ↑w)
    ∧ (t.kind = 8)
    ∧ (t.ddev = s.dev.device)
    ∧ (s.dev.manages ↑w = true)
    ∧ (x.live = true)
    ∧ (x.reports ≠ [])
    ∧ (t.round = x.round)
    ∧ (∀ q ∈ x.reports, q.1 ≠ t.sdev)
    ∧ (∃ m ∈ s.dev.otherMembers ↑w, m ≠ t.sdev ∧ ∀ q ∈ x.reports, q.1 ≠ m)) := by decide +kernel

/-- `Obligations.SystemsRunTogether`, part 2. -/
theorem wit_SystemsFormAndDistribute :
    (let s : State := (ss [(R.TRK_SYS, 0xA0000003), (R.TRK_DIST_SEL_LO, 6), (R.TRK_DIST_ACK_LO, 4), (R.TRK_DIST_STATUS, 0x32)] fun d => {d with sys := {d.sys with distLeft := [1]}}); let v : Fin 64 := 1;
    (s.dev.clocked = true)
    ∧ (s.dev.isManager = true)
    ∧ (s.dev.distState ≠ 0)
    ∧ (s.dev.distState = 1 ∨ s.dev.distState = 2)
    ∧ (s.dev.sys.distLeft = [↑v])
    ∧ (s.dev.distFailing = [↑v])
    ∧ (s.dev.distRound = 3))
    ∧ (let s : State := (ss [(R.TRK_SYS, 0x60000002)] fun d => {d with sys := {d.sys with forming := true}}); let cmd : Instr := .distPlan; let n : Nat := 1;
    (s.dev.clocked = true)
    ∧ (s.dev.sys.forming = true)
    ∧ (s.dev.isManager = true ∧ s.dev.distState = 0 ∧ (cmd = Instr.distPlan ∧ n = 1 ∨ cmd = Instr.distFirmware ∧ n = 2 ∨ cmd = Instr.distGo ∧ n = 3))
    ∧ (s.dev.formed = false))
    ∧ (let s : State := (ss [(R.TRK_SYS, 0xA0000002)]); let cmd : Instr := .distPlan; let n : Nat := 1;
    (s.dev.clocked = true)
    ∧ (s.dev.isManager = true ∧ s.dev.distState = 0 ∧ (cmd = Instr.distPlan ∧ n = 1 ∨ cmd = Instr.distFirmware ∧ n = 2 ∨ cmd = Instr.distGo ∧ n = 3))
    ∧ (s.dev.formed = true)
    ∧ (s.dev.distWorkers = []))
    ∧ (let s : State := (ss [(R.TRK_SYS, 0xA0000002), (R.TRK_DIST_SEL_LO, 2)]); let cmd : Instr := .distPlan; let n : Nat := 1;
    (s.dev.clocked = true)
    ∧ (s.dev.isManager = true ∧ s.dev.distState = 0 ∧ (cmd = Instr.distPlan ∧ n = 1 ∨ cmd = Instr.distFirmware ∧ n = 2 ∨ cmd = Instr.distGo ∧ n = 3))
    ∧ (s.dev.formed = true)
    ∧ (s.dev.distWorkers ≠ []))
    ∧ (let s : State := (ss [(R.TRK_SYS, 0xA0000003), (R.TRK_DIST_SEL_LO, 6), (R.TRK_DIST_STATUS, 2)] fun d => {d with sys := {d.sys with distLeft := [1, 2]}}); let v : Fin 64 := 1;
    (s.dev.clocked = true)
    ∧ (s.dev.distState = 1 ∨ s.dev.distState = 2)
    ∧ (↑v ∈ s.dev.sys.distLeft)
    ∧ (∃ q ∈ s.dev.sys.distLeft, q ≠ ↑v)) := by decide +kernel

end Sys2Proof.Tests11

namespace Sys2Proof.Tests11a

/-! ### Witnesses: trunk links, remote traffic -/

abbrev B := State.reset
def rdy : State := B.wrs [(R.CLK_STATUS, 0xF), (R.CLK_STATUS, 0xF)]
def tk (x : Trunk) (l : List (Nat × Nat)) (g : Dev → Dev := id) : State :=
  (rdy.wrs ([(trk R.TRK_STATUS 2, 0x80000000), (trk R.TRK_STATUS 3, 0xA0000000)] ++ l)).mapDev fun d => g (d.setTrunk 2 x)
def lu (kind seq : Nat) (ok : Bool) : LinkUnit := ⟨luBytes (BitVec.ofNat 64 (kind + seq * 2 ^ 15)) [], ok⟩
def hl : Lu := ⟨5, 3, true, true, 2, [1, 2]⟩
def msg (kind addr : Nat) (pl : List Byte) (status : Nat := 0) (sd : Nat := 5) (tag : Nat := 9) : List Byte := (SMsg.bytes ⟨kind, sd, 0, tag, 4, status, addr, pl⟩)
def rt (x : Trunk) (l : List (Nat × Nat) := []) (g : Dev → Dev := id) : State := tk x ([(bootReport 3, 0x80000000), (R.TRK_ROUTE + 20, 0x80000003)] ++ l) g
def rsp (r : RemAccess) : State := rt {Trunk.init with inS := [(1, msg 3 0x40 [1,2,3,4])]} [] fun d => d.setRa .transport (some r)
def rA : RemAccess := ⟨9, false, none⟩

/-- `Obligations.TrunkLinksDeliver`, part 1. -/
theorem wit_TrunkLinksKeepSequence :
    (let s : State := (tk {Trunk.init with discarding := true} []); let k : Fin 8 := 2; let u : LinkUnit := (lu 1 0 false); let x : Trunk := s.dev.trunk ↑k; let status : State → Nat → Bool := fun (t : State) (i : Nat) => bit (t.dev.rd (trk R.TRK_STATUS ↑k)) i;
    (s.runs 2 ↑k)
    ∧ (s.dev.trunkUp s.nv ↑k = true)
    ∧ (¬(u.blocksOk = true ∧ luOk u.bytes = true))
    ∧ (x.discarding = true)
    ∧ (s.nv.trunkOn ↑k = true)
    ∧ (status s 30 = false)
    ∧ (x.failed < 2)
    ∧ (x.wait = [])
    ∧ (PMap.get laneSize x.credit 4 ≠ 0)
    ∧ (x.held.length < 1024))
    ∧ (let s : State := (tk {Trunk.init with held := [hl], replays := 8, failed := 2} []); let k : Fin 8 := 2; let x : Trunk := s.dev.trunk ↑k; let status : State → Nat → Bool := fun (t : State) (i : Nat) => bit (t.dev.rd (trk R.TRK_STATUS ↑k)) i;
    (s.runs 2 ↑k)
    ∧ (s.dev.trunkUp s.nv ↑k = true)
    ∧ (x.held ≠ [])
    ∧ (8 ≤ x.replays)
    ∧ (s.nv.trunkOn ↑k = true)
    ∧ (status s 30 = false)
    ∧ (2 ≤ x.failed))
    ∧ (let s : State := (tk Trunk.init []); let k : Fin 8 := 2; let u : LinkUnit := (lu 1 0 true); let x : Trunk := s.dev.trunk ↑k; let hdr : Nat := (luHdr u.bytes).toNat; let seq : Nat := hdr >>> 15 % 4096;
    (s.runs 2 ↑k)
    ∧ (s.dev.trunkUp s.nv ↑k = true)
    ∧ (u.blocksOk = true ∧ luOk u.bytes = true)
    ∧ (hdr % 16 = 1)
    ∧ (seq = x.rxNext))
    ∧ (let s : State := (tk {Trunk.init with rxNext := 7} []); let k : Fin 8 := 2; let u : LinkUnit := (lu 1 5 true); let x : Trunk := s.dev.trunk ↑k; let hdr : Nat := (luHdr u.bytes).toNat; let seq : Nat := hdr >>> 15 % 4096;
    (s.runs 2 ↑k)
    ∧ (s.dev.trunkUp s.nv ↑k = true)
    ∧ (u.blocksOk = true ∧ luOk u.bytes = true)
    ∧ (hdr % 16 = 1)
    ∧ (x.rxNext < 4096)
    ∧ (1 ≤ (x.rxNext + 4096 - seq) % 4096)
    ∧ ((x.rxNext + 4096 - seq) % 4096 ≤ 2048))
    ∧ (let s : State := (tk Trunk.init [(trk R.TRK_STATUS 2, 0)]); let k : Fin 8 := 2;
    (s.runs 2 ↑k)
    ∧ (s.dev.trunkUp s.nv ↑k = false))
    ∧ (let s : State := (tk {Trunk.init with held := [hl], replays := 2} []); let k : Fin 8 := 2; let x : Trunk := s.dev.trunk ↑k;
    (s.runs 2 ↑k)
    ∧ (s.dev.trunkUp s.nv ↑k = true)
    ∧ (x.held ≠ [])
    ∧ (x.replays < 8)) := by decide +kernel

/-- `Obligations.TrunkLinksDeliver`, part 2. -/
theorem wit_RemoteTrafficServed :
    (let s : State := (rsp rA); let k : Fin 8 := 2; let c : Nat := 1; let bs : List Byte := (msg 3 0x40 [1,2,3,4]); let rest : List (Nat × List Byte) := []; let m : Master := .transport; let x : Trunk := s.dev.trunk ↑k; let q : SMsg := SMsg.ofBytes bs; let r : RemAccess := rA;
    (s.runs 2 ↑k)
    ∧ (x.inS = (c, bs) :: rest ∧ q.ddev = s.dev.device ∧ sCrcOk bs = true)
    ∧ (q.kind = sRsp)
    ∧ (s.dev.ra m = some r)
    ∧ (r.tag = q.tag)
    ∧ (r.reply = none)
    ∧ (q.status = 0)
    ∧ (s.dev.link.waitC = [])
    ∧ (s.dev.sys.distOut = [])
    ∧ (∀ m' ∈ masters, Option.any (fun (r : RemAccess) => r.tag == q.tag) (s.dev.ra m') = true → m' = m))
    ∧ (let s : State := (rt {Trunk.init with inR := [(3, [1,2,3])]}); let k : Fin 8 := 2; let c : Nat := 3; let bs : List Byte := [1,2,3]; let rest : List (Nat × List Byte) := []; let m : Master := .transport; let wr : Option Word := none; let x : Trunk := s.dev.trunk ↑k; let ask : SMsg := { kind := if wr.isSome = true then sWr else sRd, sdev := s.dev.device, ddev := fld (s.dev.mrd m R.TRK_RA_DEV) 0 6, tag := s.dev.sys.tag, len := 4, status := 0, addr := fld (s.dev.mrd m R.TRK_RA_ADDR_HI) 0 8 * 2 ^ 32 + BitVec.toNat (s.dev.mrd m R.TRK_RA_ADDR_LO), payload := (Option.map wordBytes wr).getD [] };
    (s.runs 2 ↑k)
    ∧ (x.inR = (c, bs) :: rest)
    ∧ (s.opens m wr.isSome R.TRK_RA_DATA)
    ∧ (s.dev.ra m = none)
    ∧ (s.dev.route ask.ddev = none))
    ∧ (let s : State := (rt {Trunk.init with inS := [(1, msg 1 0x40 [])]}); let k : Fin 8 := 2; let j : Fin 8 := 3; let c : Nat := 1; let bs : List Byte := (msg 1 0x40 []); let rest : List (Nat × List Byte) := []; let x : Trunk := s.dev.trunk ↑k; let q : SMsg := SMsg.ofBytes bs;
    (s.runs 2 ↑k)
    ∧ (x.inS = (c, bs) :: rest ∧ q.ddev = s.dev.device ∧ sCrcOk bs = true)
    ∧ (q.kind = sRd)
    ∧ (s.dev.inDepot q.addr 4 = true ∧ q.len = 4 ∧ s.mem.depotErr = [] ∧ s.dev.mbt = none ∧ s.dev.gatedOff q.addr = false ∧ s.dev.route q.sdev = some ↑j ∧ s.dev.trunkUp s.nv ↑j = true ∧ s.dev.trunkHeld s.nv ↑j = true ∧ (s.dev.trunk ↑j).wait = [] ∧ PMap.get laneSize (s.dev.trunk ↑j).credit 3 ≠ 0 ∧ (s.dev.trunk ↑j).held.length < 1024))
    ∧ (let s : State := ((rt Trunk.init).mapDev fun d => d.mwr (.sb 0) R.TRK_RA_DEV 5); let k : Fin 8 := 2; let j : Fin 8 := 3; let m : Master := (.sb 0); let wr : Option Word := (some 7); let ask : SMsg := { kind := if wr.isSome = true then sWr else sRd, sdev := s.dev.device, ddev := fld (s.dev.mrd m R.TRK_RA_DEV) 0 6, tag := s.dev.sys.tag, len := 4, status := 0, addr := fld (s.dev.mrd m R.TRK_RA_ADDR_HI) 0 8 * 2 ^ 32 + BitVec.toNat (s.dev.mrd m R.TRK_RA_ADDR_LO), payload := (Option.map wordBytes wr).getD [] };
    (s.runs 2 ↑k)
    ∧ (s.opens m wr.isSome R.TRK_RA_DATA)
    ∧ (s.dev.ra m = none)
    ∧ (s.dev.route ask.ddev = some ↑j)
    ∧ (s.dev.trunkUp s.nv ↑j = true ∧ s.dev.trunkHeld s.nv ↑j = true ∧ (s.dev.trunk ↑j).wait = [] ∧ PMap.get laneSize (s.dev.trunk ↑j).credit 3 ≠ 0 ∧ (s.dev.trunk ↑j).held.length < 1024))
    ∧ (let s : State := (rt {Trunk.init with inF := [(3, [1,2,3]), (1, [4])]}); let k : Fin 8 := 2; let c : Nat := 3; let bs : List Byte := [1,2,3]; let rest : List (Nat × List Byte) := [(1, [4])]; let x : Trunk := s.dev.trunk ↑k;
    (s.runs 2 ↑k)
    ∧ (x.inR = [])
    ∧ (x.inF = (c, bs) :: rest))
    ∧ (let s : State := (rt {Trunk.init with inS := [(1, msg 2 0x40 [1,2,3,4])]}); let k : Fin 8 := 2; let j : Fin 8 := 3; let c : Nat := 1; let bs : List Byte := (msg 2 0x40 [1,2,3,4]); let rest : List (Nat × List Byte) := []; let x : Trunk := s.dev.trunk ↑k; let q : SMsg := SMsg.ofBytes bs;
    (s.runs 2 ↑k)
    ∧ (x.inS = (c, bs) :: rest ∧ q.ddev = s.dev.device ∧ sCrcOk bs = true)
    ∧ (q.kind = sWr)
    ∧ (s.dev.inDepot q.addr 4 = true ∧ q.len = 4 ∧ s.mem.depotErr = [] ∧ s.dev.mbt = none ∧ s.dev.gatedOff q.addr = false ∧ s.dev.route q.sdev = some ↑j ∧ s.dev.trunkUp s.nv ↑j = true ∧ s.dev.trunkHeld s.nv ↑j = true ∧ (s.dev.trunk ↑j).wait = [] ∧ PMap.get laneSize (s.dev.trunk ↑j).credit 3 ≠ 0 ∧ (s.dev.trunk ↑j).held.length < 1024))
    ∧ (let s : State := ((rt Trunk.init [(trk R.TRK_STATUS 3, 0x40000000)]).mapDev fun d => d.mwr .transport R.TRK_RA_DEV 5); let k : Fin 8 := 2; let m : Master := .transport; let wr : Option Word := none; let ask : SMsg := { kind := if wr.isSome = true then sWr else sRd, sdev := s.dev.device, ddev := fld (s.dev.mrd m R.TRK_RA_DEV) 0 6, tag := s.dev.sys.tag, len := 4, status := 0, addr := fld (s.dev.mrd m R.TRK_RA_ADDR_HI) 0 8 * 2 ^ 32 + BitVec.toNat (s.dev.mrd m R.TRK_RA_ADDR_LO), payload := (Option.map wordBytes wr).getD [] }; let i : Nat := 3;
    (s.runs 2 ↑k)
    ∧ (s.opens m wr.isSome R.TRK_RA_DATA)
    ∧ (s.dev.ra m = none)
    ∧ (s.dev.route ask.ddev = some i)
    ∧ (s.dev.trunkHeld s.nv i = false))
    ∧ (let s : State := (rt {Trunk.init with inS := [(1, msg 4 0x40 [1,2,3,4])]} [(R.TRK_SYS, 0x20000002)] fun d => {d with sys := {d.sys with forming := true}}); let k : Fin 8 := 2; let c : Nat := 1; let bs : List Byte := (msg 4 0x40 [1,2,3,4]); let rest : List (Nat × List Byte) := []; let x : Trunk := s.dev.trunk ↑k; let q : SMsg := SMsg.ofBytes bs;
    (s.runs 2 ↑k)
    ∧ (x.inS = (c, bs) :: rest)
    ∧ (q.kind = sRecord)
    ∧ (s.dev.isManager = true)
    ∧ (s.dev.sys.forming = true)
    ∧ (sCrcOk bs = true)
    ∧ (q.sdev < 64)) := by decide +kernel

end Sys2Proof.Tests11a

namespace Sys2Proof.Tests12

/-! ### Witnesses: the host link -/

abbrev B := State.reset
def rdy : State := B.wrs [(R.CLK_STATUS, 0xF), (R.CLK_STATUS, 0xF)]
def hs (l : List (Nat × Nat)) (g : Dev → Dev := id) : State := (rdy.wrs ([(R.XCH_LINK_STATUS, 0x80000000), (bootReport 3, 0x80000000), (R.SYS_BOOT_STAGE, 0x80000009)] ++ l)).mapDev fun d => g { d with link := { d.link with rxNext := 7, txNext := 3 } }
def hm (len : Nat) (arg : Nat) (pl : List Byte) (flags : Nat := 0) (hi : Nat := 0) (typ : Nat := 1) : HostMsg := ⟨BitVec.ofNat 4 typ, BitVec.ofNat 4 flags, BitVec.ofNat 13 len, BitVec.ofNat 8 hi, 7, 0, BitVec.ofNat 32 arg, pl⟩
def W0 : World := { World.init with live := true, started := true, step := 6, ext := 6, period := 100, stations := [0], nextB := 1, timer := 4, barrier := 77, cfg := 0x40, inputOpen := true }
def hw (l : List (Nat × Nat)) (x : World → World := id) (g : Dev → Dev := id) : State := (hs l).mapDev fun d => g { d with worlds := [(5, x W0)] }
def er : List (Nat × Nat) := [(encReg R.XCH_ENC_CFG 0, 0x80000005), (encReg R.XCH_ENC_MAP 0, 1), (encReg R.XCH_ENC_GAIN 0, 0x3f800000), (encReg R.XCH_ENC_PA 0, 0x3f800000)]
def rp (on : Nat) : List Byte := leBytes 8 0x1000 ++ leBytes 4 4096 ++ leBytes 4 (on * 2^31) ++ leBytes 8 0x2000 ++ leBytes 8 0
def rg (l : List (Nat × Nat)) (b : Nat) (sz w : Nat := 0) : State := (hs ([(R.XCH_RING_STATE + 16*3, 0x80000000 + w), (R.XCH_RING_SIZE + 16*3, 4096), (R.XCH_RING_RIDX + 48, 16)] ++ l)).mapDev fun d => d.setRing 3 { base := 0x1000, widx := 0x2000, recs := 9, drop := false, waiting := [{ step := 1, world := 2, typ := 3, body := List.replicate b 1 }] }
def ln (l : List (Nat × Nat)) (f : Link → Link) : State := (hs l).mapDev fun d => { d with link := f d.link }
def dm : DevMsg := ⟨mNack, 0, 0, 7, [], 0⟩
def to0 : TrainOutcome := ⟨15, 0, 0, 0⟩
def to1 : TrainOutcome := ⟨0, 0, 0, 0⟩
def rr (b : Nat) : Rec := { step := 1, world := 2, typ := 3, body := List.replicate b 1 }
def snd : State := ln [] fun k => {k with waitR := [dm, {dm with after := 2}], waitP := [dm], hostMsgs := [9, 9]}
def rtS (n f : Nat) : State := ln [] fun k => {k with held := [(2, dm), (5, dm)], replays := n, failed := f}

/-- `Obligations.HostRequestsAnswered`, part 1. -/
theorem wit_HostRequestsAnswered :
    (let s : State := (hs []); let msg : HostMsg := (hm 0 0x40 []); let a : Nat := msg.addr; let len : Nat := msg.len.toNat; let count : Nat := fld (recWord msg.payload 0) 0 13;
    (s.dev.clocked = true)
    ∧ (s.dev.linkUp = true)
    ∧ (BitVec.toNat msg.seq = s.dev.link.rxNext)
    ∧ (s.dev.link.waitC = [])
    ∧ (s.dev.ra Master.transport = none)
    ∧ (s.dev.words.any WordAcc.classC = false)
    ∧ (s.dev.resetting = false)
    ∧ (s.dev.mbt = none)
    ∧ (s.mem.depotErr = [])
    ∧ (len = 0)
    ∧ (a < depotSize ∧ a % 4 = 0 ∧ s.dev.passed 3 = true)
    ∧ (s.dev.gate s.nv Master.transport false a = Gate.open_)
    ∧ (len ≠ 4 ∨ a % 4 ≠ 0)
    ∧ (¬(4 ≤ len ∧ len ≤ 4096 ∧ len % 4 = 0) ∨ a % 4 ≠ 0)
    ∧ (len ≠ 4 ∨ ¬(4 ≤ count ∧ count ≤ 4096 ∧ count % 4 = 0) ∨ a % 4 ≠ 0))
    ∧ (let s : State := (hs []); let msg : HostMsg := (hm 4 0x40 [8,0,0,0]); let a : Nat := msg.addr; let len : Nat := msg.len.toNat; let count : Nat := fld (recWord msg.payload 0) 0 13;
    (s.dev.clocked = true)
    ∧ (s.dev.linkUp = true)
    ∧ (BitVec.toNat msg.seq = s.dev.link.rxNext)
    ∧ (s.dev.link.waitC = [])
    ∧ (s.dev.ra Master.transport = none)
    ∧ (s.dev.words.any WordAcc.classC = false)
    ∧ (s.dev.resetting = false)
    ∧ (s.dev.mbt = none)
    ∧ (s.mem.depotErr = [])
    ∧ (len = 4)
    ∧ (a < depotSize ∧ a % 4 = 0 ∧ s.dev.passed 3 = true)
    ∧ (s.dev.gate s.nv Master.transport true a = Gate.open_)
    ∧ (len ≠ 0 ∨ a % 4 ≠ 0)
    ∧ (4 ≤ len ∧ len ≤ 4096 ∧ len % 4 = 0)
    ∧ (s.dev.inDepot a len = true)
    ∧ (s.dev.gatedOff a = false)
    ∧ (4 ≤ count ∧ count ≤ 4096 ∧ count % 4 = 0)
    ∧ (s.dev.inDepot a count = true))
    ∧ (let s : State := (hs []); let msg : HostMsg := (hm 0 0x1000000 [6,0,0,0]); let a : Nat := msg.addr; let len : Nat := msg.len.toNat;
    (s.dev.clocked = true)
    ∧ (s.dev.linkUp = true)
    ∧ (BitVec.toNat msg.seq = s.dev.link.rxNext)
    ∧ (s.dev.link.waitC = [])
    ∧ (s.dev.ra Master.transport = none)
    ∧ (s.dev.words.any WordAcc.classC = false)
    ∧ (s.dev.resetting = false)
    ∧ (s.dev.mbt = none)
    ∧ (s.mem.depotErr = [])
    ∧ (len = 0)
    ∧ (a % 4 = 0)
    ∧ (s.dev.targetOf s.nv a = Target.unmapped)
    ∧ (s.dev.gate s.nv Master.transport false a = Gate.open_))
    ∧ (let s : State := (hs []); let msg : HostMsg := (hm 4 0x1000000 [6,0,0,0]); let a : Nat := msg.addr; let len : Nat := msg.len.toNat;
    (s.dev.clocked = true)
    ∧ (s.dev.linkUp = true)
    ∧ (BitVec.toNat msg.seq = s.dev.link.rxNext)
    ∧ (s.dev.link.waitC = [])
    ∧ (s.dev.ra Master.transport = none)
    ∧ (s.dev.words.any WordAcc.classC = false)
    ∧ (s.dev.resetting = false)
    ∧ (s.dev.mbt = none)
    ∧ (s.mem.depotErr = [])
    ∧ (len = 4)
    ∧ (a % 4 = 0)
    ∧ (s.dev.targetOf s.nv a = Target.unmapped)
    ∧ (s.dev.gate s.nv Master.transport true a = Gate.open_)) := by decide +kernel

/-- `Obligations.HostRequestsAnswered`, part 2. -/
theorem wit_HostInputTaken :
    (let s : State := (hw []); let msg : HostMsg := (hm 8 5 [7, 0, 0x50, 0, 1, 0, 2, 0]); let w : Fin 4096 := 5; let x : Word := 0; let len : Nat := msg.len.toNat; let y : World := s.dev.wld ↑w; let evs : List (Word × Word) := eventsOf (wordsOf (recBytes msg.payload 0 len)); let mark : List QItem := if msg.endStep = true then [QItem.mark] else []; let room : Nat := s.dev.queueFree ↑w; let ch : Nat := fld msg.arg 0 5;
    (s.dev.clocked = true)
    ∧ (s.dev.linkUp = true)
    ∧ (BitVec.toNat msg.seq = s.dev.link.rxNext)
    ∧ (s.dev.bootReady = true)
    ∧ (s.dev.resetting = false)
    ∧ (fld msg.arg 0 12 = ↑w ∧ y.live = true ∧ y.faulted = false ∧ y.blocked = false)
    ∧ (len % 8 = 0 ∧ len ≤ 4096 ∧ (len ≠ 0 ∨ msg.endStep = true) ∧ (evs.all fun (e : Word × Word) => fld e.1 20 12 == ↑w) = true)
    ∧ (evs.length + mark.length ≤ room)
    ∧ (len % 8 = 0 ∧ 8 ≤ len ∧ len ≤ 128 ∧ PMap.get (fun (x : Nat) => false) s.dev.link.blocked ch = false)
    ∧ (evs.length ≤ s.dev.chFree ch)
    ∧ (∀ (n : Fin 8), (s.dev.core ↑n).blocked = none))
    ∧ (let s : State := (hw []); let msg : HostMsg := (hm 0 0x3f801005 [] 0); let w : Fin 4096 := 5; let len : Nat := msg.len.toNat; let y : World := s.dev.wld ↑w; let room : Nat := s.dev.queueFree ↑w;
    (s.dev.clocked = true)
    ∧ (s.dev.linkUp = true)
    ∧ (BitVec.toNat msg.seq = s.dev.link.rxNext)
    ∧ (s.dev.bootReady = true)
    ∧ (s.dev.resetting = false)
    ∧ (fld msg.arg 0 12 = ↑w ∧ y.live = true ∧ y.faulted = false ∧ y.blocked = false)
    ∧ (len = 0)
    ∧ (s.dev.member ↑w = false)
    ∧ (y.latch = none)
    ∧ (y.held = true → 0 < room))
    ∧ (let s : State := (hw er); let msg : HostMsg := (hm 4 5 [0, 0, 0x80, 0x3f] 0); let w : Fin 4096 := 5; let x : Word := 0x3f800000; let len : Nat := msg.len.toNat; let y : World := s.dev.wld ↑w; let room : Nat := s.dev.queueFree ↑w; let e : Nat := fld msg.arg 12 8; let q : EncCfg := s.dev.encCfg e; let gx : FVal := fmul (f32 x) (f32 (s.dev.rd (encReg R.XCH_ENC_GAIN e))); let v : FVal := fadd gx (f32 (s.dev.rd (encReg R.XCH_ENC_BIAS e)));
    (s.dev.clocked = true)
    ∧ (s.dev.linkUp = true)
    ∧ (BitVec.toNat msg.seq = s.dev.link.rxNext)
    ∧ (s.dev.bootReady = true)
    ∧ (s.dev.resetting = false)
    ∧ (fld msg.arg 0 12 = ↑w ∧ y.live = true ∧ y.faulted = false ∧ y.blocked = false)
    ∧ (len = 4 ∧ wordsOf (recBytes msg.payload 0 4) = [x] ∧ q.code = 0 ∧ q.world = ↑w ∧ s.dev.encRefuses q (↑w) 1 = false ∧ (f32 x).isNan = false ∧ v.isNan = false)
    ∧ (y.reserve ≤ room)
    ∧ (0 < room))
    ∧ (let s : State := (hw [] fun x => {x with latch := some (1, false)}); let msg : HostMsg := (hm 0 0x3f801005 [] 0); let w : Fin 4096 := 5; let len : Nat := msg.len.toNat; let y : World := s.dev.wld ↑w;
    (s.dev.clocked = true)
    ∧ (s.dev.linkUp = true)
    ∧ (BitVec.toNat msg.seq = s.dev.link.rxNext)
    ∧ (s.dev.bootReady = true)
    ∧ (s.dev.resetting = false)
    ∧ (fld msg.arg 0 12 = ↑w ∧ y.live = true ∧ y.faulted = false ∧ y.blocked = false)
    ∧ (len = 0)
    ∧ (s.dev.member ↑w = false)
    ∧ (y.latch.isSome = true))
    ∧ (let s : State := (hw [] fun x => {x with live := false}); let msg : HostMsg := (hm 8 5 [7, 0, 0x50, 0, 1, 0, 2, 0] 0); let w : Fin 4096 := 5; let len : Nat := msg.len.toNat; let y : World := s.dev.wld ↑w; let evs : List (Word × Word) := eventsOf (wordsOf (recBytes msg.payload 0 len));
    (s.dev.clocked = true)
    ∧ (s.dev.linkUp = true)
    ∧ (BitVec.toNat msg.seq = s.dev.link.rxNext)
    ∧ (s.dev.bootReady = true)
    ∧ (s.dev.resetting = false)
    ∧ (fld msg.arg 0 12 = ↑w)
    ∧ (len % 8 = 0 ∧ len ≤ 4096 ∧ (len ≠ 0 ∨ msg.endStep = true) ∧ (evs.all fun (e : Word × Word) => fld e.1 20 12 == ↑w) = true)
    ∧ (y.live = false))
    ∧ (let s : State := (hw [] id fun d => d.setEntries 5 (List.replicate 16 3)); let msg : HostMsg := (hm 8 5 [7, 0, 0x50, 0, 1, 0, 2, 0]); let x : Word := 0; let len : Nat := msg.len.toNat; let evs : List (Word × Word) := eventsOf (wordsOf (recBytes msg.payload 0 len)); let ch : Nat := fld msg.arg 0 5;
    (s.dev.clocked = true)
    ∧ (s.dev.linkUp = true)
    ∧ (BitVec.toNat msg.seq = s.dev.link.rxNext)
    ∧ (s.dev.bootReady = true)
    ∧ (s.dev.resetting = false)
    ∧ (len % 8 = 0 ∧ 8 ≤ len ∧ len ≤ 128 ∧ PMap.get (fun (x : Nat) => false) s.dev.link.blocked ch = false)
    ∧ (s.dev.chFree ch < evs.length))
    ∧ (let s : State := (hw [] fun x => {x with queue := List.replicate 512 .mark}); let msg : HostMsg := (hm 8 5 [7, 0, 0x50, 0, 1, 0, 2, 0] 0); let w : Fin 4096 := 5; let len : Nat := msg.len.toNat; let y : World := s.dev.wld ↑w; let evs : List (Word × Word) := eventsOf (wordsOf (recBytes msg.payload 0 len)); let mark : List QItem := if msg.endStep = true then [QItem.mark] else []; let room : Nat := s.dev.queueFree ↑w;
    (s.dev.clocked = true)
    ∧ (s.dev.linkUp = true)
    ∧ (BitVec.toNat msg.seq = s.dev.link.rxNext)
    ∧ (s.dev.bootReady = true)
    ∧ (s.dev.resetting = false)
    ∧ (fld msg.arg 0 12 = ↑w ∧ y.live = true ∧ y.faulted = false ∧ y.blocked = false)
    ∧ (len % 8 = 0 ∧ len ≤ 4096 ∧ (len ≠ 0 ∨ msg.endStep = true) ∧ (evs.all fun (e : Word × Word) => fld e.1 20 12 == ↑w) = true)
    ∧ (room < evs.length + mark.length))
    ∧ (let s : State := (hw er fun x => {x with queue := List.replicate 512 .mark}); let msg : HostMsg := (hm 4 5 [0, 0, 0x80, 0x3f] 0); let w : Fin 4096 := 5; let x : Word := 0x3f800000; let len : Nat := msg.len.toNat; let y : World := s.dev.wld ↑w; let room : Nat := s.dev.queueFree ↑w; let e : Nat := fld msg.arg 12 8; let q : EncCfg := s.dev.encCfg e; let gx : FVal := fmul (f32 x) (f32 (s.dev.rd (encReg R.XCH_ENC_GAIN e))); let v : FVal := fadd gx (f32 (s.dev.rd (encReg R.XCH_ENC_BIAS e)));
    (s.dev.clocked = true)
    ∧ (s.dev.linkUp = true)
    ∧ (BitVec.toNat msg.seq = s.dev.link.rxNext)
    ∧ (s.dev.bootReady = true)
    ∧ (s.dev.resetting = false)
    ∧ (fld msg.arg 0 12 = ↑w ∧ y.live = true ∧ y.faulted = false ∧ y.blocked = false)
    ∧ (len = 4 ∧ wordsOf (recBytes msg.payload 0 4) = [x] ∧ q.code = 0 ∧ q.world = ↑w ∧ s.dev.encRefuses q (↑w) 1 = false ∧ (f32 x).isNan = false ∧ v.isNan = false)
    ∧ (room < y.reserve)) := by decide +kernel

/-- `Obligations.HostLinkDelivers`, part 1. -/
theorem wit_OutputRingsWork :
    (let s : State := (rg [] 8 0 0); let msg : HostMsg := (hm 0 0x303 []); let r : Fin 256 := 3; let idx : Nat := 8 * fld msg.arg 8 24; let rsize : Nat := s.dev.ringSize ↑r; let w : Nat := s.dev.ringW ↑r; let g : Machine.Ring := s.dev.ring ↑r; let x : Rec := rr 8; let rest : List Rec := [];
    (s.dev.clocked = true)
    ∧ (s.dev.linkUp = true ∧ BitVec.toNat msg.seq = s.dev.link.rxNext ∧ s.dev.link.waitC = [] ∧ s.dev.ra Master.transport = none ∧ s.dev.words.any WordAcc.classC = false ∧ s.dev.bootReady = true ∧ fld msg.arg 0 8 = ↑r)
    ∧ (msg.len.toNat = 0)
    ∧ (s.dev.ringOn ↑r = true)
    ∧ (idx < rsize)
    ∧ ((idx + rsize - s.dev.ringR ↑r) % rsize ≤ (w + rsize - s.dev.ringR ↑r) % rsize)
    ∧ (idx < 2 ^ 27)
    ∧ (g.waiting = x :: rest)
    ∧ (placeAt rsize w (s.dev.ringR ↑r) x.bytes = Place.wait))
    ∧ (let s : State := (hs []); let msg : HostMsg := (hm 32 3 (rp 1)); let r : Fin 256 := 3; let p : List Byte := recBytes msg.payload 0 32; let base : Nat := recNat p 0 8 % 2 ^ 40; let widx : Nat := recNat p 16 8 % 2 ^ 40; let size : Nat := recNat p 8 4; let on : Bool := bit (recWord p 12) 31;
    (s.dev.clocked = true)
    ∧ (s.dev.linkUp = true ∧ BitVec.toNat msg.seq = s.dev.link.rxNext ∧ s.dev.link.waitC = [] ∧ s.dev.ra Master.transport = none ∧ s.dev.words.any WordAcc.classC = false ∧ s.dev.bootReady = true ∧ fld msg.arg 0 8 = ↑r)
    ∧ (msg.len.toNat = 32 ∧ size % 4096 = 0 ∧ 4096 ≤ size ∧ size ≤ 2 ^ 27 ∧ base % 64 = 0 ∧ widx % 8 = 0 ∧ base + size ≤ 2 ^ 40 ∧ widx + 8 ≤ 2 ^ 40)
    ∧ (on = true)
    ∧ (s.dev.ringOn ↑r = false))
    ∧ (let s : State := (rg [] 8); let msg : HostMsg := (hm 32 3 (rp 0)); let r : Fin 256 := 3; let p : List Byte := recBytes msg.payload 0 32; let base : Nat := recNat p 0 8 % 2 ^ 40; let widx : Nat := recNat p 16 8 % 2 ^ 40; let size : Nat := recNat p 8 4; let on : Bool := bit (recWord p 12) 31;
    (s.dev.clocked = true)
    ∧ (s.dev.linkUp = true ∧ BitVec.toNat msg.seq = s.dev.link.rxNext ∧ s.dev.link.waitC = [] ∧ s.dev.ra Master.transport = none ∧ s.dev.words.any WordAcc.classC = false ∧ s.dev.bootReady = true ∧ fld msg.arg 0 8 = ↑r)
    ∧ (msg.len.toNat = 32 ∧ size % 4096 = 0 ∧ 4096 ≤ size ∧ size ≤ 2 ^ 27 ∧ base % 64 = 0 ∧ widx % 8 = 0 ∧ base + size ≤ 2 ^ 40 ∧ widx + 8 ≤ 2 ^ 40)
    ∧ (on = false)
    ∧ (s.dev.ringOn ↑r = true))
    ∧ (let s : State := (rg [] 8); let msg : HostMsg := (hm 32 3 (rp 1)); let r : Fin 256 := 3; let p : List Byte := recBytes msg.payload 0 32; let base : Nat := recNat p 0 8 % 2 ^ 40; let widx : Nat := recNat p 16 8 % 2 ^ 40; let size : Nat := recNat p 8 4; let on : Bool := bit (recWord p 12) 31;
    (s.dev.clocked = true)
    ∧ (s.dev.linkUp = true ∧ BitVec.toNat msg.seq = s.dev.link.rxNext ∧ s.dev.link.waitC = [] ∧ s.dev.ra Master.transport = none ∧ s.dev.words.any WordAcc.classC = false ∧ s.dev.bootReady = true ∧ fld msg.arg 0 8 = ↑r)
    ∧ (msg.len.toNat = 32 ∧ size % 4096 = 0 ∧ 4096 ≤ size ∧ size ≤ 2 ^ 27 ∧ base % 64 = 0 ∧ widx % 8 = 0 ∧ base + size ≤ 2 ^ 40 ∧ widx + 8 ≤ 2 ^ 40)
    ∧ (on = true)
    ∧ (s.dev.ringOn ↑r = true))
    ∧ (let s : State := (rg [] 8 0 32); let r : Fin 256 := 3; let rsize : Nat := s.dev.ringSize ↑r; let g : Machine.Ring := s.dev.ring ↑r; let w : Nat := s.dev.ringW ↑r; let x : Rec := rr 8; let rest : List Rec := []; let to_ : Nat := 48;
    (s.dev.clocked = true)
    ∧ (g.waiting = x :: rest)
    ∧ (placeAt rsize w (s.dev.ringR ↑r) x.bytes = Place.put to_)
    ∧ (to_ < 2 ^ 27))
    ∧ (let s : State := (rg [] 5000 0 32); let r : Fin 256 := 3; let rsize : Nat := s.dev.ringSize ↑r; let g : Machine.Ring := s.dev.ring ↑r; let w : Nat := s.dev.ringW ↑r; let x : Rec := rr 5000; let rest : List Rec := [];
    (s.dev.clocked = true)
    ∧ (g.waiting = x :: rest)
    ∧ (placeAt rsize w (s.dev.ringR ↑r) x.bytes = Place.tooLong)) := by decide +kernel

/-- `Obligations.HostLinkDelivers`, part 2. -/
theorem wit_TransportKeepsSequence :
    (let s : State := (ln [] fun k => {k with held := [(2, dm), (5, dm)], ackTold := 7, discarding := true}); let m : Master := .sideband; let tr : TrainOutcome := to1; let msg : HostMsg := (hm 0 0 [] 0 0 11); let k : Link := s.dev.link;
    (s.dev.clocked = true)
    ∧ (s.dev.linkUp = true)
    ∧ (¬bit (s.dev.rd R.XCH_LINK_STATUS) 30 = true)
    ∧ (k.held ≠ [])
    ∧ (k.replays < 4)
    ∧ (s.opens m true R.XCH_LINK_CTRL)
    ∧ (s.dev.linkUp = true ∨ s.dev.retraining = true)
    ∧ (s.dev.trainStatus tr = none)
    ∧ (k.failed < 2)
    ∧ (k.ackTold = k.rxNext)
    ∧ (k.discarding = true)
    ∧ (11 ≤ msg.typ.toNat)
    ∧ (BitVec.toNat msg.seq = k.rxNext))
    ∧ (let s : State := (rtS 4 2); let m : Master := .sideband; let tr : TrainOutcome := to0; let k : Link := s.dev.link; let st : Word := ((rtS 4 2).dev.trainStatus to0).getD 0;
    (s.dev.clocked = true)
    ∧ (¬bit (s.dev.rd R.XCH_LINK_STATUS) 30 = true)
    ∧ (k.held ≠ [])
    ∧ (4 ≤ k.replays)
    ∧ (s.dev.trainStatus tr = some st)
    ∧ (s.opens m true R.XCH_LINK_CTRL)
    ∧ (s.dev.linkUp = true ∨ s.dev.retraining = true ∨ m = Master.sideband ∧ bit (s.dev.rd R.XCH_LINK_STATUS) 30 = true)
    ∧ (s.dev.linkUp = true)
    ∧ (k.ackTold ≠ k.rxNext)
    ∧ (k.discarding = false))
    ∧ (let s : State := snd; let k : Link := s.dev.link; let x : DevMsg := dm; let rest : List DevMsg := [let __src := dm;   { typ := __src.typ, flags := __src.flags, addrHi := __src.addrHi, arg := __src.arg, payload := __src.payload, after := 2 }];
    (s.dev.clocked = true)
    ∧ (s.dev.linkUp = true)
    ∧ (k.waitR = x :: rest)
    ∧ (x.after = 0)
    ∧ (k.creditFor 0 x.payload.length = true ∧ k.held.length < 32767 ∧ k.heldBytes + 16 + (x.payload.length + 15) / 16 * 16 ≤ 262144))
    ∧ (let s : State := snd; let k : Link := s.dev.link; let x : DevMsg := dm; let rest : List DevMsg := [];
    (s.dev.clocked = true)
    ∧ (s.dev.linkUp = true)
    ∧ (k.waitP = x :: rest)
    ∧ (k.creditFor 1 x.payload.length = true ∧ k.held.length < 32767 ∧ k.heldBytes + 16 + (x.payload.length + 15) / 16 * 16 ≤ 262144))
    ∧ (let s : State := (ln [] fun k => {k with held := [(2, dm), (5, dm)], replays := 4, failed := 2}); let m : Master := .sideband; let tr : TrainOutcome := to1; let k : Link := s.dev.link;
    (s.dev.clocked = true)
    ∧ (s.opens m true R.XCH_LINK_CTRL)
    ∧ (s.dev.linkUp = true ∨ s.dev.retraining = true)
    ∧ (s.dev.trainStatus tr = none)
    ∧ (2 ≤ k.failed)) := by decide +kernel

end Sys2Proof.Tests12

namespace Sys2Proof.Tests13

/-! ### Witnesses: accesses, the board -/

abbrev B := State.reset
def rdy : State := B.wrs [(R.CLK_STATUS, 0xF), (R.CLK_STATUS, 0xF)]
def ready (l : List (Nat × Nat)) (g : Dev → Dev := id) : State := (rdy.wrs ([(bootReport 3, 0x80000000), (bootReport 0, 0x80000000), (bootReport 8, 0x80000000), (R.SYS_BOOT_STAGE, 0x80000009)] ++ l)).mapDev g
def R0 := ready []
def cs (f : Core → Core) (l : List (Nat × Nat) := []) (g : Dev → Dev := id): State := ready l fun d => g (d.setCore 2 (f { Core.init 2 with running := true, pc := 0x1234, mtvec := 0x30100081, mstatus := 8 }))
def sbw : State := nx (exec (.sidebandMemWrite 0x1000C false 1 0) (nx (exec (.sidebandMemWrite 0x10000 false 0x44 0) R0)))
def row0 : RegRow := (regRow 0x1000B0000).getD ⟨0,0,0,0,0,0,0,0⟩
def sec0 : Section := ⟨2305, 0xFFFF, 0, 0, 2, 2, 0, 0, 0, []⟩
def plG : Plan := { Plan.empty with gridW := 48, gridH := 48, sections := [sec0] }
def RG : State := ready [(R.TPL_STATUS, 0x01000004)] fun d => { d with tpl := { d.tpl with plan := some plG, ranks := [0, 1, 48, 49] } }
def RG2 : State := ready [(R.TPL_STATUS, 0x01000004)] fun d => { d with tpl := { d.tpl with plan := some { plG with groups := [3] }, ranks := [0, 1, 48, 49] } }
def c0 : State := ready [] fun d => (d.setCore 0 { Core.init 0 with running := true, pc := 0x1234, mtvec := 0x30100081, mstatus := 8 })
def cg : State := cs (fun c => {c with sbwin := 128}) [(R.DRM_STATUS, 0x100), (bootReport 4, 0x80000000)]
def sbx : State := sbw.mapDev fun d => d.mwr .sideband sbwAddrLo 0x45#32
def ct : State := (cs id [(R.MBT_STATUS, 3)]).mapDev fun d => { d with mbt := some ⟨2, List.range 32, 0, false, 0, false⟩ }
def cgF : State := cg.wrs [] |>.mapDev fun d => { d with sdma := (List.range 64).map fun i => { id := i, core := 3, words := [0, 0, 0, 0], started := false, left := 0, result := 0, remote := none } }

/-- `Obligations.AccessesAndWindowsAct`, part 1. -/
theorem wit_RegisterWritesAct :
    (let s : State := R0; let m : Master := .xdma; let a : Addr := 0x40; let x : Nat := BitVec.toNat a;
    (s.opens m true (BitVec.toNat a))
    ∧ (s.dev.passed 3 = true)
    ∧ (x % 4 = 0)
    ∧ (x < depotSize)
    ∧ (s.dev.testing 2 (depotBank x) = false))
    ∧ (let s : State := R0; let m : Master := .xdma; let a : Addr := 0x1000B0000; let x : Nat := BitVec.toNat a; let r : RegRow := row0;
    (s.opens m true (BitVec.toNat a))
    ∧ (x % 4 = 0)
    ∧ (4295688192 ≤ x)
    ∧ (x < 4295753728)
    ∧ (regRow x = some r))
    ∧ (let s : State := R0; let m : Master := .xdma; let a : Addr := 0x400000000; let x : Nat := BitVec.toNat a;
    (s.opens m true (BitVec.toNat a))
    ∧ (∀ (c : Fin 8), m ≠ Master.sb c)
    ∧ (s.dev.targetOf s.nv x = Target.unmapped))
    ∧ (let s : State := R0; let m : Master := .xdma; let a : Addr := 0x200061000; let fails : Nat := 4; let x : Nat := BitVec.toNat a;
    (s.opens m true (BitVec.toNat a))
    ∧ (∀ (c : Fin 8), m ≠ Master.sb c)
    ∧ (4 ≤ fails)
    ∧ ((s.dev.targetOf s.nv x).bySignal x = true))
    ∧ (let s : State := R0; let m : Master := .xdma; let a : Addr := 0x200000040; let x : Nat := BitVec.toNat a; let k : Fin 2304 := 0; let off : Nat := 64; let p : Nat := 0;
    (s.opens m true (BitVec.toNat a))
    ∧ (x = stationBase + ↑k * 2 ^ 20 + off)
    ∧ (off % 4 = 0)
    ∧ (s.dev.passed 8 = true)
    ∧ (s.dev.posOfRank ↑k = some p)
    ∧ (off < 393216)
    ∧ (∀ (c : Fin 8), m ≠ Master.sb c))
    ∧ (let s : State := R0; let m : Master := .xdma; let a : Addr := 0x200062040; let fails : Nat := 0; let x : Nat := BitVec.toNat a; let k : Fin 2304 := 0; let off : Nat := 401472; let p : Nat := 0;
    (s.opens m true (BitVec.toNat a))
    ∧ (x = stationBase + ↑k * 2 ^ 20 + off)
    ∧ (off % 4 = 0)
    ∧ (s.dev.passed 8 = true)
    ∧ (s.dev.posOfRank ↑k = some p)
    ∧ (401408 ≤ off)
    ∧ (off < 425984)
    ∧ (fails < 4))
    ∧ (let s : State := cg; let m : Master := .xdma; let a : Addr := 0x2000000000; let x : Nat := BitVec.toNat a; let off : Nat := 0; let e : Nat := (cg.dev.endpointOf cg.nv 137438953472).getD 0;
    (s.opens m true (BitVec.toNat a))
    ∧ (s.dev.targetOf s.nv x = Target.gddr off)
    ∧ (s.dev.endpointOf s.nv x = some e)
    ∧ (∀ (c : Fin 8), m ≠ Master.sb c)) := by decide +kernel

/-- `Obligations.AccessesAndWindowsAct`, part 2. -/
theorem wit_GroupWindowsAct :
    (let s : State := RG2; let m : Master := .xdma; let g : Fin 256 := 1; let off : Nat := 0x40; let ba : Nat := 12884901888 + ↑g * 2 ^ 24 + off; let hi : Fin 16 := 3;
    (s.dev.passed 8 = true)
    ∧ (off % 4 = 0)
    ∧ (off < 2 ^ 20)
    ∧ (s.opens m true ba)
    ∧ (off + 4 ≤ 262144)
    ∧ (((s.dev.groupStations s.nv ↑g).getD []).Nodup)
    ∧ (s.opens Master.jtag false (ba + ↑hi * 2 ^ 20))
    ∧ (s.dev.awake = true)
    ∧ (s.dev.jtagBusy = false)
    ∧ (s.dev.link.waitC = []))
    ∧ (let s : State := RG; let m : Master := .xdma; let w : Fin 4096 := 2305; let off : Nat := 0x40; let sa : Nat := stationBase + ↑w * 2 ^ 20 + off; let plan : Plan := plG; let sec : Section := sec0; let ms : List (Nat × Nat) := s.dev.sectionRanks s.nv sec;
    (s.dev.passed 8 = true)
    ∧ (off % 4 = 0)
    ∧ (off < 2 ^ 20)
    ∧ (2304 ≤ ↑w)
    ∧ (s.dev.livePlan = some plan)
    ∧ (plan.section? ↑w = some sec)
    ∧ (ms ≠ [])
    ∧ ((ms.any fun (q : Nat × Nat) => s.dev.stnTested q.2) = false)
    ∧ (s.opens m false sa)
    ∧ (∀ (c : Fin 8), m ≠ Master.sb c)
    ∧ (off < 393216))
    ∧ (let s : State := RG; let m : Master := .xdma; let w : Fin 4096 := 2305; let off : Nat := 0x62000; let sa : Nat := stationBase + ↑w * 2 ^ 20 + off; let plan : Plan := plG; let sec : Section := sec0; let ms : List (Nat × Nat) := s.dev.sectionRanks s.nv sec;
    (s.dev.passed 8 = true)
    ∧ (off % 4 = 0)
    ∧ (off < 2 ^ 20)
    ∧ (2304 ≤ ↑w)
    ∧ (s.dev.livePlan = some plan)
    ∧ (plan.section? ↑w = some sec)
    ∧ (ms ≠ [])
    ∧ ((ms.any fun (q : Nat × Nat) => s.dev.stnTested q.2) = false)
    ∧ (s.opens m true sa)
    ∧ (401408 ≤ off)
    ∧ (off < 425984))
    ∧ (let s : State := RG; let m : Master := .xdma; let w : Fin 4096 := 2305; let off : Nat := 0x70F10; let sa : Nat := stationBase + ↑w * 2 ^ 20 + off; let plan : Plan := plG; let sec : Section := sec0; let ms : List (Nat × Nat) := s.dev.sectionRanks s.nv sec;
    (s.dev.passed 8 = true)
    ∧ (off % 4 = 0)
    ∧ (off < 2 ^ 20)
    ∧ (2304 ≤ ↑w)
    ∧ (s.dev.livePlan = some plan)
    ∧ (plan.section? ↑w = some sec)
    ∧ (ms ≠ [])
    ∧ ((ms.any fun (q : Nat × Nat) => s.dev.stnTested q.2) = false)
    ∧ (s.opens m false sa)
    ∧ (off = stnIrqLatch))
    ∧ (let s : State := RG; let m : Master := .xdma; let w : Fin 4096 := 2305; let off : Nat := R.STN_CR_CREATED; let sa : Nat := stationBase + ↑w * 2 ^ 20 + off; let plan : Plan := plG; let sec : Section := sec0; let ms : List (Nat × Nat) := s.dev.sectionRanks s.nv sec;
    (s.dev.passed 8 = true)
    ∧ (off % 4 = 0)
    ∧ (off < 2 ^ 20)
    ∧ (2304 ≤ ↑w)
    ∧ (s.dev.livePlan = some plan)
    ∧ (plan.section? ↑w = some sec)
    ∧ (ms ≠ [])
    ∧ ((ms.any fun (q : Nat × Nat) => s.dev.stnTested q.2) = false)
    ∧ (s.opens m false sa)
    ∧ (401408 ≤ off)
    ∧ (off < 425984 ∨ 442368 ≤ off)
    ∧ (isCounter off = true)
    ∧ (isOpsLo off = false)
    ∧ (isOpsHi off = false)) := by decide +kernel

/-- `Obligations.DepotAliasesModify`. -/
theorem wit_DepotAliasesModify :
    (let s : State := R0; let m : Master := .xdma; let off : BitVec 24 := 0x000041; let w : Nat := off.toNat / 4 * 4; let k : Nat := 1;
    (s.opens m true (1 * 268435456 + w) ∧ s.dev.passed 3 = true ∧ s.dev.testing 2 (depotBank w) = false ∧ s.mem.depotErr = [])
    ∧ (s.opens m true (2 * 268435456 + w) ∧ s.dev.passed 3 = true ∧ s.dev.testing 2 (depotBank w) = false ∧ s.mem.depotErr = [])
    ∧ (k = 1 ∨ k = 2)
    ∧ (s.opens m true (k * 268435456 + w) ∧ s.dev.passed 3 = true ∧ s.dev.testing 2 (depotBank w) = false ∧ s.mem.depotErr = [])
    ∧ (s.dev.awake = true)
    ∧ (s.dev.jtagBusy = false)
    ∧ (s.dev.link.waitC = [])) := by decide +kernel

/-- `Obligations.CoreAccessesEnd`. -/
theorem wit_CoreAccessesEnd :
    (let s : State := (cs id); let m : Master := .sideband; let n : Fin 8 := 2; let ca : Word := 0x30300000; let width : Nat := 4; let c : Core := s.dev.core ↑n; let target : CoreTarget := c.target (↑n) (BitVec.toNat ca);
    (s.dev.clocked = true)
    ∧ (s.dev.coreActs ↑n = true)
    ∧ (s.dev.link.waitC = [])
    ∧ (width = 1 ∨ width = 2 ∨ width = 4)
    ∧ (BitVec.toNat ca % width = 0)
    ∧ (target = CoreTarget.nothing)
    ∧ (s.opens m true (R.SYS_SB_CTRL + 4 * ↑n)))
    ∧ (let s : State := ct; let n : Fin 8 := 2; let ca : Word := 0x40; let width : Nat := 4; let wr : Option Word := none; let c : Core := s.dev.core ↑n; let target : CoreTarget := c.target (↑n) (BitVec.toNat ca); let a : Nat := 64; let off : Nat := 64;
    (s.dev.clocked = true)
    ∧ (s.dev.coreActs ↑n = true)
    ∧ (s.dev.link.waitC = [])
    ∧ (width = 1 ∨ width = 2 ∨ width = 4)
    ∧ (BitVec.toNat ca % width = 0)
    ∧ (target = CoreTarget.device a)
    ∧ (s.dev.targetOf s.nv (a / 4 * 4) = Target.depot 0 off)
    ∧ (s.dev.gate s.nv (Master.sb n) wr.isSome (a / 4 * 4) = Gate.open_)
    ∧ (s.dev.banksTested (off / 4 * 4) 4 = true))
    ∧ (let s : State := (cs id); let n : Fin 8 := 2; let ca : Word := 0x40; let width : Nat := 4; let wr : Option Word := none; let c : Core := s.dev.core ↑n; let target : CoreTarget := c.target (↑n) (BitVec.toNat ca); let a : Nat := 64;
    (s.dev.clocked = true)
    ∧ (s.dev.coreActs ↑n = true)
    ∧ (s.dev.link.waitC = [])
    ∧ (width = 1 ∨ width = 2 ∨ width = 4)
    ∧ (BitVec.toNat ca % width = 0)
    ∧ (target = CoreTarget.device a ∧ a < depotSize ∧ s.dev.passed 3 = true ∧ s.mem.depotErr = [] ∧ s.dev.testing 2 (depotBank a) = false ∧ s.dev.gatedOff (a / 4 * 4) = false)
    ∧ (wr = none))
    ∧ (let s : State := c0; let n : Fin 8 := 0; let user : Bool := true; let ca : Word := 0x30000004; let width : Nat := 4; let c : Core := s.dev.core ↑n; let target : CoreTarget := c.target (↑n) (BitVec.toNat ca); let off : Nat := 4;
    (s.dev.clocked = true)
    ∧ (s.dev.coreActs ↑n = true)
    ∧ (s.dev.link.waitC = [])
    ∧ (width = 1 ∨ width = 2 ∨ width = 4)
    ∧ (BitVec.toNat ca % width = 0)
    ∧ (target = CoreTarget.rom off)
    ∧ (user = true))
    ∧ (let s : State := cg; let n : Fin 8 := 2; let user : Bool := true; let ca : Word := 0x40000000; let width : Nat := 4; let c : Core := s.dev.core ↑n; let target : CoreTarget := c.target (↑n) (BitVec.toNat ca); let a : Nat := 137438953472; let off : Nat := 0;
    (s.dev.clocked = true)
    ∧ (s.dev.coreActs ↑n = true)
    ∧ (s.dev.link.waitC = [])
    ∧ (width = 1 ∨ width = 2 ∨ width = 4)
    ∧ (BitVec.toNat ca % width = 0)
    ∧ (target = CoreTarget.device a)
    ∧ (s.dev.targetOf s.nv (a / 4 * 4) = Target.gddr off)
    ∧ (user = true))
    ∧ (let s : State := c0; let n : Fin 8 := 0; let user : Bool := false; let ca : Word := 0x30000004; let width : Nat := 4; let wr : Option Word := none; let c : Core := s.dev.core ↑n; let target : CoreTarget := c.target (↑n) (BitVec.toNat ca); let off : Nat := 4;
    (s.dev.clocked = true)
    ∧ (s.dev.coreActs ↑n = true)
    ∧ (s.dev.link.waitC = [])
    ∧ (width = 1 ∨ width = 2 ∨ width = 4)
    ∧ (BitVec.toNat ca % width = 0)
    ∧ (target = CoreTarget.rom off)
    ∧ (user = false)
    ∧ (wr = none))
    ∧ (let s : State := cg; let n : Fin 8 := 2; let user : Bool := false; let ca : Word := 0x40000000; let width : Nat := 4; let wr : Option Word := none; let c : Core := s.dev.core ↑n; let target : CoreTarget := c.target (↑n) (BitVec.toNat ca); let byFreight : Nat → Bool := fun (w : Nat) =>   match s.dev.targetOf s.nv w with   | Target.gddr off => true   | Target.station rank off => decide (off < 393216) && s.dev.gate s.nv (Master.sb n) wr.isSome w == Gate.open_   | x => false; let a : Nat := 137438953472; let e : Nat := (cg.dev.endpointOf cg.nv 137438953472).getD 0;
    (s.dev.clocked = true)
    ∧ (s.dev.coreActs ↑n = true)
    ∧ (s.dev.link.waitC = [])
    ∧ (width = 1 ∨ width = 2 ∨ width = 4)
    ∧ (BitVec.toNat ca % width = 0)
    ∧ (target = CoreTarget.device a)
    ∧ (byFreight (a / 4 * 4) = true)
    ∧ (user = false)
    ∧ (s.dev.endpointOf s.nv (a / 4 * 4) = some e)
    ∧ (s.dev.descQueue < 64))
    ∧ (let s : State := cgF; let n : Fin 8 := 2; let user : Bool := false; let ca : Word := 0x40000000; let width : Nat := 4; let wr : Option Word := none; let c : Core := s.dev.core ↑n; let target : CoreTarget := c.target (↑n) (BitVec.toNat ca); let byFreight : Nat → Bool := fun (w : Nat) =>   match s.dev.targetOf s.nv w with   | Target.gddr off => true   | Target.station rank off => decide (off < 393216) && s.dev.gate s.nv (Master.sb n) wr.isSome w == Gate.open_   | x => false; let a : Nat := 137438953472; let e : Nat := (cg.dev.endpointOf cg.nv 137438953472).getD 0;
    (s.dev.clocked = true)
    ∧ (s.dev.coreActs ↑n = true)
    ∧ (s.dev.link.waitC = [])
    ∧ (width = 1 ∨ width = 2 ∨ width = 4)
    ∧ (BitVec.toNat ca % width = 0)
    ∧ (target = CoreTarget.device a)
    ∧ (byFreight (a / 4 * 4) = true)
    ∧ (user = false)
    ∧ (s.dev.endpointOf s.nv (a / 4 * 4) = some e)
    ∧ (64 ≤ s.dev.descQueue))
    ∧ (let s : State := (cs id); let n : Fin 8 := 2; let ca : Word := 0x40; let width : Nat := 4; let wr : Option Word := (some 5); let c : Core := s.dev.core ↑n; let target : CoreTarget := c.target (↑n) (BitVec.toNat ca); let a : Nat := 64; let v : Word := 5;
    (s.dev.clocked = true)
    ∧ (s.dev.coreActs ↑n = true)
    ∧ (s.dev.link.waitC = [])
    ∧ (width = 1 ∨ width = 2 ∨ width = 4)
    ∧ (BitVec.toNat ca % width = 0)
    ∧ (target = CoreTarget.device a ∧ a < depotSize ∧ s.dev.passed 3 = true ∧ s.mem.depotErr = [] ∧ s.dev.testing 2 (depotBank a) = false ∧ s.dev.gatedOff (a / 4 * 4) = false)
    ∧ (wr = some v))
    ∧ (let s : State := (cs id); let n : Fin 8 := 2; let user : Bool := true; let ca : Word := 0x30100040; let width : Nat := 4; let wr : Option Word := none; let c : Core := s.dev.core ↑n; let target : CoreTarget := c.target (↑n) (BitVec.toNat ca); let k : Nat := 2; let off : Nat := 64;
    (s.dev.clocked = true)
    ∧ (s.dev.coreActs ↑n = true)
    ∧ (s.dev.link.waitC = [])
    ∧ (width = 1 ∨ width = 2 ∨ width = 4)
    ∧ (BitVec.toNat ca % width = 0)
    ∧ (target = CoreTarget.local_ k off)
    ∧ (k = ↑n ∨ user = false)
    ∧ (wr = none))
    ∧ (let s : State := (cs id); let n : Fin 8 := 2; let ca : Word := 0x30100041; let width : Nat := 4;
    (s.dev.clocked = true)
    ∧ (s.dev.coreActs ↑n = true)
    ∧ (s.dev.link.waitC = [])
    ∧ (width = 1 ∨ width = 2 ∨ width = 4)
    ∧ (BitVec.toNat ca % width ≠ 0))
    ∧ (let s : State := (cs id); let n : Fin 8 := 2; let ca : Word := 0x38200000; let width : Nat := 4; let c : Core := s.dev.core ↑n; let target : CoreTarget := c.target (↑n) (BitVec.toNat ca);
    (s.dev.clocked = true)
    ∧ (s.dev.coreActs ↑n = true)
    ∧ (s.dev.link.waitC = [])
    ∧ (width = 1 ∨ width = 2 ∨ width = 4)
    ∧ (BitVec.toNat ca % width = 0)
    ∧ (target = CoreTarget.closed))
    ∧ (let s : State := (cs id); let n : Fin 8 := 2; let user : Bool := true; let ca : Word := 0x30100040; let width : Nat := 4; let wr : Option Word := (some 5); let c : Core := s.dev.core ↑n; let target : CoreTarget := c.target (↑n) (BitVec.toNat ca); let k : Nat := 2; let off : Nat := 64; let v : Word := 5;
    (s.dev.clocked = true)
    ∧ (s.dev.coreActs ↑n = true)
    ∧ (s.dev.link.waitC = [])
    ∧ (width = 1 ∨ width = 2 ∨ width = 4)
    ∧ (BitVec.toNat ca % width = 0)
    ∧ (target = CoreTarget.local_ k off)
    ∧ (k = ↑n ∨ user = false)
    ∧ (wr = some v)) := by decide +kernel

/-- `Obligations.BoardReachesDevice`, part 1. -/
theorem wit_SidebandReaches :
    (let s : State := R0; let off : Word := 8; let x : Nat := BitVec.toNat off; let d : Dev := s.dev; let a : Nat := d.sbwAddr;
    (s.dev.clocked = true)
    ∧ (s.dev.awake = true)
    ∧ (s.dev.link.waitC = [])
    ∧ (x % 4 = 0)
    ∧ (x < 65536)
    ∧ (d.gatedOff (4294967296 + x) = false)
    ∧ (a % 4 = 0 ∧ a < depotSize ∧ d.passed 3 = true ∧ s.mem.depotErr = [] ∧ d.testing 2 (depotBank a) = false ∧ d.gatedOff a = false))
    ∧ (let s : State := sbx; let off : Word := 0x10010; let x : Nat := BitVec.toNat off; let d : Dev := s.dev; let a : Nat := d.sbwAddr;
    (s.dev.clocked = true)
    ∧ (s.dev.awake = true)
    ∧ (s.dev.link.waitC = [])
    ∧ (x % 4 ≠ 0 ∨ 65552 ≤ x)
    ∧ (a % 4 ≠ 0))
    ∧ (let s : State := R0; let off : Word := 0x10000; let x : Nat := BitVec.toNat off;
    (s.dev.clocked = true)
    ∧ (s.dev.awake = true)
    ∧ (s.dev.link.waitC = [])
    ∧ (x = sbwAddrLo))
    ∧ (let s : State := R0; let off : Word := 0x10004; let x : Nat := BitVec.toNat off;
    (s.dev.clocked = true)
    ∧ (s.dev.awake = true)
    ∧ (s.dev.link.waitC = [])
    ∧ (x = sbwAddrHi))
    ∧ (let s : State := R0; let off : Word := 0x1000C; let x : Nat := BitVec.toNat off;
    (s.dev.clocked = true)
    ∧ (s.dev.awake = true)
    ∧ (s.dev.link.waitC = [])
    ∧ (x = sbwCtrl)) := by decide +kernel

/-- `Obligations.BoardReachesDevice`, part 2. -/
theorem wit_SmbusServesBoard :
    (let s : State := (ready [(R.PIN_SMB_CFG, 1), (R.PIN_BC_ALERT, 0x10001)]); let a : Addr := 0x40; let v : Word := 0x55; let b : Byte := 0x41; let kind : BitVec 8 := 2; let pec : Pec := none; let d : Dev := s.dev; let x : Nat := BitVec.toNat a; let use : Nat → List Byte → PecUse := fun (cmd : Nat) (bs : List Byte) => s.nv.pecUse cmd bs pec; let wdata : List Byte := blockOf (leBytes 5 x ++ wordBytes v);
    (s.dev.clocked = true)
    ∧ (s.dev.link.waitC = [])
    ∧ (d.awake = true)
    ∧ (smbReach x = false)
    ∧ (¬d.pecOk (use 2 wdata) = true)
    ∧ (d.pecOk d.smbUse = false)
    ∧ (¬d.pecOk (use 6 [b]) = true)
    ∧ (¬d.pecOk (use 7 [kind]) = true)
    ∧ (d.alertLow = true))
    ∧ (let s : State := R0; let a : Addr := (BitVec.ofNat 40 R.PIN_OUT_SET); let v : Word := 0x55; let b : Byte := 0x41; let kind : BitVec 8 := 3; let pec : Pec := none; let d : Dev := s.dev; let x : Nat := BitVec.toNat a; let use : Nat → List Byte → PecUse := fun (cmd : Nat) (bs : List Byte) => s.nv.pecUse cmd bs pec; let wdata : List Byte := blockOf (leBytes 5 x ++ wordBytes v);
    (s.dev.clocked = true)
    ∧ (s.dev.link.waitC = [])
    ∧ (d.awake = true)
    ∧ (smbReach x = true)
    ∧ (x % 4 = 0)
    ∧ (d.gatedOff x = false)
    ∧ (d.pecOk (use 2 wdata) = true)
    ∧ (d.pecOk d.smbUse = true)
    ∧ (d.pecOk (use 6 [b]) = true)
    ∧ (d.pecOk (use 7 [kind]) = true)
    ∧ (kind = 3))
    ∧ (let s : State := R0; let a : Addr := 0x40; let v : Word := 0x55; let kind : BitVec 8 := 7; let pec : Pec := none; let d : Dev := s.dev; let x : Nat := BitVec.toNat a; let use : Nat → List Byte → PecUse := fun (cmd : Nat) (bs : List Byte) => s.nv.pecUse cmd bs pec; let wdata : List Byte := blockOf (leBytes 5 x ++ wordBytes v);
    (s.dev.clocked = true)
    ∧ (s.dev.link.waitC = [])
    ∧ (d.awake = true)
    ∧ (d.pecOk (use 2 wdata) = true)
    ∧ (smbReach x = false)
    ∧ (d.pecOk (use 7 [kind]) = true)
    ∧ (kind = 0 ∨ 4 ≤ kind.toNat))
    ∧ (let s : State := R0; let kind : BitVec 8 := 1; let pec : Pec := none; let d : Dev := s.dev; let use : Nat → List Byte → PecUse := fun (cmd : Nat) (bs : List Byte) => s.nv.pecUse cmd bs pec;
    (s.dev.clocked = true)
    ∧ (s.dev.link.waitC = [])
    ∧ (d.awake = true)
    ∧ (d.pecOk (use 7 [kind]) = true)
    ∧ (kind = 1))
    ∧ (let s : State := R0; let kind : BitVec 8 := 2; let pec : Pec := none; let d : Dev := s.dev; let use : Nat → List Byte → PecUse := fun (cmd : Nat) (bs : List Byte) => s.nv.pecUse cmd bs pec;
    (s.dev.clocked = true)
    ∧ (s.dev.link.waitC = [])
    ∧ (d.awake = true)
    ∧ (d.pecOk (use 7 [kind]) = true)
    ∧ (kind = 2)) := by decide +kernel

/-- `Obligations.BoardReachesDevice`, part 3. -/
theorem wit_TapServesJtag :
    (let s : State := R0; let wr : Bool := true; let a : Addr := 0x40; let d : Dev := s.dev; let x : Nat := BitVec.toNat a;
    (d.clocked = true)
    ∧ (d.awake = true)
    ∧ (d.link.waitC = [])
    ∧ (d.jtagBusy = false)
    ∧ (x % 4 = 0 ∧ x < depotSize ∧ d.passed 3 = true ∧ s.mem.depotErr = [] ∧ d.testing 2 (depotBank x) = false ∧ d.gatedOff x = false)
    ∧ (wr = true)
    ∧ (d.powered = true))
    ∧ (let s : State := (R0.mapDev fun d => d.setRa .jtag (some ⟨9, false, none⟩)); let d : Dev := s.dev;
    (d.clocked = true)
    ∧ (d.jtagBusy = true)
    ∧ (d.powered = true))
    ∧ (let s : State := R0; let wr : Bool := false; let a : Addr := 0x40; let d : Dev := s.dev; let x : Nat := BitVec.toNat a;
    (d.clocked = true)
    ∧ (d.awake = true)
    ∧ (d.link.waitC = [])
    ∧ (d.jtagBusy = false)
    ∧ (x % 4 = 0 ∧ x < depotSize ∧ d.passed 3 = true ∧ s.mem.depotErr = [] ∧ d.testing 2 (depotBank x) = false ∧ d.gatedOff x = false)
    ∧ (wr = false)) := by decide +kernel

end Sys2Proof.Tests13

end
end

/-! PROOFS. Depot memory: the bit aliases (R278), and what keeps its contents and what loses them (R280). -/

namespace Sys2Proof.Machine

/-! ### Bytes of a word in memory -/

/-- Byte `i` of a word, bit by bit. -/
theorem getLsbD_byteAt (v : Word) (i j : Nat) :
    (BitVec.ofNat 8 (v.toNat >>> (8 * i))).getLsbD j = (decide (j < 8) && v.getLsbD (8 * i + j)) := by
  simp [BitVec.getLsbD_ofNat, Nat.testBit_shiftRight, BitVec.testBit_toNat]

theorem byteAt_or (w v : Word) (i : Nat) :
    BitVec.ofNat 8 ((w ||| v).toNat >>> (8 * i))
      = BitVec.ofNat 8 (w.toNat >>> (8 * i)) ||| BitVec.ofNat 8 (v.toNat >>> (8 * i)) := by
  refine BitVec.eq_of_getLsbD_eq fun j hj => ?_
  simp only [BitVec.getLsbD_or, getLsbD_byteAt, Bool.and_or_distrib_left]

theorem byteAt_andNot (w v : Word) {i : Nat} (hi : i < 4) :
    BitVec.ofNat 8 ((w &&& ~~~v).toNat >>> (8 * i))
      = BitVec.ofNat 8 (w.toNat >>> (8 * i)) &&& ~~~(BitVec.ofNat 8 (v.toNat >>> (8 * i))) := by
  refine BitVec.eq_of_getLsbD_eq fun j hj => ?_
  have hb : 8 * i + j < 32 := by omega
  simp only [BitVec.getLsbD_and, BitVec.getLsbD_not, getLsbD_byteAt, hj, hb, decide_true, Bool.true_and]

/-- A digit of the number that little-endian bytes spell is the byte at its place. -/
theorem byteAt_leNat (bs : List Byte) (i : Nat) : BitVec.ofNat 8 (leNat bs >>> (8 * i)) = bs.getD i 0 := by
  induction bs generalizing i with
  | nil => simp [leNat]
  | cons b bs ih =>
    cases i with
    | zero =>
      have hb : leNat (b :: bs) % 2 ^ 8 = b.toNat := by
        have := b.isLt
        rw [leNat]
        omega
      exact BitVec.eq_of_toNat_eq ((BitVec.toNat_ofNat _ _).trans hb)
    | succ i =>
      have hs : leNat (b :: bs) >>> 8 = leNat bs := by
        rw [leNat, Nat.shiftRight_eq_div_pow]
        omega
      rw [Nat.mul_add_one, Nat.add_comm, Nat.shiftRight_add, hs, ih]
      rfl

theorem leNat_lt (bs : List Byte) : leNat bs < 256 ^ bs.length := by
  induction bs with
  | nil => simp [leNat]
  | cons b bs ih =>
    rw [leNat, List.length_cons, Nat.pow_succ]
    omega

/-- The bytes read from consecutive places are those that stand there. -/
theorem getD_readBytes (d : Nat → Byte) (m : PMap Byte) {n i : Nat} (a : Nat) (hi : i < n) :
    (readBytes d m a n).getD i 0 = m.get d (a + i) := by
  induction n generalizing a i with
  | zero => exact absurd hi (Nat.not_lt_zero i)
  | succ n ih =>
    cases i with
    | zero => rfl
    | succ i =>
      rw [readBytes, List.getD_cons_succ, ih (a + 1) (Nat.lt_of_succ_lt_succ hi), Nat.add_assoc, Nat.add_comm 1 i]

/-- Byte `i` of a word of memory is the byte at its place. -/
theorem byteAt_readWord (m : PMap Byte) (a : Nat) {i : Nat} (hi : i < 4) :
    BitVec.ofNat 8 ((readWord m a).toNat >>> (8 * i)) = m.get zeroByte (a + i) := by
  have hlt : leNat (readBytes zeroByte m a 4) < 2 ^ 32 := Nat.lt_of_lt_of_eq (leNat_lt _) (by simp [readBytes])
  have hw : (readWord m a).toNat = leNat (readBytes zeroByte m a 4) := by
    rw [readWord, BitVec.toNat_ofNat, Nat.mod_eq_of_lt hlt]
  rw [hw, byteAt_leNat, getD_readBytes _ _ _ hi]

/-- A byte after a write of the bytes below `n` that the byte enables select. -/
theorem get_foldl_enabled (m : PMap Byte) (a : Nat) (be : BitVec 4) (v : Word) (n j : Nat) :
    ((List.range n).foldl (fun m i => if be.getLsbD i then
        PMap.set zeroByte m (a + i) (BitVec.ofNat 8 (v.toNat >>> (8 * i))) else m) m).get zeroByte j
      = if a ≤ j ∧ j < a + n ∧ be.getLsbD (j - a) then BitVec.ofNat 8 (v.toNat >>> (8 * (j - a))) else m.get zeroByte j := by
  induction n with
  | zero => exact (if_neg (by omega)).symm
  | succ n ih =>
    rw [List.range_succ, List.foldl_append, List.foldl_cons, List.foldl_nil]
    by_cases hj : j = a + n
    · subst hj
      split <;> simp_all
    · have hr : j < a + (n + 1) ↔ j < a + n := by omega
      simp only [hr]
      split
      · rw [PMap.get_set_ne _ _ _ hj, ih]
      · exact ih

/-- A byte of a word after a write by the byte enables. -/
theorem get_writeEnabled_in (m : PMap Byte) (a : Nat) (be : BitVec 4) (v : Word) {i : Nat} (hi : i < 4) :
    (writeEnabled m a be v).get zeroByte (a + i)
      = if be.getLsbD i then BitVec.ofNat 8 (v.toNat >>> (8 * i)) else m.get zeroByte (a + i) := by
  simp [writeEnabled, get_foldl_enabled, hi]

/-- Bytes outside a word written by the byte enables read as before. -/
theorem get_writeEnabled_out (m : PMap Byte) (a : Nat) (be : BitVec 4) (v : Word) {j : Nat} (hj : j < a ∨ a + 4 ≤ j) :
    (writeEnabled m a be v).get zeroByte j = m.get zeroByte j := by
  rw [writeEnabled, get_foldl_enabled, if_neg (by omega)]

/-- A Depot word lies in one bank, so that no other keeps it waiting (R277, R287). -/
theorem Dev.banksTested_word {d : Dev} {w : Nat} (hw : w % 4 = 0) (h : d.testing 2 (depotBank w) = false) :
    d.banksTested w 4 = false := by
  have h1 : min 32 ((w + 4 - 1) / 32 - w / 32 + 1) = 1 := by omega
  rw [Dev.banksTested, h1]
  simp [h]


/-! ### Words of Depot memory (R278, R279) -/

/-- Without words in error a read finds none and leaves everything as it is (R279). -/
theorem depotScan_of_noErr {x : Mem × Dev} (h : x.1.depotErr = []) (a len : Nat) : depotScan x a len = (true, x) := by
  simp [depotScan, h]

/-- What a write through the bit aliases makes of a word: kind 1 sets bits, kind 2 clears them (R278). -/
def aliasWord (kind : Nat) (v old : Word) : Word := if kind = 1 then old ||| v else old &&& ~~~v

/-- Memory after a write through the bit aliases of the word at `w` (R278). -/
def Mem.aliasPut (mem : Mem) (kind w : Nat) (be : BitVec 4) (v : Word) : Mem :=
  { mem with depot := writeEnabled mem.depot w be (aliasWord kind v (mem.depotWord w)) }

theorem depotAccess_alias {m : Master} {kind w : Nat} {be : BitVec 4} {ca v : Word} {mem : Mem} {d : Dev}
    (hk : kind ≠ 0) (hw : w % 4 = 0) (ht : d.testing 2 (depotBank w) = false) (he : mem.depotErr = []) :
    depotAccess m kind w be ca 4 (some v) none (mem, d) = (okWord 0, (mem.aliasPut kind w be v, d)) := by
  have hw4 : w / 4 * 4 = w := by omega
  have h4w : 4 * (w / 4) = w := by omega
  have hk0 : (kind == 0) = false := by simpa using hk
  simp only [depotAccess, hw4, Dev.banksTested_word hw ht, Bool.false_eq_true, if_false, depotWord, depotModify, hk0,
    Bool.false_and, h4w, depotScan_of_noErr (x := (mem, d)) he, if_true, if_neg hk]
  rfl

theorem depotAccess_read {m : Master} {kind w : Nat} {be : BitVec 4} {ca : Word} {mem : Mem} {d : Dev}
    (hw : w % 4 = 0) (ht : d.testing 2 (depotBank w) = false) (he : mem.depotErr = []) :
    depotAccess m kind w be ca 4 none none (mem, d) = (okWord (mem.depotWord w), (mem, d)) := by
  have hw4 : w / 4 * 4 = w := by omega
  simp only [depotAccess, hw4, Dev.banksTested_word hw ht, Bool.false_eq_true, if_false, depotWord,
    depotScan_of_noErr (x := (mem, d)) he, if_true]

/-- The bit aliases of a Depot word (R278), once stage 3 has passed. -/
theorem Dev.targetOf_alias {d : Dev} {n : Nv} {kind w : Nat} (hk : kind = 1 ∨ kind = 2) (hw : w % 4 = 0) (hlt : w < depotSize)
    (hp : d.passed 3 = true) : d.targetOf n (kind * 0x10000000 + w) = .depot kind w := by
  have ha : ¬(kind * 0x10000000 + w) % 4 ≠ 0 := by omega
  have hd : ¬kind * 0x10000000 + w < depotSize := by simp only [depotSize] at *; omega
  simp only [Dev.targetOf, if_neg ha, if_neg hd, hp, if_true]
  rcases hk with rfl | rfl
  · rw [if_pos (by simp only [depotSize] at *; omega), Nat.one_mul, Nat.add_sub_cancel_left]
  · have h2 : 2 * 0x10000000 + w - 0x20000000 = w := by omega
    rw [if_neg (by simp only [depotSize] at *; omega), if_pos (by simp only [depotSize] at *; omega), h2]

/-- An access that reaches its target by some master reaches it by JTAG, which R273 does not restrict. -/
theorem Dev.gate_jtag_of_open {d : Dev} {n : Nv} {m : Master} {wr wr' : Bool} {a : Nat} (h : d.gate n m wr a = .open_) :
    d.gate n .jtag wr' a = .open_ := by
  cases m with
  | sb c =>
    unfold Dev.gate at h ⊢
    dsimp only at h ⊢
    split at h
    · cases h
    · exact h
  | _ => exact h

/-! ### Accesses through the aliases (R278) -/

/-- A write through the bit aliases that reaches its word changes the enabled bytes and returns nothing. -/
theorem aliasWrite_open {m : Master} {kind : Nat} {off : BitVec 24} {be : BitVec 4} {v : Word} {n : Nv} {mem : Mem} {d : Dev}
    (hk : kind = 1 ∨ kind = 2) (hg : d.gate n m true (kind * 0x10000000 + off.toNat / 4 * 4) = .open_)
    (hp : d.passed 3 = true) (ht : d.testing 2 (depotBank (off.toNat / 4 * 4)) = false) (he : mem.depotErr = []) :
    aliasWrite m kind off be v (n, mem, d)
      = (n, mem.aliasPut kind (off.toNat / 4 * 4) be v, d.complete m .ok []) := by
  have ha : (kind * 0x10000000 + off.toNat) / 4 * 4 = kind * 0x10000000 + off.toNat / 4 * 4 := by omega
  have hw : off.toNat / 4 * 4 % 4 = 0 := by omega
  have hlt : off.toNat / 4 * 4 < depotSize := by have := off.isLt; simp only [depotSize]; omega
  have hk0 : kind ≠ 0 := by omega
  simp only [aliasWrite, ha, hg, Dev.targetOf_alias hk hw hlt hp, depotAccess_alias hk0 hw ht he]
  rfl

/-- A read by JTAG of a Depot word, at any of its addresses: the word, and nothing changes. -/
theorem accessOf_depot_read {a kind w : Nat} {n : Nv} {mem : Mem} {d : Dev} (ha : d.targetOf n a = .depot kind w)
    (hw : w % 4 = 0) (hg : d.gate n .jtag false a = .open_) (ht : d.testing 2 (depotBank w) = false) (he : mem.depotErr = []) :
    accessOf .jtag a none (n, mem, d) = (n, mem, d.complete .jtag .ok [mem.depotWord w]) := by
  have hr : ¬(d.targetOf n a = .reg ∧ R.CHN_REQ_DATA ≤ a ∧ a < R.CHN_REQ_STATUS) := fun h => by simp [ha] at h
  have hx : access .jtag a none none (n, mem, d) = (okWord (mem.depotWord w), n, mem, d) := by
    unfold access
    dsimp only
    rw [if_neg hr, if_neg (by simp), Option.isSome_none, hg, ha]
    dsimp only
    rw [depotAccess_read hw ht he]
  rw [accessOf, hx]
  rfl

/-- With no request of class C waiting there is none to serve (R241). -/
theorem serveAll_of_noneWaits {x : Whole} (h : x.2.2.link.waitC = []) : serveAll x = x := by
  simp [serveAll, h, serveC]

theorem onAll_congr {s : State} {f g : Whole → Whole} (h : f (s.nv, s.mem, s.dev) = g (s.nv, s.mem, s.dev)) :
    onAll f s = onAll g s := by
  simp only [onAll, h]

/-- A read that the TAP starts, none being in progress, is JTAG's access; its own register alone changes besides (R436). -/
theorem exec_jtagRegAccess_read {s : State} {a : Addr} {v : Word} (hawake : s.dev.awake = true) (hbusy : s.dev.jtagBusy = false) :
    ∃ j, exec (.jtagRegAccess false a v) s
      = onAll (fun _ => serveAll (accessOf .jtag a.toNat none (s.nv, s.mem, { s.dev with jtag := j }))) s := by
  have hgo : ¬(s.dev.jtagBusy = true ∨ (!s.dev.awake) = true) := by simp [hawake, hbusy]
  refine ⟨{ (s.dev.jtagIr irRegAccess).jtag with
    dr := BitVec.ofNat 75 ((if false then 2 ^ 72 else 0) + a.toNat * 2 ^ 32 + v.toNat) }, ?_⟩
  show execJtagRegAccess false a v s = _
  unfold execJtagRegAccess
  exact onAll_congr (if_neg hgo)

/-- A byte of the word after a write through the bit aliases (R278). -/
theorem get_aliasPut (mem : Mem) (kind w : Nat) (be : BitVec 4) (v : Word) {i : Nat} (hi : i < 4) :
    (mem.aliasPut kind w be v).depot.get zeroByte (w + i)
      = if be.getLsbD i then
          if kind = 1 then mem.depot.get zeroByte (w + i) ||| BitVec.ofNat 8 (v.toNat >>> (8 * i))
          else mem.depot.get zeroByte (w + i) &&& ~~~(BitVec.ofNat 8 (v.toNat >>> (8 * i)))
        else mem.depot.get zeroByte (w + i) := by
  rw [Mem.aliasPut, get_writeEnabled_in _ _ _ _ hi, aliasWord]
  split
  · split
    · rw [byteAt_or, Mem.depotWord, byteAt_readWord _ _ hi]
    · rw [byteAt_andNot _ _ hi, Mem.depotWord, byteAt_readWord _ _ hi]
  · rfl

/-- What lies at an address, and whether an access reaches it, does not depend on the TAP's own registers. -/
theorem Dev.targetOf_jtag (d : Dev) (j : Jtag) (n : Nv) (a : Nat) : { d with jtag := j }.targetOf n a = d.targetOf n a := rfl
theorem Dev.gate_jtag (d : Dev) (j : Jtag) (n : Nv) (m : Master) (wr : Bool) (a : Nat) :
    { d with jtag := j }.gate n m wr a = d.gate n m wr a := rfl

/-- A read by JTAG through the bit aliases that reaches its word returns the word and changes no memory (R278). -/
theorem exec_jtagRead_alias {s : State} {m : Master} {kind w : Nat} {v : Word} (hk : kind = 1 ∨ kind = 2) (hw : w % 4 = 0)
    (hlt : w < depotSize) (ho : s.opens m true (kind * 0x10000000 + w)) (hp : s.dev.passed 3 = true)
    (ht : s.dev.testing 2 (depotBank w) = false) (he : s.mem.depotErr = []) (hawake : s.dev.awake = true)
    (hbusy : s.dev.jtagBusy = false) (hq : s.dev.link.waitC = []) :
    Answers (exec (.jtagRegAccess false (BitVec.ofNat 40 (kind * 0x10000000 + w)) v) s) fun u =>
      u.mem = s.mem ∧ u.dev.completion .jtag = { status := .ok, data := [s.mem.depotWord w] } := by
  obtain ⟨hc, hg⟩ := ho
  obtain ⟨j, hj⟩ := exec_jtagRegAccess_read (a := BitVec.ofNat 40 (kind * 0x10000000 + w)) (v := v) hawake hbusy
  have ha : (BitVec.ofNat 40 (kind * 0x10000000 + w)).toNat = kind * 0x10000000 + w := by
    rw [BitVec.toNat_ofNat, Nat.mod_eq_of_lt (by simp only [depotSize] at hlt; omega)]
  have htarget := (Dev.targetOf_jtag s.dev j s.nv _).trans (Dev.targetOf_alias hk hw hlt hp)
  have hgate := (Dev.gate_jtag s.dev j s.nv .jtag false _).trans (Dev.gate_jtag_of_open hg)
  have hread := accessOf_depot_read htarget hw hgate ht he
  rw [hj, ha, hread, serveAll_of_noneWaits hq, onAll_next hc]
  exact ⟨_, rfl, rfl, by simp⟩

/-- A command that writes through the bit aliases and reaches its word (R278). -/
theorem exec_aliasWrite_open {s : State} {m : Master} {kind : Nat} {off : BitVec 24} {be : BitVec 4} {v : Word}
    (hk : kind = 1 ∨ kind = 2) (ho : s.opens m true (kind * 0x10000000 + off.toNat / 4 * 4)) (hp : s.dev.passed 3 = true)
    (ht : s.dev.testing 2 (depotBank (off.toNat / 4 * 4)) = false) (he : s.mem.depotErr = []) :
    Answers (onAll (aliasWrite m kind off be v) s) fun u =>
      (u.dev.completion m = { status := .ok, data := [] } ∧ u.dev.regs = s.dev.regs
        ∧ ∀ b, b < off.toNat / 4 * 4 ∨ off.toNat / 4 * 4 + 4 ≤ b → u.mem.depot.get zeroByte b = s.mem.depot.get zeroByte b)
      ∧ ∀ i, i < 4 → u.mem.depot.get zeroByte (off.toNat / 4 * 4 + i)
        = if be.getLsbD i then
            if kind = 1 then s.mem.depot.get zeroByte (off.toNat / 4 * 4 + i) ||| BitVec.ofNat 8 (v.toNat >>> (8 * i))
            else s.mem.depot.get zeroByte (off.toNat / 4 * 4 + i) &&& ~~~(BitVec.ofNat 8 (v.toNat >>> (8 * i)))
          else s.mem.depot.get zeroByte (off.toNat / 4 * 4 + i) := by
  obtain ⟨hc, hg⟩ := ho
  rw [onAll_next hc, aliasWrite_open hk hg hp ht he]
  exact ⟨_, rfl, ⟨by simp, rfl, fun _ hb => get_writeEnabled_out _ _ _ _ hb⟩, fun _ hi => get_aliasPut _ _ _ _ _ hi⟩

/-- Settles O15: a write through the bit aliases changes the enabled bytes of its word alone, and a read returns the word. -/
theorem depotAliasesModify : Obligations.DepotAliasesModify := by
  intro s m off be v
  refine ⟨?_, ?_, ?_⟩
  · rintro ⟨ho, hp, ht, he⟩
    exact exec_aliasWrite_open (.inl rfl) ho hp ht he
  · rintro ⟨ho, hp, ht, he⟩
    exact exec_aliasWrite_open (.inr rfl) ho hp ht he
  · rintro k hk ⟨ho, hp, ht, he⟩ hawake hbusy hq
    have hw : off.toNat / 4 * 4 % 4 = 0 := by omega
    have hlt : off.toNat / 4 * 4 < depotSize := by have := off.isLt; simp only [depotSize]; omega
    exact exec_jtagRead_alias hk hw hlt ho hp ht he hawake hbusy hq

end Sys2Proof.Machine

namespace Sys2Proof.Machine

/-! ### Requests of class C that wait (R241): what leaves the link alone

A command gives such a request its chance at its end (`serveAll`), so Depot memory is safe from them as long as none waits. -/

/-- A fold whose steps all keep a view of the state keeps it. -/
theorem foldl_keeps {α β γ : Type} (view : α → γ) {f : α → β → α} (h : ∀ a b, view (f a b) = view a) (l : List β) (a : α) :
    view (l.foldl f a) = view a := by
  induction l generalizing a with
  | nil => rfl
  | cons b l ih => rw [List.foldl_cons, ih, h]

@[simp] theorem Dev.orBits_link (d : Dev) (a m : Nat) : (d.orBits a m).link = d.link := rfl
@[simp] theorem Dev.andNot_link (d : Dev) (a m : Nat) : (d.andNot a m).link = d.link := rfl
@[simp] theorem Dev.resetRegs_link (d : Dev) (lo hi : Nat) : (d.resetRegs lo hi).link = d.link := rfl
@[simp] theorem Dev.resetReg_link (d : Dev) (a : Nat) : (d.resetReg a).link = d.link := rfl
@[simp] theorem Dev.resetSW_link (d : Dev) (p lo hi : Nat) : (d.resetSW p lo hi).link = d.link := rfl
@[simp] theorem Dev.updSW_link (d : Dev) (p o : Nat) (f : Word → Word) : (d.updSW p o f).link = d.link := rfl
@[simp] theorem Dev.updStn_link (d : Dev) (p : Nat) (f : Station → Station) : (d.updStn p f).link = d.link := rfl
@[simp] theorem Dev.levelsFollow_link (d : Dev) : d.levelsFollow.link = d.link := rfl
@[simp] theorem Dev.count_link (d : Dev) (a k o b : Nat) : (d.count a k o b).link = d.link := by
  unfold Dev.count; dsimp only; split <;> rfl

/-! The Token Office. -/

@[simp] theorem Dev.tokStop_link (d : Dev) (q : Nat) : (d.tokStop q).link = d.link := rfl

/-! The Freight network. -/

@[simp] theorem Dev.arbState_link (d : Dev) (p : Nat) : (d.arbState p).link = d.link := rfl
@[simp] theorem Dev.disown_link (d : Dev) (mine : FReq → Bool) : (d.disown mine).link = d.link := rfl
@[simp] theorem Dev.slotGiven_link (d : Dev) (a : Nat) : (d.slotGiven a).link = d.link := rfl

@[simp] theorem Dev.drawValiant_link (d : Dev) (p : Nat) : (d.drawValiant p).2.link = d.link := by
  unfold Dev.drawValiant; dsimp only; split <;> rfl

@[simp] theorem Dev.startOf_link (d : Dev) (own : Option Nat) (src dst t : Nat) : (d.startOf own src dst t).2.2.link = d.link := by
  unfold Dev.startOf
  split
  case h_1 => exact d.drawValiant_link _
  all_goals rfl

@[simp] theorem Dev.launch_link (d : Dev) (n : Nv) (own : Option Nat) (k : Packet) : (d.launch n own k).link = d.link := by
  unfold Dev.launch
  split
  · exact d.startOf_link own k.src k.dst k.txn
  · rfl

@[simp] theorem Dev.respond_link (d : Dev) (n : Nv) (own : Option Nat) (src : Nat) (r : Reply) (typ status : Nat)
    (data : List Byte) : (d.respond n own src r typ status data).link = d.link := d.launch_link ..

@[simp] theorem Dev.sendTxn_link (d : Dev) (n : Nv) (x : Txn) : (d.sendTxn n x).link = d.link := d.launch_link ..

@[simp] theorem Dev.openTxn_link (d : Dev) (n : Nv) (r : FReq) : (d.openTxn n r).link = d.link := by
  unfold Dev.openTxn
  split
  · rfl
  · exact Dev.sendTxn_link ..

@[simp] theorem Dev.pump_link (n : Nv) (fuel : Nat) (d : Dev) : (d.pump n fuel).link = d.link := by
  induction fuel generalizing d with
  | zero => rfl
  | succ fuel ih =>
    unfold Dev.pump
    dsimp only
    split
    · rfl
    · rw [ih, Dev.openTxn_link, Dev.slotGiven_link]

@[simp] theorem Dev.serveSlots_link (d : Dev) (n : Nv) : (d.serveSlots n).link = d.link := Dev.pump_link ..

@[simp] theorem Dev.dropWrite_link (d : Dev) (t : Txn) : (d.dropWrite t).link = d.link := by
  unfold Dev.dropWrite
  dsimp only
  split <;> rfl

@[simp] theorem Dev.withdraw_link (d : Dev) (n : Nv) (id : Nat) : (d.withdraw n id).link = d.link := by
  unfold Dev.withdraw
  rw [Dev.serveSlots_link, foldl_keeps Dev.link Dev.dropWrite_link, Dev.disown_link]

/-! Stations. -/

@[simp] theorem Dev.clearAllPre_link (d : Dev) (p : Nat) : (d.clearAllPre p).link = d.link := by
  unfold Dev.clearAllPre
  exact foldl_keeps Dev.link (fun d a => (rfl : (d.clearPre p a).link = d.link)) _ _

@[simp] theorem Dev.modsZero_link (d : Dev) (p : Nat) : (d.modsZero p).link = d.link := by
  unfold Dev.modsZero
  exact foldl_keeps Dev.link (fun _ _ => by simp) _ _

@[simp] theorem Dev.emitState_link (d : Dev) (p : Nat) : (d.emitState p).link = d.link := rfl
@[simp] theorem Dev.stationRegs_link (d : Dev) (p : Nat) : (d.stationRegs p).link = d.link := by
  unfold Dev.stationRegs
  simp only [Dev.arbState_link, Dev.emitState_link, Dev.updStn_link, Dev.setSW_link, Dev.resetSW_link]
@[simp] theorem Dev.seedStation_link (d : Dev) (p : Nat) : (d.seedStation p).link = d.link := rfl

@[simp] theorem Dev.occupy_link (d : Dev) (p s n : Nat) : (d.occupy p s n).link = d.link := by
  unfold Dev.occupy
  refine foldl_keeps Dev.link (fun d q => foldl_keeps Dev.link (fun d i => ?_) _ d) _ d
  dsimp only
  generalize (_ && _ : Bool) = touched
  split
  · exact d.updStn_link p _
  · rfl

@[simp] theorem Dev.rebuildOcc_link (d : Dev) (p : Nat) : (d.rebuildOcc p).link = d.link := Dev.occupy_link ..

@[simp] theorem Dev.stationReset_link (d : Dev) (p : Nat) : (d.stationReset p).link = d.link := by
  unfold Dev.stationReset
  dsimp only
  rw [Dev.seedStation_link, Dev.rebuildOcc_link, Dev.stationRegs_link, Dev.updStn_link, Dev.modsZero_link, Dev.clearAllPre_link]

@[simp] theorem Dev.nackArb_link (d : Dev) (n : Nv) (p : Nat) : (d.nackArb n p).link = d.link := by
  unfold Dev.nackArb
  refine foldl_keeps Dev.link (fun d r => ?_) _ d
  split <;> simp

/-! The march test engine. -/

@[simp] theorem Dev.mbtEnd_link (d : Dev) (reason : Nat) : (d.mbtEnd reason).link = d.link := rfl
@[simp] theorem Dev.mbtResults_link (d : Dev) (r : MarchRun) : (d.mbtResults r).link = d.link := rfl

@[simp] theorem Dev.putStation_link (d : Dev) (p off : Nat) (v : Word) : (d.putStation p off v).link = d.link := by
  unfold Dev.putStation; split <;> rfl

theorem Dev.freeAt_link {put : Dev → Nat → Word → Dev} (h : ∀ d a v, (put d a v).link = d.link) (d : Dev) (places : List Nat) :
    (d.freeAt places put).link = d.link := by
  unfold Dev.freeAt
  exact foldl_keeps Dev.link (fun _ _ => h _ _ _) _ _

@[simp] theorem Dev.stationOpen_link (d : Dev) (p mem : Nat) : (d.stationOpen p mem).link = d.link := by
  unfold Dev.stationOpen
  apply Dev.freeAt_link
  intros
  apply Dev.putStation_link

/-- Memories of a unit that is no Depot bank: Depot memory and the link stay as they are. -/
theorem memOpen_keeps {target : Nat} (h : target ≠ 2) (unit mem : Nat) (x : Mem × Dev) :
    (memOpen target unit mem x).1 = x.1 ∧ (memOpen target unit mem x).2.link = x.2.link := by
  unfold memOpen
  split
  · contradiction
  · generalize edgeKeys unit = places
    refine ⟨rfl, Dev.freeAt_link ?_ _ _⟩
    exact fun _ _ _ => rfl
  · exact ⟨rfl, Dev.stationOpen_link ..⟩

theorem unitOpen_keeps {target : Nat} (h : target ≠ 2) (unit : Nat) (x : Mem × Dev) :
    ((unitOpen target unit x).1, (unitOpen target unit x).2.link) = (x.1, x.2.link) := by
  have hmem : ∀ (y : Mem × Dev) mem, ((memOpen target unit mem y).1, (memOpen target unit mem y).2.link) = (y.1, y.2.link) :=
    fun y mem => Prod.ext_iff.mpr (memOpen_keeps h unit mem y)
  unfold unitOpen
  split
  · exact hmem _ _
  · exact foldl_keeps (fun y : Mem × Dev => (y.1, y.2.link)) hmem _ _

/-- A COMPUTE reset ends a march run of stations or edge tables, never one of Depot banks (R289). -/
theorem marchReset_keeps (x : Mem × Dev) : (marchReset x).1 = x.1 ∧ (marchReset x).2.link = x.2.link := by
  unfold marchReset
  split
  case h_2 => exact ⟨rfl, rfl⟩
  case h_1 r _ =>
    split
    case isTrue => exact ⟨rfl, rfl⟩
    case isFalse hbank =>
      split
      case isTrue => exact ⟨rfl, Dev.mbtEnd_link ..⟩
      case isFalse =>
        have hunits := foldl_keeps (fun y : Mem × Dev => (y.1, y.2.link)) (fun y u => unitOpen_keeps hbank u y) r.units x
        obtain ⟨hmem, hlink⟩ := Prod.ext_iff.mp hunits
        exact ⟨hmem, by simpa using hlink⟩

/-! The Interchange and the loader. -/

@[simp] theorem Dev.ringDrop_link (d : Dev) (r k : Nat) : (d.ringDrop r k).link = d.link := by
  unfold Dev.ringDrop
  split
  · rfl
  · simp [Dev.ringNote]

@[simp] theorem Dev.dropRecords_link (d : Dev) : d.dropRecords.link = d.link := by
  unfold Dev.dropRecords
  refine foldl_keeps Dev.link (fun d q => ?_) _ d
  split
  · rfl
  · simp

@[simp] theorem Dev.xchRegs_link (d : Dev) : d.xchRegs.link = d.link := by
  unfold Dev.xchRegs
  dsimp only
  rw [Dev.resetRegs_link, foldl_keeps Dev.link (fun _ _ => by simp), foldl_keeps Dev.link (fun _ _ => by simp)]
  simp

theorem Dev.clearEncCnt_link (d : Dev) : { d with encCnt := [] }.link = d.link := rfl

@[simp] theorem Dev.encDecReset_link (d : Dev) : d.encDecReset.link = d.link := by
  unfold Dev.encDecReset
  rw [Dev.clearEncCnt_link, foldl_keeps Dev.link]
  exact fun _ _ => rfl

theorem Dev.clearPath_link (d : Dev) (txns : List Txn) (fwait : List FReq) (sdma : List SdmaDesc) :
    { d with edgeBuf := [], notices := [], packets := [], txns := txns, fwait := fwait, frtTurn := 0, streamers := [],
             qnt := Qnt.init, prjs := [], sdma := sdma }.link = d.link := rfl

@[simp] theorem Dev.pathReset_link (d : Dev) : d.pathReset.link = d.link := by
  unfold Dev.pathReset
  rw [Dev.clearPath_link, Dev.wr_link, foldl_keeps Dev.link (fun _ _ => Dev.tokStop_link ..),
    foldl_keeps Dev.link (fun _ _ => by simp), Dev.resetRegs_link, Dev.resetRegs_link, Dev.encDecReset_link, Dev.xchRegs_link]

@[simp] theorem Dev.bankGone_link (d : Dev) (gone : Nat → Bool) : (d.bankGone gone).link = d.link := by
  unfold Dev.bankGone
  exact foldl_keeps Dev.link (fun _ _ => Dev.count_link ..) _ _

@[simp] theorem Dev.dropLoads_link (d : Dev) : d.dropLoads.link = d.link := rfl

@[simp] theorem Dev.loaderLeaves_link (d : Dev) : d.loaderLeaves.link = d.link := by
  unfold Dev.loaderLeaves
  dsimp only
  split
  · split
    · rfl
    · exact Dev.bankGone_link ..
  · rfl

@[simp] theorem Dev.tplEnd_link (d : Dev) (reason state : Nat) : (d.tplEnd reason state).link = d.link := by
  unfold Dev.tplEnd
  dsimp only
  split <;> rfl

@[simp] theorem Dev.loadFail_link (d : Dev) (n : Nv) (reason : Nat) : (d.loadFail n reason).link = d.link := by
  unfold Dev.loadFail
  dsimp only
  rw [Dev.tplEnd_link, Dev.serveSlots_link]
  dsimp only
  split
  · simp
  · rw [foldl_keeps Dev.link (fun _ _ => Dev.updStn_link ..)]
    simp

@[simp] theorem Dev.tfreeAll_link (d : Dev) : d.tfreeAll.link = d.link := rfl

@[simp] theorem Dev.clearLive_link (d : Dev) (n : Nv) : (d.clearLive n).link = d.link := by
  unfold Dev.clearLive
  dsimp only
  rw [Dev.andNot_link, Dev.tfreeAll_link, foldl_keeps Dev.link]
  intros
  rfl

@[simp] theorem Dev.loaderReset_link (d : Dev) (n : Nv) : (d.loaderReset n).link = d.link := by
  unfold Dev.loaderReset
  dsimp only
  split <;> simp

@[simp] theorem Dev.entryEnds_link (d : Dev) : d.entryEnds.link = d.link := by
  unfold Dev.entryEnds
  split <;> rfl

@[simp] theorem Dev.rstNote_link (d : Dev) (kind source ops qnt : Nat) : (d.rstNote kind source ops qnt).link = d.link := rfl

/-! Answers to the host add to what the link has to send, and take nothing from what waits. -/

@[simp] theorem Dev.nack_waitC (d : Dev) (seq code credit : Nat) : (d.nack seq code credit).link.waitC = d.link.waitC := rfl
@[simp] theorem Dev.raise_waitC (d : Dev) (c units : Nat) : (d.raise c units).link.waitC = d.link.waitC := rfl

@[simp] theorem Dev.resetsB_waitC (d : Dev) : d.resetsB.link.waitC = d.link.waitC := by
  unfold Dev.resetsB
  dsimp only
  rw [foldl_keeps (fun d : Dev => d.link.waitC), foldl_keeps (fun d : Dev => d.link.waitC)]
  · intros; simp
  · intros; split <;> simp

theorem Dev.resetsC_noneWaits {d : Dev} (h : d.link.waitC = []) (n : Nv) : (d.resetsC n).link.waitC = [] := by
  unfold Dev.resetsC
  rw [h, List.partition_eq_filter_filter]
  dsimp only [List.filter_nil, List.foldl_nil]
  rw [foldl_keeps (fun d : Dev => d.link.waitC)]
  intro d x
  show (d.withdraw n x.id).link.waitC = d.link.waitC
  rw [Dev.withdraw_link]

/-! ### COMPUTE and SECTION keep Depot memory (R280) -/

theorem computeBegin_keeps (n : Nv) (source : Nat) {x : Mem × Dev} (h : x.2.link.waitC = []) :
    (computeBegin n source x).1 = x.1 ∧ (computeBegin n source x).2.link.waitC = [] := by
  obtain ⟨hmem, hlink⟩ := marchReset_keeps (x.1, x.2.resetsB.dropRecords)
  unfold computeBegin
  refine ⟨hmem, Dev.resetsC_noneWaits ?_ n⟩
  dsimp only
  rw [Dev.orBits_link, Dev.rstNote_link, Dev.entryEnds_link, Dev.levelsFollow_link, Dev.loaderReset_link, Dev.pathReset_link,
    foldl_keeps Dev.link, foldl_keeps Dev.link (fun _ _ => Dev.stationReset_link ..), hlink, Dev.dropRecords_link,
    Dev.resetsB_waitC, h]
  intros
  split <;> simp

theorem computeRequest_keeps (n : Nv) (src : ResetSource) {x : Mem × Dev} (h : x.2.link.waitC = []) :
    (computeRequest n src x).1 = x.1 ∧ (computeRequest n src x).2.link.waitC = [] := by
  unfold computeRequest
  dsimp only
  split
  · exact ⟨rfl, h⟩
  · split
    · exact ⟨rfl, h⟩
    · exact computeBegin_keeps n _ h

theorem Dev.sectionBegin_noneWaits {d : Dev} (h : d.link.waitC = []) (n : Nv) (source : Nat) (ps : List Nat) :
    (d.sectionBegin n source ps).link.waitC = [] := by
  unfold Dev.sectionBegin
  refine Dev.resetsC_noneWaits ?_ n
  dsimp only
  rw [Dev.orBits_link, Dev.rstNote_link, Dev.entryEnds_link, foldl_keeps Dev.link, Dev.dropRecords_link, Dev.resetsB_waitC, h]
  intros
  simp

theorem Dev.sectionRequest_noneWaits {d : Dev} (h : d.link.waitC = []) (n : Nv) (src : ResetSource) (w : Nat) :
    (d.sectionRequest n src w).link.waitC = [] := by
  unfold Dev.sectionRequest
  dsimp only
  split
  · exact h
  · exact Dev.sectionBegin_noneWaits h n _ _

/-- A COMPUTE reset keeps bulk memory where no request of class C waits to follow it. -/
theorem exec_resetCompute_mem {s : State} (hc : s.dev.clocked = true) (hq : s.dev.link.waitC = []) (src : ResetSource) :
    Answers (exec (.resetCompute src) s) fun u => u.mem = s.mem := by
  obtain ⟨hmem, hnone⟩ := computeRequest_keeps s.nv src (x := (s.mem, s.dev)) hq
  show Answers (execResetCompute src s) _
  rw [execResetCompute, onAll_next hc, serveAll_of_noneWaits hnone]
  exact ⟨_, rfl, hmem⟩

/-- A SECTION reset keeps bulk memory where no request of class C waits to follow it. -/
theorem exec_resetSection_mem {s : State} (hc : s.dev.clocked = true) (hq : s.dev.link.waitC = []) (src : ResetSource)
    (w : Fin 4096) : Answers (exec (.resetSection src w) s) fun u => u.mem = s.mem := by
  have hnone := Dev.sectionRequest_noneWaits hq s.nv src w
  show Answers (execResetSection src w s) _
  rw [execResetSection, onAll_next hc, serveAll_of_noneWaits hnone]
  exact ⟨_, rfl, rfl⟩

/-! ### The end of stage 3 leaves Depot memory zero (R280, Table 17-1) -/

/-- What the march run of stage 3 leaves alone: the link, the state of bring-up, and the registers below the MBT block. -/
def Dev.besideMarch (d : Dev) : Link × Boot × (Nat → Word) :=
  (d.link, d.boot, fun a => if a < 0x100060000 then d.rd a else 0)

theorem Dev.rd_of_besideMarch {d e : Dev} (h : e.besideMarch = d.besideMarch) {a : Nat} (ha : a < 0x100060000) :
    e.rd a = d.rd a := by
  have hrd := congrFun (congrArg (fun v => v.2.2) h) a
  simpa [Dev.besideMarch, ha] using hrd

theorem Dev.besideMarch_wr (d : Dev) {a : Nat} (h : 0x100060000 ≤ a) (v : Word) : (d.wr a v).besideMarch = d.besideMarch := by
  refine Prod.ext rfl (Prod.ext rfl (funext fun b => ?_))
  dsimp only [Dev.besideMarch]
  split
  · exact Dev.rd_wr_ne d v (by omega)
  · rfl

theorem Dev.besideMarch_resetRegs (d : Dev) {lo : Nat} (h : 0x100060000 ≤ lo) (hi : Nat) :
    (d.resetRegs lo hi).besideMarch = d.besideMarch := by
  refine Prod.ext rfl (Prod.ext rfl (funext fun b => ?_))
  dsimp only [Dev.besideMarch]
  split
  · rw [Dev.rd_resetRegs, if_neg (by omega)]
  · rfl

theorem Dev.besideMarch_count0 (d : Dev) {a : Nat} (h : 0x100060000 ≤ a) (k : Nat) :
    (d.count0 a k).besideMarch = d.besideMarch := d.besideMarch_wr h _

theorem Dev.besideMarch_orBits (d : Dev) {a : Nat} (h : 0x100060000 ≤ a) (k : Nat) :
    (d.orBits a k).besideMarch = d.besideMarch := d.besideMarch_wr h _

theorem Dev.besideMarch_softRepair (d : Dev) (r : MarchRun) (f : MarchFail) :
    (d.softRepair r f).2.besideMarch = d.besideMarch := by
  unfold Dev.softRepair
  dsimp only
  split <;> rfl

theorem Dev.besideMarch_failNote (d : Dev) (r : MarchRun) (f : MarchFail) : (d.failNote r f).2.besideMarch = d.besideMarch := by
  have hfirst : ∀ v, (if d.rd R.MBT_FAIL_CNT = 0 then d.wr R.MBT_FIRST v else d).besideMarch = d.besideMarch := fun v => by
    split
    · exact d.besideMarch_wr (by decide) _
    · rfl
  have hcounted : ∀ (ok : Bool) (e : Dev), (if ok then e.count0 R.MBT_REP_CNT 1
      else (e.count0 R.MBT_UNREP_CNT 1).orBits R.MBT_STATUS (2 ^ 16)).besideMarch = e.besideMarch := fun ok e => by
    cases ok with
    | true => exact e.besideMarch_count0 (by decide) _
    | false => exact (Dev.besideMarch_orBits _ (by decide) _).trans (e.besideMarch_count0 (by decide) _)
  unfold Dev.failNote
  exact (hcounted _ _).trans ((Dev.besideMarch_softRepair ..).trans ((Dev.besideMarch_count0 _ (by decide) _).trans (hfirst _)))

theorem Dev.besideMarch_markFail (d : Dev) (target unit : Nat) : (d.markFail target unit).besideMarch = d.besideMarch := by
  unfold Dev.markFail
  split
  · exact d.besideMarch_orBits (by decide) _
  · rfl
  · exact d.besideMarch_orBits (by simp only [R.MBT_FAIL_MAP]; omega) _

theorem Dev.besideMarch_sramMarch (d : Dev) (r : StageReport) : (d.sramMarch r).2.besideMarch = d.besideMarch := by
  unfold Dev.sramMarch
  dsimp only
  rw [foldl_keeps (fun a : Bool × Dev => a.2.besideMarch), Dev.besideMarch_wr _ (by decide), Dev.mbtClear,
    Dev.besideMarch_resetRegs _ (by decide)]
  intro a f
  split
  · exact Dev.besideMarch_failNote ..
  · rw [Dev.besideMarch_markFail, Dev.besideMarch_failNote]

/-- Stage 3 with every memory outside the stations good and no station unusable passes, and leaves Depot memory empty. -/
theorem sramDone_passes {r : StageReport} {m : Mem} {d : Dev} (hgood : (d.sramMarch r).1 = true) (hun : r.unrepaired = []) :
    ∃ e : Dev, e.besideMarch = d.besideMarch ∧ sramDone r (m, d) = (0, ({ m with depot := [], depotErr := [] }, e)) := by
  unfold sramDone
  simp only [hun, List.map_nil, List.foldl_nil, hgood, Bool.not_true, Bool.false_eq_true, if_false]
  refine ⟨_, ?_, rfl⟩
  exact (Dev.besideMarch_resetRegs _ (lo := R.BLK_CFG) (by decide) _).trans (d.besideMarch_sramMarch r)

/-! The report of stage 3 stands from the end of the stage on. -/

theorem Dev.rd_orBits_ne (d : Dev) {a b : Nat} (m : Nat) (h : b ≠ a) : (d.orBits a m).rd b = d.rd b := d.rd_wr_ne _ h
theorem Dev.rd_andNot_ne (d : Dev) {a b : Nat} (m : Nat) (h : b ≠ a) : (d.andNot a m).rd b = d.rd b := d.rd_wr_ne _ h
theorem Dev.rd_setF_ne (d : Dev) {a b : Nat} (lo len v : Nat) (h : b ≠ a) : (d.setF a lo len v).rd b = d.rd b := d.rd_wr_ne _ h

/-- The report of stage 3 when it passed: result 2, code 0, and how long it took (R357). -/
def passedReport3 (time : Nat) : Word := w32 (2 * 2 ^ 30 + min time 0xFFFFFF)

theorem passedReport3_ge (time : Nat) : 2 ^ 30 * 2 ≤ (passedReport3 time).toNat := by
  rw [passedReport3, BitVec.toNat_ofNat, Nat.mod_eq_of_lt (by omega)]
  omega

theorem Dev.stageOver_three (d : Dev) (time : Nat) :
    (d.stageOver 3 0 time).link = d.link ∧ (d.stageOver 3 0 time).boot = d.boot
      ∧ (d.stageOver 3 0 time).rd (bootReport 3) = passedReport3 time := by
  refine ⟨rfl, rfl, ?_⟩
  unfold Dev.stageOver
  dsimp only
  rw [if_neg (by decide), Dev.rd_andNot_ne _ _ (by decide), Dev.rd_wr_self]
  rfl

theorem Dev.rd_stageMark_four (d : Dev) : (d.stageMark 4).rd (bootReport 3) = d.rd (bootReport 3) := by
  unfold Dev.stageMark
  dsimp only
  rw [Dev.rd_wr_ne _ _ (by decide), Dev.rd_setF_ne _ _ _ _ (by decide), Dev.rd_orBits_ne _ _ (by decide),
    Dev.rd_andNot_ne _ _ (by decide)]
  rfl

theorem Dev.rd_linkLost_ne (d : Dev) {a : Nat} (h : a ≠ R.XCH_LINK_STATUS) : (d.linkLost true).rd a = d.rd a := by
  have hworlds := foldl_keeps Dev.regs (f := fun (d : Dev) (q : Nat × World) => d.updWld q.1 (fun x => { x with blocked := false }))
    (fun _ _ => rfl) d.worlds d
  exact (Dev.rd_wr_ne _ _ h).trans (congrArg (PMap.get regDflt · a) hworlds)

/-- Stage 4 begins with the link of a device that has none, and leaves the report of stage 3. -/
theorem Dev.linkStart_keeps (d : Dev) : d.linkStart.link.waitC = [] ∧ d.linkStart.rd (bootReport 3) = d.rd (bootReport 3) := by
  unfold Dev.linkStart
  dsimp only
  split
  · exact ⟨rfl, d.rd_linkLost_ne (by decide)⟩
  · exact ⟨rfl, (Dev.rd_setF_ne _ _ _ _ (by decide)).trans (d.rd_linkLost_ne (by decide))⟩

theorem stageStart_four (n : Nv) (x : Mem × Dev) : stageStart n (3 + 1) x = (x.1, (x.2.stageMark 4).linkStart) := rfl

/-- Stage 3 has passed: what follows leaves bulk memory, lets no request of class C wait, and shows the report of the stage. -/
theorem stagePass_three {n : Nv} {time : Nat} {m : Mem} {d : Dev} (hst : d.stage = 3) (hrerun : d.boot.rerun = none)
    (hq : d.link.waitC = []) :
    (stagePass n time (m, d)).1 = m ∧ (stagePass n time (m, d)).2.link.waitC = []
      ∧ (stagePass n time (m, d)).2.rd (bootReport 3) = passedReport3 time := by
  obtain ⟨hlink, hboot, hreport⟩ := d.stageOver_three time
  unfold stagePass
  simp only [hst, hboot, hrerun]
  rw [if_neg (by simp), if_neg (by decide)]
  split
  · rw [stageStart_four]
    obtain ⟨hnone, hkept⟩ := Dev.linkStart_keeps (Dev.stageMark _ 4)
    exact ⟨rfl, hnone, (hkept.trans (Dev.rd_stageMark_four _)).trans hreport⟩
  · refine ⟨rfl, ?_, ?_⟩
    · exact (congrArg Link.waitC hlink).trans hq
    · exact (Dev.rd_orBits_ne _ _ (by decide)).trans hreport

theorem Dev.stage_of_besideMarch {d e : Dev} (h : e.besideMarch = d.besideMarch) : e.stage = d.stage := by
  rw [Dev.stage, Dev.stage, Dev.f, Dev.f, Dev.rd_of_besideMarch h (by decide)]

/-- The end of a stage 3 whose work passes, outside a rerun (R354). -/
theorem stageEnds_three {r : StageReport} {n : Nv} {m : Mem} {d : Dev} (hst : d.stage = 3) (hrun : d.stageRunning = true)
    (hblock : d.stageBlocked = false) (hrerun : d.boot.rerun = none) (hphys : physical 3 r.code.toNat = 0)
    (hun : r.unrepaired = []) (hgood : (d.sramMarch r).1 = true) :
    ∃ e : Dev, e.besideMarch = d.besideMarch
      ∧ stageEnds r (n, m, d) = (n, stagePass n r.time.toNat ({ m with depot := [], depotErr := [] }, e)) := by
  obtain ⟨e, hbeside, hdone⟩ := sramDone_passes (m := m) hgood hun
  have hboot : e.boot = d.boot := congrArg (fun v => v.2.1) hbeside
  have hwork : stageWork 3 r (n, m, d) = (0, (n, { m with depot := [], depotErr := [] }, e)) := by
    unfold stageWork
    simp only [hphys, ne_eq, not_true_eq_false, if_false, hdone]
  refine ⟨e, hbeside, ?_⟩
  unfold stageEnds
  simp [hrun, hblock, hst, hwork, hboot, hrerun]

/-- A byte memory that holds nothing reads as zero. -/
theorem readWord_nil (a : Nat) : readWord [] a = 0 := rfl

/-- The end of stage 3 leaves every Depot word zero, where no request of class C waits to follow it. -/
theorem exec_stageEnd_three {s : State} {r : StageReport} (hc : s.dev.clocked = true) (hst : s.dev.stage = 3)
    (hrun : s.dev.stageRunning = true) (hblock : s.dev.stageBlocked = false) (hrerun : s.dev.boot.rerun = none)
    (hphys : physical 3 r.code.toNat = 0) (hun : r.unrepaired = []) (hgood : (s.dev.sramMarch r).1 = true)
    (hq : s.dev.link.waitC = []) :
    Answers (exec (.stageEnd r) s) fun u => 2 ^ 30 * 2 ≤ (u.dev.rd (bootReport 3)).toNat ∧ ∀ a, u.mem.depotWord a = 0 := by
  obtain ⟨e, hbeside, hends⟩ := stageEnds_three (n := s.nv) (m := s.mem) hst hrun hblock hrerun hphys hun hgood
  have hest : e.stage = 3 := (Dev.stage_of_besideMarch hbeside).trans hst
  have hboot : e.boot = s.dev.boot := congrArg (fun v => v.2.1) hbeside
  have hlink : e.link = s.dev.link := congrArg (fun v => v.1) hbeside
  obtain ⟨hmem, hnone, hreport⟩ := stagePass_three (n := s.nv) (time := r.time.toNat)
    (m := { s.mem with depot := [], depotErr := [] }) hest (hboot ▸ hrerun) (hlink ▸ hq)
  show Answers (execStageEnd r s) _
  rw [execStageEnd, onAll_next hc, hends, serveAll_of_noneWaits hnone]
  refine ⟨_, rfl, ?_, fun a => ?_⟩
  · rw [Dev.rd_settle, hreport]
    exact passedReport3_ge _
  · rw [hmem, Mem.depotWord, readWord_nil]

theorem exec_onDev_mem {s : State} (hc : s.dev.clocked = true) (f : Nv → Mem → Dev → Dev) :
    Answers (onDev f s) fun u => u.mem.depot = s.mem.depot := ⟨_, onDev_next hc f, rfl⟩

/-- Settles O54: entries, wakes and the ends of resets act on the device alone, COMPUTE and SECTION requests keep bulk memory, and
stage 3 leaves Depot memory empty. -/
theorem depotContentsKept : Obligations.DepotContentsKept := by
  intro s src w c r
  refine ⟨fun hc => ?_, fun hc hst hrun hblock hrerun _ hphys hun hgood hq => ?_⟩
  · refine ⟨exec_onDev_mem hc fun _ _ d => d.pwrRequest 1, exec_onDev_mem hc fun _ _ d => d.pwrRequest 2,
      exec_onDev_mem hc fun _ _ d => d.pwrEnter, exec_onDev_mem hc fun _ _ d => d.wake 0, exec_onDev_mem hc fun _ _ d => d.wake c,
      exec_onDev_mem hc fun _ _ d => d.wake 2, exec_onDev_mem hc fun _ _ d => d.resetDone, fun hq => ⟨?_, ?_⟩⟩
    · obtain ⟨u, hu, hmem⟩ := exec_resetCompute_mem hc hq src
      exact ⟨u, hu, congrArg Mem.depot hmem⟩
    · obtain ⟨u, hu, hmem⟩ := exec_resetSection_mem hc hq src w
      exact ⟨u, hu, congrArg Mem.depot hmem⟩
  · exact exec_stageEnd_three hc hst hrun hblock hrerun hphys hun hgood hq

end Sys2Proof.Machine

/-! PROOFS. Signal Blocks: the operations of Table 14-5 (R302), the lines that their notices raise (R304), and the direct writes of
VALUE and LIMIT. -/

namespace Sys2Proof.Machine

theorem Answers.mono {o : Host.Outcome State Fault Refusal} {p q : State → Prop} (h : Answers o p) (hpq : ∀ u, p u → q u) :
    Answers o q :=
  let ⟨u, hu, hp⟩ := h
  ⟨u, hu, hpq u hp⟩

/-! ### Fields of words -/

theorem fld_lt (w : Word) (lo len : Nat) : fld w lo len < 2 ^ len := Nat.mod_lt _ (Nat.two_pow_pos len)

theorem fld_high (w : Word) : fld w 16 16 = w.toNat / 65536 := by
  have := w.isLt
  simp only [fld, Nat.shiftRight_eq_div_pow]
  omega

theorem fld_low (w : Word) : fld w 0 16 = w.toNat % 65536 := rfl

theorem toNat_and_high (v : Word) : (v &&& 0xFFFF0000#32).toNat = v.toNat / 65536 * 65536 := by
  have hmask : ∀ i (h : i < 32), (0xFFFF0000#32)[i] = decide (16 ≤ i) := by decide
  have hv : v &&& 0xFFFF0000#32 = v >>> 16 <<< 16 := by
    ext i hi
    by_cases h : 16 ≤ i
    · simp [hmask, h, Nat.not_lt.mpr h, BitVec.getLsbD_eq_getElem hi]
    · simp [hmask, h, Nat.not_le.mp h]
  have := v.isLt
  rw [hv, BitVec.toNat_shiftLeft, BitVec.toNat_ushiftRight, Nat.shiftRight_eq_div_pow, Nat.shiftLeft_eq]
  omega

theorem sext_toInt (x : Word) : sext 32 x.toNat = x.toInt := by
  have := x.isLt
  simp only [sext, BitVec.toInt_eq_toNat_cond]
  split <;> split <;> omega

theorem w32_eq_zero {r : Nat} (hr : r < 2 ^ 32) : w32 r = 0 ↔ r = 0 := by
  rw [← BitVec.toNat_inj, BitVec.toNat_ofNat, Nat.mod_eq_of_lt hr]
  rfl

theorem or_and_not_self (v x : Word) : (v ||| x) &&& ~~~v = x &&& ~~~v := by
  ext i hi
  cases h : v[i] <;> simp [h]

/-! ### What an operation does (Table 14-5) -/

theorem arrive_value (v lim : Word) : (arrive v lim).value
    = if max 1 (fld lim 0 16) ≤ fld v 0 16 + 1 then (v &&& 0xFFFF0000#32) + 0x10000#32 else v + 1 := by
  have hhigh := toNat_and_high v
  unfold arrive
  dsimp only
  split
  · apply BitVec.eq_of_toNat_eq
    rw [BitVec.toNat_ofNat, BitVec.toNat_add, hhigh, fld_high, BitVec.toNat_ofNat]
    omega
  · apply BitVec.eq_of_toNat_eq
    rw [BitVec.toNat_ofNat, BitVec.toNat_add, fld_high, fld_low, show (1 : Word).toNat = 1 from rfl]
    omega

theorem arrive_clipped (v lim : Word) : (arrive v lim).clipped = false := by
  unfold arrive
  dsimp only
  split <;> rfl

theorem blkWriteOp_counter (v lim x : Word) :
    ((blkWriteOp 0 v lim x).value.toNat : Int) = max 0 (min 0xFFFFFFFF (v.toNat + x.toInt))
      ∧ (blkWriteOp 0 v lim x).clipped = decide (v.toNat + x.toInt < 0 ∨ 0xFFFFFFFF < v.toNat + x.toInt) := by
  simp only [blkWriteOp, sext_toInt, BitVec.toNat_ofNat, decide_eq_decide]
  omega

theorem blkWriteOp_semaphore (v lim x : Word) :
    (blkWriteOp 2 v lim x).value.toNat = min (v.toNat + x.toNat) (if lim = 0 then 0xFFFFFFFF else lim.toNat) := by
  have := lim.isLt
  simp only [blkWriteOp, BitVec.toNat_ofNat]
  split <;> omega

theorem blkTakeOp_counter (v lim : Word) : (blkTakeOp 0 v lim).value = if v = 0xFFFFFFFF#32 then v else v + 1 := by
  have hlt := v.isLt
  show w32 (min (v.toNat + 1) 0xFFFFFFFF) = _
  by_cases hv : v = 0xFFFFFFFF#32
  · rw [if_pos hv, hv]
    rfl
  · have hne : v.toNat ≠ 0xFFFFFFFF := fun h => hv (BitVec.eq_of_toNat_eq h)
    rw [if_neg hv, Nat.min_eq_left (by omega), w32, BitVec.ofNat_add, BitVec.ofNat_toNat, BitVec.setWidth_eq]
    rfl

theorem blkTakeOp_semaphore (v lim : Word) : (blkTakeOp 2 v lim).value = if v = 0 then 0 else v - 1 := by
  show (if v = 0 then v else v - 1) = _
  split <;> rename_i hv
  · exact hv
  · rfl

/-! ### The notices (R304) -/

/-- The condition of a notice (R304): of the type, from VALUE before and after the operation. -/
def BlkNoted (typ : Nat) (v lim new : Word) : Prop :=
  (typ = 0 ∧ lim ≠ 0 ∧ v < lim ∧ lim ≤ new) ∨ (typ = 1 ∧ fld new 16 16 ≠ fld v 16 16) ∨ (typ = 2 ∧ v = 0 ∧ new ≠ 0)
    ∨ (typ = 3 ∧ (new &&& ~~~v &&& (if lim = 0 then 0xFFFFFFFF#32 else lim)) ≠ 0)

theorem blkNoted_counter (v lim new : Word) : BlkNoted 0 v lim new ↔ lim ≠ 0 ∧ v < lim ∧ lim ≤ new := by simp [BlkNoted]
theorem blkNoted_barrier (v lim new : Word) : BlkNoted 1 v lim new ↔ fld new 16 16 ≠ fld v 16 16 := by simp [BlkNoted]
theorem blkNoted_semaphore (v lim new : Word) : BlkNoted 2 v lim new ↔ v = 0 ∧ new ≠ 0 := by simp [BlkNoted]
theorem blkNoted_flag (v lim new : Word) :
    BlkNoted 3 v lim new ↔ (new &&& ~~~v &&& (if lim = 0 then 0xFFFFFFFF#32 else lim)) ≠ 0 := by simp [BlkNoted]

/-- The notice of an arrival: GEN advances. -/
theorem arrive_note_iff (v lim : Word) : (arrive v lim).note = true ↔ fld (arrive v lim).value 16 16 ≠ fld v 16 16 := by
  have hv := v.isLt
  have hl := fld_lt lim 0 16
  rw [fld_high, fld_high]
  unfold arrive
  dsimp only
  split <;> rename_i hfull
  · rw [BitVec.toNat_ofNat, fld_high, eq_self, true_iff]
    omega
  · rw [fld_low v] at hfull
    rw [BitVec.toNat_ofNat, fld_high, fld_low, Bool.false_eq_true, false_iff, Decidable.not_not]
    omega

theorem counterNote_iff {v lim : Word} {r : Nat} (hr : r < 2 ^ 32) :
    counterNote v.toNat r lim.toNat = true ↔ BlkNoted 0 v lim (w32 r) := by
  have hlim : lim ≠ 0 ↔ lim.toNat ≠ 0 := by simp [BitVec.toNat_eq]
  rw [blkNoted_counter, hlim, BitVec.lt_def, BitVec.le_def, BitVec.toNat_ofNat, Nat.mod_eq_of_lt hr]
  simp [counterNote]

theorem blkWriteOp_note {typ : Nat} (ht : typ < 4) (v lim x : Word) :
    (blkWriteOp typ v lim x).note = true ↔ BlkNoted typ v lim (blkWriteOp typ v lim x).value := by
  match typ, ht with
  | 0, _ => exact counterNote_iff (by omega)
  | 1, _ => exact (arrive_note_iff v lim).trans (blkNoted_barrier ..).symm
  | 2, _ =>
    have hlt : min (v.toNat + x.toNat) (if lim = 0 then 0xFFFFFFFF else lim.toNat) < 2 ^ 32 := by
      have := lim.isLt
      split <;> omega
    rw [blkNoted_semaphore]
    simp only [blkWriteOp, Bool.and_eq_true, beq_iff_eq, bne_iff_ne, ne_eq, w32_eq_zero hlt]
  | 3, _ => simp [blkNoted_flag, blkWriteOp, or_and_not_self]

theorem blkTakeOp_note {typ : Nat} (ht : typ < 4) (v lim : Word) :
    (blkTakeOp typ v lim).note = true ↔ BlkNoted typ v lim (blkTakeOp typ v lim).value := by
  match typ, ht with
  | 0, _ => exact counterNote_iff (by omega)
  | 1, _ => exact (arrive_note_iff v lim).trans (blkNoted_barrier ..).symm
  | 2, _ =>
    rw [blkNoted_semaphore, blkTakeOp_semaphore]
    exact iff_of_false nofun fun ⟨hv, hne⟩ => hne (if_pos hv)
  | 3, _ => simp [blkNoted_flag, blkTakeOp]

/-! ### An operation carried out (R302, R304) -/

theorem Dev.blkType_lt (d : Dev) (i : Nat) : d.blkType i < 4 := fld_lt ..

theorem blkCfg_ne_blkValue (i : Nat) : blkReg R.BLK_CFG i ≠ blkReg R.BLK_VALUE i := by
  simp only [blkReg, R.BLK_CFG, R.BLK_VALUE]
  omega

theorem Dev.getLsbD_irq1_pend (d : Dev) (j k : Nat) (hk : k < 256) :
    (d.irq1 j).irq.pend.getLsbD k = (d.irq.pend.getLsbD k || decide (j = k)) := by
  simp only [Dev.irq1, BitVec.getLsbD_or, BitVec.getLsbD_shiftLeft, BitVec.getLsbD_one, hk, decide_true, Bool.true_and]
  congr 1
  rw [Bool.eq_iff_iff]
  simp only [Bool.and_eq_true, Bool.not_eq_true', decide_eq_false_iff_not, decide_eq_true_eq]
  omega

theorem blockLine_not_level (line : Fin 32) : levelSources.contains (128 + line.val) = false := by
  revert line
  decide

/-- Settling raises no Block line: these are no level sources. -/
theorem Dev.settle_blockLine (d : Dev) (line : Fin 32) :
    d.settle.irq.pend.getLsbD (128 + line) = d.irq.pend.getLsbD (128 + line) := by
  rw [Dev.settle_pend, Dev.pendNow_bit _ _ (by omega), blockLine_not_level, Bool.false_and, Bool.or_false]

/-- What an operation with effect `e` on Block `i` makes of a device. -/
structure Dev.BlkBecomes (d u : Dev) (i : Nat) (e : BlkEffect) : Prop where
  value : u.blkValue i = e.value
  ovf : bit (u.blkCfg i) 28 = (bit (d.blkCfg i) 28 || e.clipped)
  line (line : Fin 32) : u.irq.pend.getLsbD (128 + line) = true ↔ d.irq.pend.getLsbD (128 + line) = true
    ∨ (bit (d.blkCfg i) 24 = true ∧ fld (d.blkCfg i) 16 5 = line ∧ e.note = true)

theorem Dev.blkBecomes_complete {d u : Dev} {i : Nat} {e : BlkEffect} (h : d.BlkBecomes u i e) (m : Master) (data : List Word) :
    d.BlkBecomes (u.complete m .ok data).settle i e :=
  ⟨h.value, h.ovf, fun line => by rw [Dev.settle_blockLine]; exact h.line line⟩

/-- VALUE and OVF, before the notice. -/
def Dev.blkStore (d : Dev) (i : Nat) (e : BlkEffect) : Dev :=
  let d := d.wr (blkReg R.BLK_VALUE i) e.value
  if e.clipped then d.orBits (blkReg R.BLK_CFG i) (2 ^ 28) else d

theorem Dev.blkEffect_eq (d : Dev) (i : Nat) (e : BlkEffect) : d.blkEffect i e
    = if e.note ∧ bit (d.blkCfg i) 24 then (d.blkStore i e).irq1 (128 + fld (d.blkCfg i) 16 5) else d.blkStore i e := rfl

theorem Dev.blkStore_irq (d : Dev) (i : Nat) (e : BlkEffect) : (d.blkStore i e).irq = d.irq := by
  unfold Dev.blkStore
  dsimp only
  split <;> rfl

theorem Dev.blkValue_blkStore (d : Dev) (i : Nat) (e : BlkEffect) : (d.blkStore i e).blkValue i = e.value := by
  unfold Dev.blkStore Dev.blkValue
  dsimp only
  split
  · rw [Dev.rd_orBits_ne _ _ (blkCfg_ne_blkValue i).symm, Dev.rd_wr_self]
  · rw [Dev.rd_wr_self]

theorem Dev.ovf_blkStore (d : Dev) (i : Nat) (e : BlkEffect) :
    bit ((d.blkStore i e).blkCfg i) 28 = (bit (d.blkCfg i) 28 || e.clipped) := by
  unfold Dev.blkStore Dev.blkCfg
  dsimp only
  split <;> rename_i hclip
  · rw [Dev.orBits, Dev.upd, Dev.rd_wr_self, bit_or, bit_pow _ _ (by decide), hclip]
    simp
  · rw [Dev.rd_wr_ne _ _ (blkCfg_ne_blkValue i)]
    simp [hclip]

theorem Dev.blkEffect_becomes (d : Dev) (i : Nat) (e : BlkEffect) : d.BlkBecomes (d.blkEffect i e) i e := by
  have hlt := fld_lt (d.blkCfg i) 16 5
  rw [Dev.blkEffect_eq]
  split <;> rename_i hnote
  · refine ⟨d.blkValue_blkStore i e, d.ovf_blkStore i e, fun line => ?_⟩
    rw [Dev.getLsbD_irq1_pend _ _ _ (by omega), Dev.blkStore_irq]
    simp [hnote]
  · refine ⟨d.blkValue_blkStore i e, d.ovf_blkStore i e, fun line => ?_⟩
    rw [Dev.blkStore_irq]
    exact ⟨.inl, fun h => h.elim id fun ⟨hen, _, hn⟩ => absurd ⟨hn, hen⟩ hnote⟩

/-! ### BLK_OP, written and read -/

theorem blkOpWrite_becomes {s : State} {m : Master} {i : Fin 65536} (x : Word) (ho : s.opens m true (blkReg R.BLK_OP i))
    (hdev : s.dev.blkDev i = false) :
    Answers (exec (.blkOpWrite m i x) s) fun u => u.dev.completion m = ⟨.ok, []⟩
      ∧ s.dev.BlkBecomes u.dev i (blkWriteOp (s.dev.blkType i) (s.dev.blkValue i) (s.dev.blkLimit i) x) := by
  obtain ⟨hc, hg⟩ := ho
  show Answers (execBlkOpWrite m i x s) _
  rw [execBlkOpWrite, onDev_next hc, Dev.writeGate_open hg, Dev.blkWrite, if_neg (by simp [hdev])]
  exact ⟨_, rfl, by simp, Dev.blkBecomes_complete (Dev.blkEffect_becomes ..) ..⟩

theorem blkOpRead_becomes {s : State} {m : Master} {i : Fin 65536} (ho : s.opens m false (blkReg R.BLK_OP i))
    (hdev : s.dev.blkDev i = false) :
    Answers (exec (.blkOpRead m i) s) fun u => u.dev.completion m = ⟨.ok, [s.dev.blkValue i]⟩
      ∧ s.dev.BlkBecomes u.dev i (blkTakeOp (s.dev.blkType i) (s.dev.blkValue i) (s.dev.blkLimit i)) := by
  obtain ⟨hc, hg⟩ := ho
  show Answers (execBlkOpRead m i s) _
  rw [execBlkOpRead, onDev_next hc, Dev.readGate_open hg, Dev.blkTake, if_neg (by simp [hdev])]
  exact ⟨_, rfl, by simp, Dev.blkBecomes_complete (Dev.blkEffect_becomes ..) ..⟩

theorem blkOpRead_device {s : State} {m : Master} {i : Fin 65536} (ho : s.opens m false (blkReg R.BLK_OP i))
    (hdev : s.dev.blkDev i = true) :
    Answers (exec (.blkOpRead m i) s) fun u => u.dev.completion m = ⟨.ok, [s.dev.blkValue i]⟩ ∧ u.dev.regs = s.dev.regs := by
  obtain ⟨hc, hg⟩ := ho
  show Answers (execBlkOpRead m i s) _
  rw [execBlkOpRead, onDev_next hc, Dev.readGate_open hg, Dev.blkTake, if_pos hdev]
  exact ⟨_, rfl, by simp, rfl⟩

/-! ### A direct write of BLK_VALUE or BLK_LIMIT -/

theorem place_eq_none {base stride count a : Nat} (hpos : 0 < stride) (h : base + count * stride ≤ a) :
    place base stride count a = none := by
  rw [place, if_neg]
  rintro ⟨-, -, hlt⟩
  rw [Nat.div_lt_iff_lt_mul hpos] at hlt
  omega

theorem ownReg_blk {a : Nat} (ha : 0x101000000 ≤ a) : ownReg a = false := by
  rw [ownReg, place_eq_none (by decide) (Nat.le_trans (by decide) ha), place_eq_none (by decide) (Nat.le_trans (by decide) ha)]
  simp only [R.XCH_WLD_SEL, R.XCH_EDGE_SEL, R.IRQ_STN_SEL, R.TRK_RA_DEV, R.TRK_RA_ADDR_LO, R.TRK_RA_ADDR_HI, R.TRK_SDMA_DEV,
    Option.isSome_none, Bool.or_false, Bool.or_eq_false_iff, beq_eq_false_iff_ne]
  omega

theorem writeClosed_blk {a : Nat} (ha : 0x101000000 ≤ a) (c : Nat) : writeClosed a c = false := by
  rw [writeClosed, if_neg (by omega), place_eq_none (by decide) (Nat.le_trans (by decide) ha)]
  simp only [R.CHN_STALL_LIMIT, Option.isSome_none, Bool.false_or, Bool.and_eq_false_iff, beq_eq_false_iff_ne]
  omega

theorem Dev.targetOf_blk {d : Dev} {a : Nat} (n : Nv) (hlo : 0x101000000 ≤ a) (hhi : a < 0x101100000) (h4 : a % 4 = 0)
    (hp : d.passed 3 = true) : d.targetOf n a = .reg := by
  rw [Dev.targetOf]
  simp only [depotSize]
  rw [if_neg (by omega), if_neg (by omega), if_neg (by omega), if_neg (by omega), if_neg (by omega), if_pos ⟨hlo, hhi⟩, if_pos hp]

theorem regAccess_blkWrite {m : Master} {a : Nat} (v : Word) (hlo : 0x101000000 ≤ a) (hhi : a < 0x101100000) (n : Nv) (mem : Mem)
    (d : Dev) : regAccess m a (some v) (n, mem, d) = (okWord 0, (n, mem, d.blkRegWrite a v)) := by
  rw [regAccess]
  dsimp only
  rw [if_neg (by simp only [R.XCH_EDGE_DATA]; omega), if_neg (by simp only [R.XCH_EDGE_IDX]; omega), regWrite, ownReg_blk hlo,
    if_neg (by decide), if_pos ⟨hlo, hhi⟩]
  rfl

theorem access_blkWrite {m : Master} {n : Nv} {mem : Mem} {d : Dev} {a : Nat} (v : Word) (hlo : 0x101000000 ≤ a)
    (hhi : a < 0x101100000) (h4 : a % 4 = 0) (hp : d.passed 3 = true) (hg : d.gate n m true a = .open_) :
    access m a (some v) none (n, mem, d) = (okWord 0, (n, mem, d.blkRegWrite a v)) := by
  have hchan : ¬(d.targetOf n a = .reg ∧ R.CHN_REQ_DATA ≤ a ∧ a < R.CHN_REQ_STATUS) := by
    simp only [R.CHN_REQ_STATUS]
    omega
  unfold access
  dsimp only
  rw [if_neg hchan, if_neg (by cases m <;> simp [writeClosed_blk hlo]), Option.isSome_some, hg, Dev.targetOf_blk n hlo hhi h4 hp]
  dsimp only
  rw [if_neg (by simp only [R.TRK_RA_DATA]; omega), place_eq_none (by decide) (Nat.le_trans (by decide) hlo),
    regAccess_blkWrite v hlo hhi]

theorem exec_regWrite_blk {s : State} {m : Master} {a : Nat} (v : Word) (ho : s.opens m true a) (hlo : 0x101000000 ≤ a)
    (hhi : a < 0x101100000) (h4 : a % 4 = 0) (hp : s.dev.passed 3 = true) :
    exec (.regWrite m (BitVec.ofNat 40 a) v 0) s
      = .next { s with dev := ((s.dev.blkRegWrite a v).complete m .ok []).settle } := by
  obtain ⟨hc, hg⟩ := ho
  have ha : (BitVec.ofNat 40 a).toNat = a := by rw [BitVec.toNat_ofNat]; omega
  show execRegWrite m (BitVec.ofNat 40 a) v 0 s = _
  rw [execRegWrite, onAll_next hc]
  dsimp only
  rw [ha, if_neg (by omega), accessOf, access_blkWrite v hlo hhi h4 hp hg]
  rfl

theorem blkRegWrite_plain {d : Dev} {i : Fin 65536} {r : Nat} (hr : r = R.BLK_VALUE ∨ r = R.BLK_LIMIT) (hdev : d.blkDev i = false)
    (v : Word) : d.blkRegWrite (blkReg r i) v = d.wr (blkReg r i) v := by
  have hi : (blkReg r i - R.BLK_CFG) / 16 = i := by
    rcases hr with rfl | rfl <;> simp only [blkReg, R.BLK_VALUE, R.BLK_LIMIT, R.BLK_CFG] <;> omega
  rw [Dev.blkRegWrite, hi]
  rcases hr with rfl | rfl
  · rw [show blkReg R.BLK_VALUE i % 16 / 4 = 1 by simp only [blkReg, R.BLK_VALUE]; omega]
    exact if_neg (by simp [hdev])
  · rw [show blkReg R.BLK_LIMIT i % 16 / 4 = 2 by simp only [blkReg, R.BLK_LIMIT]; omega]
    exact if_neg (by simp [hdev])

theorem blkPlainWrite_answers {s : State} {m : Master} {i : Fin 65536} {r : Nat} (hr : r = R.BLK_VALUE ∨ r = R.BLK_LIMIT) (v : Word)
    (ho : s.opens m true (blkReg r i)) (hp : s.dev.passed 3 = true) (hdev : s.dev.blkDev i = false) (line : Fin 32) :
    Answers (exec (.regWrite m (BitVec.ofNat 40 (blkReg r i)) v 0) s) fun u =>
      u.dev.rd (blkReg r i) = v ∧ u.dev.irq.pend.getLsbD (128 + line) = s.dev.irq.pend.getLsbD (128 + line) := by
  have hplace : 0x101000000 ≤ blkReg r i ∧ blkReg r i < 0x101100000 ∧ blkReg r i % 4 = 0 := by
    have := i.isLt
    rcases hr with rfl | rfl <;> simp only [blkReg, R.BLK_VALUE, R.BLK_LIMIT] <;> omega
  obtain ⟨hlo, hhi, h4⟩ := hplace
  rw [exec_regWrite_blk v ho hlo hhi h4 hp, blkRegWrite_plain hr hdev]
  exact ⟨_, rfl, by simp, Dev.settle_blockLine _ line⟩

/-! ### The operations of one type -/

theorem blkOpWrite_typed {s : State} {m : Master} {i : Fin 65536} (x : Word) (ho : s.opens m true (blkReg R.BLK_OP i))
    (hdev : s.dev.blkDev i = false) {typ : Nat} (htyp : s.dev.blkType i = typ) :
    let e := blkWriteOp typ (s.dev.blkValue i) (s.dev.blkLimit i) x
    Answers (exec (.blkOpWrite m i x) s) fun u => u.dev.completion m = ⟨.ok, []⟩ ∧ u.dev.blkValue i = e.value
      ∧ bit (u.dev.blkCfg i) 28 = (bit (s.dev.blkCfg i) 28 || e.clipped) := by
  subst htyp
  exact (blkOpWrite_becomes x ho hdev).mono fun _ ⟨hcompl, hbecomes⟩ => ⟨hcompl, hbecomes.value, hbecomes.ovf⟩

theorem blkOpRead_typed {s : State} {m : Master} {i : Fin 65536} (ho : s.opens m false (blkReg R.BLK_OP i))
    (hdev : s.dev.blkDev i = false) {typ : Nat} (htyp : s.dev.blkType i = typ) :
    let e := blkTakeOp typ (s.dev.blkValue i) (s.dev.blkLimit i)
    Answers (exec (.blkOpRead m i) s) fun u => u.dev.completion m = ⟨.ok, [s.dev.blkValue i]⟩ ∧ u.dev.blkValue i = e.value
      ∧ bit (u.dev.blkCfg i) 28 = (bit (s.dev.blkCfg i) 28 || e.clipped) := by
  subst htyp
  exact (blkOpRead_becomes ho hdev).mono fun _ ⟨hcompl, hbecomes⟩ => ⟨hcompl, hbecomes.value, hbecomes.ovf⟩

/-- The line of a Block rises as R304 says, where the effect's notice is the condition of R304. -/
theorem Dev.BlkBecomes.raises {d u : Dev} {i : Nat} {e : BlkEffect} (h : d.BlkBecomes u i e)
    (hnote : e.note = true ↔ BlkNoted (d.blkType i) (d.blkValue i) (d.blkLimit i) e.value) (line : Fin 32) :
    u.irq.pend.getLsbD (128 + line) = true ↔ d.irq.pend.getLsbD (128 + line) = true ∨ (bit (d.blkCfg i) 24 = true
      ∧ fld (d.blkCfg i) 16 5 = line ∧ BlkNoted (d.blkType i) (d.blkValue i) (d.blkLimit i) (u.blkValue i)) := by
  rw [h.line, hnote, h.value]

/-! ### The statement -/

/-- Settles O22: the operations of Table 14-5 type by type, and the notices from the effect of each. -/
theorem blockOperationsAct : Obligations.BlockOperationsAct := by
  refine ⟨?writes, ?reads, ?notices⟩
  case writes =>
    intro s m i x ho hdev
    refine ⟨fun hcounter => ?_, fun hbarrier => ?_, fun hsemaphore => ?_, fun hflag => ?_⟩
    · refine (blkOpWrite_typed x ho hdev hcounter).mono fun u ⟨hcompl, hvalue, hovf⟩ => ?_
      obtain ⟨hnew, hclip⟩ := blkWriteOp_counter (s.dev.blkValue i) (s.dev.blkLimit i) x
      exact ⟨hcompl, hvalue ▸ hnew, hclip ▸ hovf⟩
    · refine (blkOpWrite_typed x ho hdev hbarrier).mono fun u ⟨hcompl, hvalue, hovf⟩ => ?_
      exact ⟨hcompl, hvalue.trans (arrive_value ..), by simpa [blkWriteOp, arrive_clipped] using hovf⟩
    · refine (blkOpWrite_typed x ho hdev hsemaphore).mono fun u ⟨hcompl, hvalue, hovf⟩ => ?_
      exact ⟨hcompl, hvalue ▸ blkWriteOp_semaphore .., hovf⟩
    · refine (blkOpWrite_typed x ho hdev hflag).mono fun u ⟨hcompl, hvalue, hovf⟩ => ?_
      exact ⟨hcompl, hvalue, by simpa [blkWriteOp] using hovf⟩
  case reads =>
    intro s m i ho
    refine ⟨fun hdev => blkOpRead_device ho hdev, fun hdev hcounter => ?_, fun hdev hbarrier => ?_, fun hdev hsemaphore => ?_,
      fun hdev hflag => ?_⟩
    · refine (blkOpRead_typed ho hdev hcounter).mono fun u ⟨hcompl, hvalue, hovf⟩ => ?_
      exact ⟨hcompl, hvalue.trans (blkTakeOp_counter ..), hovf⟩
    · refine (blkOpRead_typed ho hdev hbarrier).mono fun u ⟨hcompl, hvalue, hovf⟩ => ?_
      exact ⟨hcompl, hvalue.trans (arrive_value ..), by simpa [blkTakeOp, arrive_clipped] using hovf⟩
    · refine (blkOpRead_typed ho hdev hsemaphore).mono fun u ⟨hcompl, hvalue, hovf⟩ => ?_
      exact ⟨hcompl, hvalue.trans (blkTakeOp_semaphore ..), by simpa [blkTakeOp] using hovf⟩
    · refine (blkOpRead_typed ho hdev hflag).mono fun u ⟨hcompl, hvalue, hovf⟩ => ?_
      exact ⟨hcompl, hvalue, by simpa [blkTakeOp] using hovf⟩
  case notices =>
    intro s m i x line hdev
    refine ⟨fun ho => ?_, fun ho => ?_, fun r hr ho hp => blkPlainWrite_answers hr x ho hp hdev line⟩
    · refine (blkOpWrite_becomes x ho hdev).mono fun u ⟨_, hbecomes⟩ => ?_
      exact hbecomes.raises (blkWriteOp_note (s.dev.blkType_lt i) ..) line
    · refine (blkOpRead_becomes ho hdev).mono fun u ⟨_, hbecomes⟩ => ?_
      exact hbecomes.raises (blkTakeOp_note (s.dev.blkType_lt i) ..) line

end Sys2Proof.Machine

/-! PROOFS. Channels: where the statement about parked entries fails (R293, R296). -/

namespace Sys2Proof.Machine

/-! ### A retry beside a blocked writer number 8 (R293, R296) -/

/-- SBCLK and the PLLs run, core 3 has parked an entry for channel 9, and no core 0 to 7 is blocked.  The core record at key 8,
the Interchange's number in the round robin of a channel's writers (`rounds`), holds a push blocked on channel 9: a state that the
type allows and the statement ranges over, though the commands that block a core name one of 0 to 7. -/
def blockedAtEight : State :=
  { State.reset with
    dev := ((State.reset.dev.wr R.CLK_STATUS 0xF#32).setPark 3 9 1#64).setCore 8
      { Core.init 8 with blocked := some (.push 9 2#64) } }

theorem exec_chnParkRetry {s : State} (hc : s.dev.clocked = true) (m : Master) (o : Fin 8) :
    exec (.chnParkRetry m o) s
      = .next { s with dev := (s.dev.parkCtrl s.nv m o fun d => d.parkRetry m o).settle } :=
  onDev_next hc fun nv _ d => d.parkCtrl nv m o fun d => d.parkRetry m o

@[simp] theorem Dev.chEntries_settle (d : Dev) (ch : Nat) : d.settle.chEntries ch = d.chEntries ch := rfl

/-- The room left after the parked entry goes to the push at key 8. -/
theorem parkRetry_blockedAtEight :
    (blockedAtEight.dev.parkCtrl blockedAtEight.nv .transport (3 : Fin 8) fun d => d.parkRetry .transport (3 : Fin 8)).chEntries 9
      = [1#64, 2#64] := by decide +kernel

/-- Refutes O28: the hypothesis that no core is blocked covers keys 0 to 7, and the writers that a retry serves are numbered 0 to
8.  In `blockedAtEight` the retry appends the entry held at key 8 behind the parked one. -/
theorem not_parkedEntriesAndHostDrain : ¬ Obligations.ParkedEntriesAndHostDrain := by
  rintro ⟨hpark, -⟩
  have hclk : blockedAtEight.dev.clocked = true := by decide +kernel
  have hopen : blockedAtEight.opens .transport true (park R.CHN_PARK_CTRL (3 : Fin 8)) := by decide +kernel
  have hparked : blockedAtEight.dev.parked (3 : Fin 8) = true := by decide +kernel
  have hchan : blockedAtEight.dev.parkedChan (3 : Fin 8) = 9 := by decide +kernel
  have hroom : (blockedAtEight.dev.chEntries 9).length < 16 := by decide +kernel
  have hcores : ∀ k < 8, (blockedAtEight.dev.core k).blocked = none := by decide +kernel
  have hwant : blockedAtEight.dev.chEntries 9 ++ [blockedAtEight.dev.parkedEntry (3 : Fin 8)] = [1#64] := by decide +kernel
  obtain ⟨-, hretry⟩ := hpark blockedAtEight .transport 3 hclk
  rw [hchan] at hretry
  obtain ⟨u, hu, hentries, -⟩ := (hretry nofun hopen hparked).1 hroom hcores
  obtain rfl := Host.Outcome.next.inj ((exec_chnParkRetry hclk .transport 3).symm.trans hu)
  rw [Dev.chEntries_settle, parkRetry_blockedAtEight, hwant] at hentries
  exact absurd hentries (by decide)

end Sys2Proof.Machine

/-! PROOFS. Timer channels: START, STOP, RELOAD and the group forms (R322, R325). -/

namespace Sys2Proof.Machine

/-! ### Commands and accesses that are carried out -/

/-- A command written to a control register whose clock branch runs. -/
theorem cmdAt_answers {s : State} {a : Nat} {f : Dev → Dev} {p : State → Prop} (ht : s.takes a)
    (hp : p { s with dev := (f s.dev).settle }) : Answers (onDev (fun _ _ d => d.cmdAt a f) s) p :=
  ⟨_, (onDev_next ht.1 _).trans (by rw [Dev.cmdAt_open ht.2]), hp⟩

/-- A read that reaches its register. -/
theorem readGate_answers {s : State} {m : Master} {a : Nat} {f : Dev → Word × Dev} {p : State → Prop} (ho : s.opens m false a)
    (hp : p { s with dev := ((f s.dev).2.complete m .ok [(f s.dev).1]).settle }) :
    Answers (onDev (fun n _ d => d.readGate n m a f) s) p :=
  ⟨_, (onDev_next ho.1 _).trans (by rw [Dev.readGate_open ho.2]), hp⟩

/-! ### The timers of the device -/

theorem Dev.timer_setTimer_of (d : Dev) (c : Nat) (t : Timer) (k : Nat) :
    (d.setTimer c t).timer k = if k = c then t else d.timer k := PMap.get_set ..

theorem Dev.timer_updTimer (d : Dev) (c : Nat) (f : Timer → Timer) (k : Nat) :
    (d.updTimer c f).timer k = if k = c then f (d.timer k) else d.timer k := by
  rw [Dev.updTimer, Dev.timer_setTimer_of]
  split
  · next h => rw [h]
  · rfl

@[simp] theorem Dev.timer_updTimer_self (d : Dev) (c : Nat) (f : Timer → Timer) : (d.updTimer c f).timer c = f (d.timer c) :=
  d.timer_setTimer c _

@[simp] theorem Dev.timer_wr (d : Dev) (a : Nat) (v : Word) (c : Nat) : (d.wr a v).timer c = d.timer c := rfl
@[simp] theorem Dev.timer_orBits (d : Dev) (a m c : Nat) : (d.orBits a m).timer c = d.timer c := rfl
@[simp] theorem Dev.timer_andNot (d : Dev) (a m c : Nat) : (d.andNot a m).timer c = d.timer c := rfl
@[simp] theorem Dev.timer_irq1 (d : Dev) (k c : Nat) : (d.irq1 k).timer c = d.timer c := rfl
@[simp] theorem Dev.timer_latch (d : Dev) (m : Master) (a : Nat) (v : Word) (c : Nat) : (d.latch m a v).timer c = d.timer c := rfl
@[simp] theorem Dev.timer_complete (d : Dev) (m : Master) (st : Status) (l : List Word) (c : Nat) :
    (d.complete m st l).timer c = d.timer c := rfl
@[simp] theorem Dev.timer_trefuse (d : Dev) (c k : Nat) : (d.trefuse c).timer k = d.timer k := rfl

@[simp] theorem Dev.rd_setTimer (d : Dev) (c : Nat) (t : Timer) (a : Nat) : (d.setTimer c t).rd a = d.rd a := rfl
@[simp] theorem Dev.rd_updTimer (d : Dev) (c : Nat) (f : Timer → Timer) (a : Nat) : (d.updTimer c f).rd a = d.rd a := rfl
@[simp] theorem Dev.rd_latch (d : Dev) (m : Master) (a : Nat) (v : Word) (b : Nat) : (d.latch m a v).rd b = d.rd b := rfl
@[simp] theorem Dev.rd_orBits_self (d : Dev) (a m : Nat) : (d.orBits a m).rd a = d.rd a ||| w32 m := d.rd_wr_self a _
@[simp] theorem Dev.rd_andNot_self (d : Dev) (a m : Nat) : (d.andNot a m).rd a = d.rd a &&& ~~~(w32 m) := d.rd_wr_self a _

@[simp] theorem Dev.latches_get_latch (d : Dev) (m : Master) (a : Nat) (v : Word) :
    (d.latch m a v).latches.get noneW (mkey m a) = some v := PMap.get_set_self ..

/-! ### Commands of one channel (R322, R325) -/

/-- A channel after START. -/
def Timer.start (t : Timer) : Timer := { t with count := t.phase, acc := 0, running := true, slept := false }

/-- A channel after STOP, unless it is a step timer (R325). -/
def Timer.stop (t : Timer) : Timer := { t with running := false, slept := false }

theorem Dev.timer_tstart (d : Dev) (c k : Nat) : (d.tstart c).timer k = if k = c then (d.timer k).start else d.timer k :=
  d.timer_updTimer c Timer.start k

theorem Dev.timer_tstop (d : Dev) (c k : Nat) :
    (d.tstop c).timer k = if k = c then (if (d.timer k).step then d.timer k else (d.timer k).stop) else d.timer k := by
  rw [Dev.tstop]
  split
  case isTrue hstep =>
    rw [Dev.timer_trefuse]
    split
    · next h => rw [h, if_pos hstep]
    · rfl
  case isFalse hfree =>
    rw [Dev.timer_updTimer]
    split
    · next h => rw [h, if_neg hfree, Timer.stop]
    · rfl

theorem Dev.tstop_of_step {d : Dev} {c : Nat} (h : (d.timer c).step = true) : d.tstop c = d.trefuse c := if_pos h
theorem Dev.treload_of_step {d : Dev} {c : Nat} (h : (d.timer c).step = true) : d.treload c = d.trefuse c := if_pos h
theorem Dev.timer_treload {d : Dev} {c : Nat} (h : (d.timer c).step = false) :
    (d.treload c).timer c = { d.timer c with count := (d.timer c).phase } := by
  rw [Dev.treload, if_neg (by simp [h]), Dev.timer_updTimer_self]

/-- A refused write sets bit 5 of TMR_STATUS. -/
theorem Dev.refused_trefuse (d : Dev) (c : Nat) : bit ((d.trefuse c).rd (tmr R.TMR_STATUS c)) 5 = true := by
  rw [Dev.trefuse, Dev.rd_orBits_self, bit_or, bit_pow 5 5 (by decide)]
  simp

/-! ### Commands of the channels of a mask (R322) -/

theorem mem_onesBelow {n m k : Nat} : k ∈ onesBelow n m ↔ k < n ∧ m.testBit k = true := by simp [onesBelow]

theorem nodup_onesBelow (n m : Nat) : (onesBelow n m).Nodup := List.nodup_range.filter _

/-- A channel stands in the list of a mask behind the channels of the mask below it. -/
theorem getElem?_onesBelow {n m k : Nat} (hk : k < n) (hm : m.testBit k = true) :
    (onesBelow n m)[(onesBelow k m).length]? = some k := by
  have hrange : List.range (k + 1) <+: List.range n := by
    have htake := List.take_prefix (k + 1) (List.range n)
    rwa [List.take_range, Nat.min_eq_left (show k + 1 ≤ n from hk)] at htake
  have hlast : onesBelow (k + 1) m = onesBelow k m ++ [k] := by simp [onesBelow, List.range_succ, hm]
  obtain ⟨t, ht⟩ : onesBelow (k + 1) m <+: onesBelow n m := hrange.filter _
  rw [← ht, hlast, List.append_assoc, List.getElem?_append_right (Nat.le_refl _)]
  simp

section
variable {β : Type} {key : β → Nat} {g : Dev → β → Dev} {h : β → Timer → Timer}
variable (hg : ∀ d b k, (g d b).timer k = if k = key b then h b (d.timer k) else d.timer k)
include hg

theorem timer_foldl_of_notMem {l : List β} {k : Nat} (hk : k ∉ l.map key) (d : Dev) : (l.foldl g d).timer k = d.timer k := by
  induction l generalizing d with
  | nil => rfl
  | cons b l ih =>
    rw [List.map_cons, List.mem_cons, not_or] at hk
    rw [List.foldl_cons, ih hk.2, hg, if_neg hk.1]

/-- Steps that each act on the channel of their own act on it once. -/
theorem timer_foldl_of_mem {l : List β} (hl : (l.map key).Nodup) {b : β} (hb : b ∈ l) (d : Dev) :
    (l.foldl g d).timer (key b) = h b (d.timer (key b)) := by
  induction l generalizing d with
  | nil => cases hb
  | cons a l ih =>
    rw [List.map_cons, List.nodup_cons] at hl
    rw [List.foldl_cons]
    rcases List.mem_cons.mp hb with rfl | hb
    · rw [timer_foldl_of_notMem hg hl.1, hg, if_pos rfl]
    · have hne : key b ≠ key a := fun e => hl.1 (e ▸ List.mem_map_of_mem hb)
      rw [ih hl.2 hb, hg, if_neg hne]

end

/-- A command given to the channels of a mask acts on each of them as it does on one. -/
theorem timer_foldl_maskChans {g : Dev → Nat → Dev} {h : Timer → Timer}
    (hg : ∀ d c k, (g d c).timer k = if k = c then h (d.timer k) else d.timer k) (v : Word) (d : Dev) (k : Fin 32) :
    ((maskChans v).foldl g d).timer k = if v.getLsbD k then h (d.timer k) else d.timer k := by
  have hmem : (k : Nat) ∈ maskChans v ↔ v.getLsbD k = true := by
    rw [maskChans, mem_onesBelow, BitVec.testBit_toNat]
    exact and_iff_right k.isLt
  split
  case isTrue hbit =>
    exact timer_foldl_of_mem (key := id) (h := fun _ => h) hg ((List.map_id _).symm ▸ nodup_onesBelow ..) (hmem.mpr hbit) d
  case isFalse hbit =>
    exact timer_foldl_of_notMem (key := id) (h := fun _ => h) hg ((List.map_id _).symm ▸ mt hmem.mp hbit) d

/-- A channel whose phase is the `j`-th of `n` (R322). -/
def Timer.stagger (n j : Nat) (t : Timer) : Timer := { t with phase := BitVec.ofNat 64 (j * perOf t.period / n) }

theorem Dev.timer_tstagger (d : Dev) (v : Word) (k : Fin 32) :
    (d.tstagger v).timer k = if v.getLsbD k then
      (d.timer k).stagger (onesBelow 32 v.toNat).length (onesBelow k v.toNat).length else d.timer k := by
  have hg : ∀ (d : Dev) (q : Nat × Nat) (k : Nat), (d.updTimer q.1 (Timer.stagger (maskChans v).length q.2)).timer k
      = if k = q.1 then (d.timer k).stagger (maskChans v).length q.2 else d.timer k := fun d q k => d.timer_updTimer ..
  have hkeys : (maskChans v).zipIdx.map Prod.fst = onesBelow 32 v.toNat := List.zipIdx_map_fst ..
  split
  case isTrue hbit =>
    have hplace : ((k : Nat), (onesBelow k v.toNat).length) ∈ (maskChans v).zipIdx :=
      List.mem_zipIdx_iff_getElem?.mpr (getElem?_onesBelow k.isLt ((v.testBit_toNat).trans hbit))
    exact timer_foldl_of_mem hg (hkeys ▸ nodup_onesBelow ..) hplace d
  case isFalse hbit =>
    refine timer_foldl_of_notMem hg ?_ d
    rw [hkeys, mem_onesBelow, BitVec.testBit_toNat]
    exact fun hk => hbit hk.2

/-! ### The statement about commands -/

/-- Settles O19: each command acts on its channel alone, and a group form on each channel of its mask once. -/
theorem timerCommandsAct : Obligations.TimerCommandsAct := by
  intro s c v
  refine ⟨fun ht => ⟨?start, fun hfree => ?stop, fun hfree => ?reload, fun hstep => ?stopRefused, fun hstep => ?reloadRefused⟩,
    fun ht => ?gstart, fun ht => ?gstop, fun ht => ?gstagger⟩
  case start => exact cmdAt_answers ht ((s.dev.timer_tstart c c).trans (if_pos rfl))
  case stop => exact cmdAt_answers ht ((s.dev.timer_tstop c c).trans ((if_pos rfl).trans (if_neg (by simp [hfree]))))
  case reload => exact cmdAt_answers ht (Dev.timer_treload hfree)
  case stopRefused =>
    refine cmdAt_answers ht ?_
    rw [Dev.tstop_of_step hstep]
    exact ⟨rfl, s.dev.refused_trefuse c⟩
  case reloadRefused =>
    refine cmdAt_answers ht ?_
    rw [Dev.treload_of_step hstep]
    exact ⟨rfl, s.dev.refused_trefuse c⟩
  case gstart => exact cmdAt_answers ht (timer_foldl_maskChans Dev.timer_tstart v s.dev)
  case gstop =>
    refine cmdAt_answers ht fun k => ?_
    refine (timer_foldl_maskChans (h := fun t => if t.step then t else t.stop) Dev.timer_tstop v s.dev k).trans ?_
    cases v.getLsbD k <;> cases (s.dev.timer k).step <;> rfl
  case gstagger => exact cmdAt_answers ht (s.dev.timer_tstagger v)

end Sys2Proof.Machine

/-! PROOFS. Timer channels: captures and reads of TMR_CAP_LO (R321), and the flags of TMR_STATUS that a write of 1 clears (R8). -/

namespace Sys2Proof.Machine

/-! ### Captures (R321) -/

/-- A channel after a capture with no read in its cycle: the value goes into CAP, or into the shadow where one is pending. -/
def Timer.capture (t : Timer) : Timer :=
  { t with cap := if t.capShadow = none then t.count else t.cap, capShadow := t.capShadow.map fun _ => t.count }

/-- A capture and no other event. -/
def TEvents.capture : TEvents := { TEvents.none with cap := true }

theorem Dev.tcapture_eq (d : Dev) (c : Nat) :
    d.tcapture c = (d.updTimer c Timer.capture).tevents c false TEvents.capture := by
  refine congrArg (fun t => (d.setTimer c t).tevents c false TEvents.capture) ?_
  unfold Timer.capture
  cases hshadow : (d.timer c).capShadow with
  | none => simp [hshadow]
  | some x => simp [hshadow]

/-- TMR_STATUS after the events of a moment (R321, R326). -/
def TEvents.flags (e : TEvents) (st : Word) : Word :=
  let st := if e.per then (if bit st 1 then setBit st 3 true else setBit st 1 true) else st
  let st := if e.cmp then setBit st 6 true else st
  let st := if e.wrap then setBit st 4 true else st
  if e.cap then (if bit st 0 then setBit st 2 true else setBit st 0 true) else st

theorem ite_eq_else_or_then {α : Type} (p : Prop) [Decidable p] (a b : α) :
    (if p then a else b) = b ∨ (if p then a else b) = a := by
  by_cases h : p
  · exact .inr (if_pos h)
  · exact .inl (if_neg h)

/-- The events of a moment set flags of TMR_STATUS, move the output of the channel, and may raise its source. -/
theorem Dev.tevents_cases (d : Dev) (c : Nat) (tick : Bool) (e : TEvents) :
    ∃ out, let u := (d.wr (tmr R.TMR_STATUS c) (e.flags (d.rd (tmr R.TMR_STATUS c)))).setTimer c { d.timer c with out := out }
      d.tevents c tick e = u ∨ d.tevents c tick e = u.irq1 c :=
  ⟨_, ite_eq_else_or_then ..⟩

theorem Dev.status_tevents (d : Dev) (c : Nat) (tick : Bool) (e : TEvents) :
    (d.tevents c tick e).rd (tmr R.TMR_STATUS c) = e.flags (d.rd (tmr R.TMR_STATUS c)) := by
  obtain ⟨out, h | h⟩ := d.tevents_cases c tick e <;> simp [h]

/-- The channel itself keeps everything but its output. -/
theorem Dev.timer_tevents (d : Dev) (c : Nat) (tick : Bool) (e : TEvents) :
    (d.tevents c tick e).timer c = { d.timer c with out := ((d.tevents c tick e).timer c).out } := by
  obtain ⟨out, h | h⟩ := d.tevents_cases c tick e <;> simp [h]

/-- A capture sets CAP_NEW, or CAP_OVR where CAP_NEW stood. -/
theorem TEvents.flags_capture (st : Word) :
    TEvents.capture.flags st = if bit st 0 then setBit st 2 true else setBit st 0 true := rfl

/-- What a capture with no read in its cycle makes of the device (R321). -/
theorem Dev.tcapture_captures (d : Dev) (c : Nat) :
    let u := d.tcapture c
    let st := fun (e : Dev) (i : Nat) => bit (e.rd (tmr R.TMR_STATUS c)) i
    u.timer c = { (d.timer c).capture with out := (u.timer c).out } ∧ st u 0 = true ∧ st u 2 = (st d 2 || st d 0) := by
  have htimer := (d.updTimer c Timer.capture).timer_tevents c false TEvents.capture
  rw [Dev.timer_updTimer_self] at htimer
  rw [Dev.tcapture_eq]
  refine ⟨htimer, ?_⟩
  dsimp only
  rw [Dev.status_tevents, Dev.rd_updTimer, TEvents.flags_capture]
  split <;> rename_i hnew <;> simp [bit_setBit, hnew]

/-! ### Reads of TMR_CAP_LO (R321, R31) -/

/-- What a read of TMR_CAP_LO makes of the device: it returns `x`, latches its high word for the reading master, leaves the channel
at `t` and CAP_NEW at `new`. -/
structure CapReads (m : Master) (c : Nat) (r : Word × Dev) (x : BitVec 64) (t : Timer) (new : Bool) : Prop where
  value : r.1 = loWord x
  latched : r.2.latches.get noneW (mkey m (tmr R.TMR_CAP_HI c)) = some (hiWord x)
  timer : r.2.timer c = t
  capNew : bit (r.2.rd (tmr R.TMR_STATUS c)) 0 = new

theorem bit_or_one (w : Word) : bit (w ||| w32 1) 0 = true := by simp [bit]
theorem bit_and_not_one (w : Word) : bit (w &&& ~~~(w32 1)) 0 = false := by simp [bit]

theorem Dev.tcapRead_of_capture (d : Dev) (m : Master) (c : Nat) :
    CapReads m c (d.tcapRead m c true) (d.timer c).cap { d.timer c with capShadow := some (d.timer c).count } true := by
  unfold Dev.tcapRead
  dsimp only
  rw [if_pos rfl]
  refine ⟨rfl, Dev.latches_get_latch .., ?timer, ?new⟩
  case timer => split <;> simp
  case new => split <;> simp [bit_or_one]

theorem Dev.tcapRead_alone (d : Dev) (m : Master) (c : Nat) :
    let now := (d.timer c).capShadow.getD (d.timer c).cap
    CapReads m c (d.tcapRead m c false) now { d.timer c with cap := now, capShadow := none } false :=
  ⟨rfl, Dev.latches_get_latch .., d.timer_setTimer c _, by simp [Dev.tcapRead, bit_and_not_one]⟩

theorem exec_tmrCapRead_answers {s : State} {m : Master} {c : Fin 32} {capture : Bool} {x : BitVec 64} {t : Timer} {new : Bool}
    (ho : s.opens m false (tmr R.TMR_CAP_LO c)) (h : CapReads m c (s.dev.tcapRead m c capture) x t new) :
    Answers (exec (.tmrCapRead m c capture) s) fun u =>
      (u.dev.completion m = { status := .ok, data := [loWord x] }
        ∧ u.dev.latches.get noneW (mkey m (tmr R.TMR_CAP_HI c)) = some (hiWord x))
      ∧ u.dev.timer c = t ∧ bit (u.dev.rd (tmr R.TMR_STATUS c)) 0 = new :=
  readGate_answers ho ⟨⟨by simp [h.value], h.latched⟩, h.timer, h.capNew⟩

/-! ### Writes in the timer block -/

theorem place_eq_none_of_lt {base a : Nat} (stride count : Nat) (h : a < base) : place base stride count a = none := by
  rw [place, if_neg (by omega)]

theorem ownReg_tmr {a : Nat} (hlo : 0x100040000 ≤ a) (hhi : a < 0x100050000) : ownReg a = false := by
  rw [ownReg, place_eq_none_of_lt _ _ (Nat.lt_of_lt_of_le hhi (by decide)),
    place_eq_none_of_lt _ _ (Nat.lt_of_lt_of_le hhi (by decide))]
  simp only [R.XCH_WLD_SEL, R.XCH_EDGE_SEL, R.IRQ_STN_SEL, R.TRK_RA_DEV, R.TRK_RA_ADDR_LO, R.TRK_RA_ADDR_HI, R.TRK_SDMA_DEV,
    Option.isSome_none, Bool.or_false, Bool.or_eq_false_iff, beq_eq_false_iff_ne]
  omega

theorem writeClosed_tmr {a : Nat} (hlo : 0x100040000 ≤ a) (hhi : a < 0x100050000) (c : Nat) : writeClosed a c = false := by
  rw [writeClosed, if_neg (by omega), place_eq_none_of_lt _ _ (Nat.lt_of_lt_of_le hhi (by decide))]
  simp only [R.CHN_STALL_LIMIT, Option.isSome_none, Bool.false_or, Bool.and_eq_false_iff, beq_eq_false_iff_ne]
  omega

theorem Dev.targetOf_tmr {d : Dev} {a : Nat} (n : Nv) (hlo : 0x100040000 ≤ a) (hhi : a < 0x100050000) (h4 : a % 4 = 0) :
    d.targetOf n a = .reg := by
  rw [Dev.targetOf]
  simp only [depotSize, imageWindow]
  rw [if_neg (by omega), if_neg (by omega), if_neg (by omega), if_neg (by omega), if_pos (by omega), if_neg (by omega)]

theorem regWrite_tmr {m : Master} {a : Nat} (v : Word) (hlo : 0x100040000 ≤ a) (hhi : a < 0x100050000) (n : Nv) (mem : Mem)
    (d : Dev) : regWrite m a v (n, mem, d) = (n, mem, d.tmrWrite m a v) := by
  have hblk : a / 0x10000 = 0x10004 := by omega
  rw [regWrite, ownReg_tmr hlo hhi, if_neg (by decide), if_neg (by omega), hblk]
  rfl

theorem access_tmrWrite {m : Master} {n : Nv} {mem : Mem} {d : Dev} {a : Nat} (v : Word) (hlo : 0x100040000 ≤ a)
    (hhi : a < 0x100050000) (h4 : a % 4 = 0) (hg : d.gate n m true a = .open_) :
    access m a (some v) none (n, mem, d) = (okWord 0, (n, mem, d.tmrWrite m a v)) := by
  have hchan : ¬(d.targetOf n a = .reg ∧ R.CHN_REQ_DATA ≤ a ∧ a < R.CHN_REQ_STATUS) := by
    simp only [R.CHN_REQ_DATA]
    omega
  unfold access
  dsimp only
  rw [if_neg hchan, if_neg (by cases m <;> simp [writeClosed_tmr hlo hhi]), Option.isSome_some, hg, Dev.targetOf_tmr n hlo hhi h4]
  dsimp only
  rw [if_neg (by simp only [R.TRK_RA_DATA]; omega), place_eq_none_of_lt _ _ (Nat.lt_of_lt_of_le hhi (by decide)), regAccess]
  dsimp only
  rw [if_neg (by simp only [R.XCH_EDGE_DATA]; omega), if_neg (by simp only [R.XCH_EDGE_IDX]; omega), regWrite_tmr v hlo hhi]

/-- A register write in the timer block that reaches it. -/
theorem exec_regWrite_tmr {s : State} {m : Master} {a : Nat} (v : Word) (ho : s.opens m true a) (hlo : 0x100040000 ≤ a)
    (hhi : a < 0x100050000) (h4 : a % 4 = 0) :
    exec (.regWrite m (BitVec.ofNat 40 a) v 0) s = .next { s with dev := ((s.dev.tmrWrite m a v).complete m .ok []).settle } := by
  obtain ⟨hc, hg⟩ := ho
  have ha : (BitVec.ofNat 40 a).toNat = a := by rw [BitVec.toNat_ofNat]; omega
  show execRegWrite m (BitVec.ofNat 40 a) v 0 s = _
  rw [execRegWrite, onAll_next hc]
  dsimp only
  rw [ha, if_neg (by omega), accessOf, access_tmrWrite v hlo hhi h4 hg]
  rfl

/-! ### TMR_STATUS (Table 15-3, R8) -/

/-- The row of TMR_STATUS: bits 0 to 6 are W1C, the others RO. -/
theorem regRow_tmrStatus (c : Fin 32) :
    regRow (tmr R.TMR_STATUS c) = some
      { base := R.TMR_STATUS, count := 32, stride := 64, reset := 0, rw := 0, w1c := 0x7F, w1s := 0, rc := 0 } := by
  revert c
  decide

theorem tmrReg_tmrStatus (c : Fin 32) : tmrReg (tmr R.TMR_STATUS c) = (c.val, R.TMR_STATUS) := by
  simp only [tmrReg, tmr, R.TMR_CFG, R.TMR_STATUS, Prod.mk.injEq]
  omega

theorem Dev.tmrWrite_status (d : Dev) (m : Master) (c : Fin 32) (v : Word) :
    d.tmrWrite m (tmr R.TMR_STATUS c) v = d.upd (tmr R.TMR_STATUS c) (accWrite 0 0x7F 0 · v) := by
  have hlt : ¬R.TMR_GSTART ≤ tmr R.TMR_STATUS c := by
    simp only [tmr, R.TMR_GSTART, R.TMR_STATUS]
    omega
  rw [Dev.tmrWrite, if_neg hlt, tmrReg_tmrStatus]
  show d.plainWrite _ v = _
  rw [Dev.plainWrite, regRow_tmrStatus]

theorem bit_accWrite_w1c (old v : Word) {i : Nat} (hi : i < 7) : bit (accWrite 0 0x7F 0 old v) i = (bit old i && !bit v i) := by
  have hmask : bit (w32 0x7F) i = true := by
    revert i
    decide
  have hzero : bit (w32 0) i = false := by simp [bit]
  simp only [accWrite, bit_or, bit_and, bit_compl _ _ (show i < 32 by omega), hmask, hzero, Bool.not_false, Bool.and_true,
    Bool.and_false, Bool.or_false]

/-- A write of 1 clears a flag of TMR_STATUS, and a write of 0 leaves it. -/
theorem Dev.flag_tmrWrite_status (d : Dev) (m : Master) (c : Fin 32) (v : Word) {i : Nat} (hi : i < 7) :
    bit ((d.tmrWrite m (tmr R.TMR_STATUS c) v).rd (tmr R.TMR_STATUS c)) i = (bit (d.rd (tmr R.TMR_STATUS c)) i && !bit v i) := by
  rw [Dev.tmrWrite_status, Dev.upd, Dev.rd_wr_self]
  exact bit_accWrite_w1c _ _ hi

theorem Dev.timer_tmrWrite_status (d : Dev) (m : Master) (c : Fin 32) (v : Word) (k : Nat) :
    (d.tmrWrite m (tmr R.TMR_STATUS c) v).timer k = d.timer k := by
  rw [Dev.tmrWrite_status]
  rfl

/-! ### The statement about captures -/

/-- Settles O21: captures by what they make of the channel and its flags, reads by `CapReads`, and the write by the row of
TMR_STATUS. -/
theorem capturesAndReads : Obligations.CapturesAndReads := by
  intro s m c v
  refine ⟨fun ht => ?captured, fun hr rising hedge => ?edge, fun ho => ⟨?both, ?alone⟩, fun ho => ?status⟩
  case captured => exact cmdAt_answers ht (s.dev.tcapture_captures c)
  case edge =>
    show Answers (execTimerCaptureEdge c rising s) _
    rw [execTimerCaptureEdge, onIsl_next hr, if_pos hedge]
    exact ⟨_, rfl, s.dev.tcapture_captures c⟩
  case both => exact exec_tmrCapRead_answers ho (s.dev.tcapRead_of_capture m c)
  case alone => exact exec_tmrCapRead_answers ho (s.dev.tcapRead_alone m c)
  case status =>
    have hplace : 0x100040000 ≤ tmr R.TMR_STATUS c ∧ tmr R.TMR_STATUS c < 0x100050000 ∧ tmr R.TMR_STATUS c % 4 = 0 := by
      simp only [tmr, R.TMR_STATUS]
      omega
    obtain ⟨hlo, hhi, h4⟩ := hplace
    rw [exec_regWrite_tmr v ho hlo hhi h4]
    exact ⟨_, rfl, s.dev.flag_tmrWrite_status m c v (by decide), s.dev.flag_tmrWrite_status m c v (by decide),
      s.dev.timer_tmrWrite_status m c v c⟩

end Sys2Proof.Machine
